-- ==== Sys2Proof/Word.lean ====
section
/-! DEFINITION. Word: the word types of the F8R package model. -/
namespace Sys2Proof

/-- One byte. -/
abbrev Byte := BitVec 8

/-- One 32-bit register word: every register of the F8R is 32 bits wide (00_scope.md, Writing conventions). -/
abbrev Word := BitVec 32

/-- A 64-bit quantity (a _LO and _HI register pair, a host address, a time in grains). -/
abbrev DWord := BitVec 64

end Sys2Proof
end

