-- ==== Sys2Proof/Syntax.lean ====
section
/-! DEFINITION. Syntax: the commands of the F8R package, one constructor per row of spec/opcode_table.json, and the types
their operands and the state share. An operand carries what the outside world gives that event: unit numbers, words written,
bytes that came back, what a check found. -/
namespace Sys2Proof

/-- A function of the package: port 0 or 1, and tenant number (0 the owner's physical function, 1 to 64 the virtual
functions; 16_host_attach.md R345, R346). -/
structure FnId where
  port : Nat
  tenant : Nat
  deriving DecidableEq, Repr

/-- Completion statuses (24_errors_and_events.md, Table - Status catalogue). -/
inductive Status where
  | ok | droppedIndices | bf16Flush | truncated | shortfall | packDropped | shardMissing
  | badOpcode | badField | badPlan | resultShort | notFound | outOfRegion | badAlign | badExtent | erasedRead
  | tokenRange | indexRange | rowTooLong | budgetExceeded | badRecord | badUtf8 | bf16Inexact | grammarVocab
  | grammarFault | logitFault | badImage | xlateFault
  | resvInsufficient | poolFull | imageBusy | reopened
  | peerLost | departing
  | noPartition | noArray | noEngine | tierFenced | assayLost | clockFault
  | poisonMemory | poisonFlash | poisonHost | poisonFabric | computeCheck
  deriving DecidableEq, Repr

/-- Where poison was first set (08_integrity_chain.md R169, R172): the 3-bit origin 0 to 3. -/
inductive Origin where
  | memory | flash | host | fabric
  deriving DecidableEq, Repr

/-- Bandwidth tiers of a reservation (06_memory_tiers.md, TEN_RESV): 0 SRAM, 1 HBM, 2 LPDDR, 3 NAND. -/
inductive Tier where
  | sram | hbm | lpddr | nand
  deriving DecidableEq, Repr

/-- The straps sampled at the rising edge of PWR_GOOD (23 R504, 02 R36, 22 R476). -/
structure Straps where
  assaySel : Bool
  rackSlot : BitVec 6
  trayPos : Bool
  deriving DecidableEq, Repr

/-- What verification of one SPI NOR image copy gives (23 R508). -/
structure ImageCheck where
  signatureOk : Bool
  lengthOk : Bool
  version : BitVec 16
  deriving DecidableEq, Repr

/-- A copy of a target's parameter page as it is read (07 R136, R140, R141, R151): whether it carries the ONFI signature and its CRC
matches; its geometry; the read-retry levels it declares; tCCS, tADL, tWB, tWHR and tRHW in ns; and the typical and the greatest
times of a read, a program and an erase in ns. -/
structure ParamPage where
  signature : Bool
  crc : Bool
  luns : Nat
  planes : Nat
  pageBytes : Nat
  spare : Nat
  pages : Nat
  blocks : Nat
  retries : Nat
  bus : List Nat
  typical : List Nat
  greatest : List Nat
  deriving DecidableEq, Repr

/-- What answers on a chip enable at self test (07 R140, Corners): whether READ ID at 0x20 returns the ONFI signature, and the copies
of the parameter page in the order read. -/
structure TargetSeen where
  onfi : Bool
  copies : List ParamPage
  deriving DecidableEq, Repr

/-- What self test finds on an ONFI channel (07 R136, R137): the targets by chip enable, and the codes of Table - Interface rates at
which DQ training passes on every present target. -/
structure ChannelSeen where
  targets : List TargetSeen
  rates : List Nat
  deriving DecidableEq, Repr

/-- What the self test finds on one facet (23 R510, 06 R112 to R113, 07 R136 to R140): raw fence bits and the devices. -/
structure FacetReport where
  fenceA : Word
  fenceB : Word
  hbmGb : Nat
  hbmRate : Nat
  hbmType : Nat
  lpDensities : List Nat
  lpRate : Nat
  lpTypes : List Nat
  channels : List ChannelSeen
  deriving DecidableEq, Repr

/-- What the world shows the package during power-on steps 2 to 6 (23 R504): references, ROM checks, image checks,
self-test results of the eight facets, and the retired rows that hard repair fixes (06 R124). -/
structure BootReport where
  refClock : Bool
  crystal : Bool
  romF0 : Bool
  romF4 : Bool
  imgA : ImageCheck
  imgB : ImageCheck
  standbyVerifies : Bool
  facets : List FacetReport
  fixedRows : List Nat
  deriving DecidableEq, Repr

/-- How a new image ends (23 R509, ASY_MBX_RESULT.REASON). -/
inductive ImageOutcome where
  | written (version : BitVec 16) | signature | version | length | writeFail | poison
  deriving DecidableEq, Repr

/-- A memory or link PHY that loses training or lock (06 R121, 24 R539). -/
inductive PhyUnit where
  | hbm (facet : Nat) | lpddr (channel : Nat) | link (facet dir : Nat)
  deriving DecidableEq, Repr

/-- What a check of a stored granule finds (06 R122, R123). -/
inductive CellCheck where
  | clean | correctable | uncorrectable
  deriving DecidableEq, Repr

/-- A scheduled flit (04 R82, R91): its flow and destination address, the bytes it writes, the grain count at which its slot
starts at the source port, and the grain count from which it is readable at the fabric side of its source crossing. -/
structure SchedFlit where
  flow : Nat
  addr : Nat
  data : List Byte
  slot : Nat
  ready : Nat
  deriving DecidableEq, Repr

/-- Scheduled flits that one source wrote into its crossing (04 R82): its facet, its port (0 to 7 or 24) and the flits in order. -/
structure SchedWrites where
  facet : Nat
  port : Nat
  flits : List SchedFlit
  deriving DecidableEq, Repr

/-- Coherence transaction ID (05 R97): partition and entry. -/
structure Tid where
  part : Nat
  entry : Nat
  deriving DecidableEq, Repr

/-- What an I/O agent asks of a home (05 R108). -/
inductive IoOp where
  | read | write (off : Nat) (data : List Byte)
  deriving DecidableEq, Repr

/-- How a grant answers a cache (05 Table - Coherence messages). -/
inductive GrantKind where
  | dataS | dataE | dataM | grantM
  deriving DecidableEq, Repr

/-- Priority classes of waiting NAND commands (07 R156), first served first. -/
inductive NandClass where
  | reRead | latency | bulk | update
  deriving DecidableEq, Repr

/-- What READ STATUS answers (07 R141, R142, R161); `which` names the failed parts of a multi-plane operation. -/
inductive NandStatus where
  | busy | ready | failed (which : List Nat) | noAnswer
  deriving DecidableEq, Repr

/-- The engines that read extents (07 R149): the similarity engine's candidate prefetch, the partitions through rerank and rescore, the
clasp unit, and the weight loader. -/
inductive FlashEngine where
  | prefetch | rescore | clasp | loader
  deriving DecidableEq, Repr

/-- Whose turn it is on a LUN (07 R154, R156): whether an update has waited 10 ms, the tenant that the reservations of 06 R130 have
served next, and the waiting commands on other planes that go with the first in one multi-plane operation. -/
structure NandTurn where
  aged : Bool
  tenant : Option Nat
  planes : List Nat
  deriving DecidableEq, Repr

/-- What the fabric does to the flits of one transfer (08 R165, R168, R176): flits replayed on die-to-die links as (receiving facet,
direction, count), words its code corrects at the destination, and flits in which it finds an error that it cannot correct. -/
structure FabricSeen where
  replays : List (Nat × Nat × Nat)
  corrected : Nat
  bad : List Nat
  deriving DecidableEq, Repr

/-- A grant as it reaches a cache (05 R97, R99; 08 R168): the line that a full set gives up, with the writeback buffer entry it takes, and
what the fabric did to the flit that carries the line. -/
structure GrantSeen where
  victim : Option (Nat × Nat)
  fabric : FabricSeen
  deriving DecidableEq, Repr

/-- How a read of host memory returns (08 R166, 16 R344, R353): data, a poisoned or error completion, or an ATS
translation that gives no access. -/
inductive ReadStatus where
  | good | poisoned | xlate
  deriving DecidableEq, Repr

/-- Settings that a function of a port has apart from the others (16 R353, R355): its tenant number, MSI-X Enable, Function Mask, ATS Enable. -/
structure FnConfig where
  tenant : Nat
  msix : Bool
  fmask : Bool
  ats : Bool
  deriving DecidableEq, Repr

/-- Configuration-space settings that host software makes on a port and that have no row of their own (16 R343 to R345, R352 to R355): ARI
Capable Hierarchy, PASID Enable, MSI-X Enable, Function Mask, ATS Enable, the codes of Max_Payload_Size and Max_Read_Request_Size (128 bytes
times 2 to the code), the tag size enabled (0 8-bit, 1 10-bit, 2 14-bit), the Completion Timeout Value of Device Control 2, and the functions
whose MSI-X Enable, Function Mask or ATS Enable differs from the port's. -/
structure PortConfig where
  ari : Bool
  pasid : Bool
  msix : Bool
  fmask : Bool
  ats : Bool
  mps : Nat
  mrrs : Nat
  tags : Nat
  timeout : Nat
  apart : List FnConfig
  deriving DecidableEq, Repr

/-- A ring or line of a function's set-up, as RING_DISABLE names it. -/
inductive RingKind where
  | sq | cq | db | evt
  deriving DecidableEq, Repr

/-- Operand formats of a matrix operation (11 R217, Table - Operand formats); for FP8, whether A and W are E5M2. -/
inductive MatFmt where
  | int8 | fp8 (aE5 wE5 : Bool) | bf16
  deriving DecidableEq, Repr

/-- Output formats of a matrix operation (11 Table - Operand formats): INT32, INT64, or a floating format by its code (0 FP32,
1 BF16, 2 E4M3, 3 E5M2). -/
inductive MatOut where
  | int32 | int64 | float (fmt : Nat)
  deriving DecidableEq, Repr

/-- A matrix operation that partition code issues (11 R217, R219): its entry in the image's operation table, formats, M, N, K, and the
partition group it runs on. -/
structure MatrixOp where
  entry : Nat
  fmt : MatFmt
  out : MatOut
  m : Nat
  n : Nat
  k : Nat
  group : Nat
  deriving DecidableEq, Repr

/-- One tile pass as the array meets it (11 R229): the operation, the chunk's activation rows and the weight tile's rows as codes of
their formats; the differences that faults put on its results, as (row, column, units of the accumulation's least bit), in the
first computation and in the recompute; the origin of a poisoned operand; and the mismatches of its vector unit (08 R167). -/
structure TilePass where
  op : MatrixOp
  a : List (List Nat)
  w : List (List Nat)
  err1 : List (Nat × Nat × Int)
  err2 : List (Nat × Nat × Int)
  poison : Option Origin
  vector : Nat
  deriving DecidableEq, Repr

/-- A unit that carries a computation check (08 R167): the similarity engine, the selection unit or the gather engine of a facet. -/
inductive CheckedUnit where
  | similarity (facet : Nat) | selection (facet : Nat) | gather (facet : Nat)
  deriving DecidableEq, Repr

/-- A mismatch that a computation check met (08 R167), and whether the re-execution mismatched too. -/
structure Mismatch where
  unit : CheckedUnit
  again : Bool
  deriving DecidableEq, Repr

/-- A step of a request on a unit with a computation check (08 R167): the request's tag, and the mismatch met. -/
structure UnitDone where
  tag : Nat
  check : Option Mismatch
  deriving DecidableEq, Repr

/-- A segment of a troy image that has been accepted at its destination (15 R326): its number, and what the fabric did to its flits (15
R328; 08 R168). -/
structure SegDone where
  seg : Nat
  fabric : FabricSeen
  deriving DecidableEq, Repr

/-- Data of a row read as they reach the gather engine (10 R209): the address read, what the fabric did to their flits, and the mismatch that
the check of the pooling sums met (08 R167). -/
structure RowArrival where
  addr : Nat
  fabric : FabricSeen
  check : Option Mismatch
  deriving DecidableEq, Repr

/-- What is wrong with a strand frame that is discarded (19 R409, R417): FEC, FCS, the transport CRC, or it is foreign. -/
inductive FrameFault where
  | fec | fcs | crc | foreign
  deriving DecidableEq, Repr

/-- What is measured on a Chain frame (20 R441): RSSI in dBFS, signed, in 0.5 dB units; SNR in 0.25 dB units; clipping. -/
structure Level where
  rssi : Byte
  snr : Nat
  clip : Bool
  deriving DecidableEq, Repr

/-- A Chain frame as a tap hears it (20 R433, R436, R437): carrier detect at the end of each tick of its OOK part, from bus idle to the
last bit before the switch bit; the 16 bits demodulated in place of its sync word; the offset from 6.000 MHz, in kHz, of each
demodulated data symbol, without the tail; and its levels. -/
structure FrameHeard where
  ticks : List Bool
  sync : BitVec 16
  offsets : List Int
  level : Level
  deriving DecidableEq, Repr

/-- A Chain frame whose sync word was accepted and whose CRC passes (21 R451, R458). -/
structure ChainFrame where
  typ : Nat
  src : Nat
  payload : List Byte
  level : Level
  deriving DecidableEq, Repr

/-- Why a Chain frame is not taken (21 R452, R458): its CRC fails, its length code is 15, or it is not for this node. -/
inductive NotTaken where
  | crc | form | other
  deriving DecidableEq, Repr

/-- A step of a send attempt (21 R456 to R459): it starts; or it runs to its end, and the tap hears carrier at the end of each tick of
the frame's OOK part, from bus idle on, and of the acknowledge slot. -/
inductive TxStep where
  | start
  | run (heard : List Bool) (slot : List Bool)
  deriving DecidableEq, Repr

/-- A character as the character receiver hears it (20 R446, R447): carrier detect at the end of each of its 160 ticks, from the tick of
the onset on, and whether R449 discards it. -/
structure CharSeen where
  ticks : List Bool
  inFrame : Bool
  deriving DecidableEq, Repr

/-- What a power-loop iteration measures (22 R492, PWR_FACET) and how far it sheds (R493): package power in 0.1 W; per facet its share,
hottest sensor and stack temperature; steps shed for the limit, further steps per facet at its throttle temperature, and steps
shed for the brake set. -/
structure PowerSample where
  pkg : Nat
  facets : List (Nat × Nat × Nat)
  shed : Nat
  facetShed : List Nat
  brakeShed : Nat
  deriving DecidableEq, Repr

/-- The commands. -/
inductive Instr where
  /-- PWR_GOOD_RISE (R504): PWR_GOOD rises: the straps are sampled and the power-on sequence runs, through PLL lock, ROM check, image verification, self test and PCIe training. -/
  | pwrGoodRise (straps : Straps) (boot : BootReport)
  /-- PWR_GOOD_FALL (R506): PWR_GOOD falls: every output stops within 1 µs, ENUM_OUT goes low, and the package is reset. -/
  | pwrGoodFall
  /-- PACKAGE_RESET (R506): The mailbox PACKAGE_RESET command, accepted only in allowed states with the key argument, reruns power-on steps 2 to 6 without resampling the straps. -/
  | packageReset (facet : Nat) (boot : BootReport)
  /-- IMAGE_UPDATE (R509): The mailbox IMAGE_UPDATE command starts reading and verifying a new image, which is written into the copy that was not booted. -/
  | imageUpdate
  /-- IMAGE_UPDATE_DONE (R509): The new image has been written and read back; on a match its copy is marked preferred in the boot record. -/
  | imageUpdateDone (res : ImageOutcome) (boot : BootReport)
  /-- HEARTBEAT (R38): Every 100 µs the active Assay controller sends a heartbeat to the standby. -/
  | heartbeat
  /-- HEARTBEAT_TIMEOUT (R38): No heartbeat for 1 ms: the standby declares the active controller lost and takes over if its facet meets R50. -/
  | heartbeatTimeout
  /-- PHY_LOCK_LOST (R121): An HBM, LPDDR or die-to-die PHY loses training or lock: the unit is fenced, its data is lost, and grants are re-evaluated. -/
  | phyLockLost (unit : PhyUnit)
  /-- CLK_PMAX_WRITE (R63): A write of a PCLK ceiling recomputes each affected partition's target code. -/
  | clkPmaxWrite (facet : Nat) (high : Bool) (w : Word)
  /-- DCO_STEP (R64): On its slew tick a DCO moves one code step toward its target. -/
  | dcoStep (part : Nat)
  /-- DCO_FAULT (R66): A DCO fails to reach ±0.5% of its target within 5 µs of its last step, and its partition is fenced. -/
  | dcoFault (part : Nat)
  /-- PLL_LOCK_LOST (R69): The package PLL loses lock: clocks stop, requests complete with CLOCK_FAULT, and the hallmark goes to HELD. -/
  | pllLockLost
  /-- CLOCK_RELOCK (R67): The package PLL relocks: the grain count restarts from 0, the schedule and slot tables are cleared, and CLOCK_RELOCK is logged. -/
  | clockRelock (gapUs : Nat)
  /-- FAB_SCHED_LOAD (R87): LOAD in FAB_SCHED_CTRL starts reading a schedule blob and resolves ACT_FRAME. -/
  | fabSchedLoad (facet : Nat)
  /-- FAB_SCHED_BLOB_CHECKED (R86): A facet has read the whole schedule blob and accepts it or refuses it with a reason. -/
  | fabSchedBlobChecked (facet : Nat) (blob : List Byte)
  /-- FAB_SCHED_ACTIVATE (R90): The activation frame begins: the new schedule takes over, or the load ends LATE. `slips`: scheduled flits that sources wrote before it. -/
  | fabSchedActivate (slips : List SchedWrites)
  /-- FAB_SCHED_CLEAR (R87): CLEAR in FAB_SCHED_CTRL ends the schedule at the end of the current frame on every live facet. -/
  | fabSchedClear (facet : Nat)
  /-- RD_S (R98): The home takes a read-for-sharing request and grants the line E or S, or forwards FWD_S to the owner. -/
  | rdS (line : Nat) (tid : Tid)
  /-- RD_O (R98): The home takes a read-for-ownership request and sends INV to each sharer or FWD_O to the owner. -/
  | rdO (line : Nat) (tid : Tid) (store : Option (Nat × List Byte))
  /-- UPG (R98): The home takes an upgrade from S; if the requester is no longer a sharer, it treats the request as RD_O. -/
  | upg (line : Nat) (tid : Tid) (store : Option (Nat × List Byte))
  /-- WB (R106): The home takes a writeback: it accepts it, discards it as stale or consumed, or fences the sender for a protocol fault. -/
  | wb (line : Nat) (tid : Tid) (data : List Byte)
  /-- EVICT (R97): The home takes a notice that an E or S line was dropped. -/
  | evict (line : Nat) (tid : Tid)
  /-- FWD_DATA (R106): The home takes an owner's answer to a forward, possibly from a writeback buffer, and completes the pending request. -/
  | fwdData (line : Nat) (sender : Nat)
  /-- ACK_INV (R98): The home takes a sharer's answer to INV. -/
  | ackInv (line : Nat) (sender : Nat)
  /-- DATA_GRANT (R99): A cache receives DATA_S, DATA_E, DATA_M or GRANT_M and performs its pending store before answering any forward. -/
  | dataGrant (line : Nat) (tid : Tid) (seen : GrantSeen)
  /-- FWD_S (R105): An owner cache receives FWD_S, supplies the line, and keeps it in S. -/
  | fwdS (line : Nat) (part : Nat)
  /-- FWD_O (R105): An owner cache receives FWD_O, supplies the line from cache or writeback buffer, and goes to I. -/
  | fwdO (line : Nat) (part : Nat)
  /-- INV (R105): A sharer cache receives INV, answers ACK_INV, and goes to I. -/
  | inv (line : Nat) (part : Nat)
  /-- WB_ACK (R105): A cache receives WB_ACK and frees its writeback buffer entry. -/
  | wbAck (line : Nat) (tid : Tid)
  /-- IO_ACCESS (R108): The home takes an I/O agent's coherent read or write under an I/O credit. `tenant`: whom the agent acts for; `found`: what its memory reads find in the cells, by offset in the line and HBM row. -/
  | ioAccess (id tenant line : Nat) (op : IoOp) (found : List (Nat × Nat × CellCheck))
  /-- NS_FILL (R109): A partition copies 128-byte lines from memory into its near store as I/O reads. -/
  | nsFill (part : Nat) (mem : Nat) (near : Nat) (len : Nat)
  /-- NS_DRAIN (R109): A partition copies lines from its near store to memory as whole-line I/O writes. -/
  | nsDrain (part : Nat) (near : Nat) (mem : Nat) (len : Nat)
  /-- FENCE_INSTRUCTION (R111): A partition's fence instruction completes once all its earlier writes, NS_FILLs and NS_DRAINs have been accepted. -/
  | fenceInstruction (part : Nat)
  /-- SCRUB_READ (R123): The patrol scrubber reads a line, corrects it, and writes it back when it made a correction. -/
  | scrubRead (addr : Nat) (row : Nat) (found : CellCheck)
  /-- ROW_RETIRE_COPY_DONE (R124): A row's retirement copy completes and the accesses waiting on that row proceed. -/
  | rowRetireCopyDone (hbm : Bool) (unit : Nat) (row : Nat) (room : Bool)
  /-- RESV_EVALUATION (R131): Every 100 µs, or at once on a trigger, the deliverable bandwidth and class grants are recomputed. -/
  | resvEvaluation
  /-- EXTENT_READ (R148): An engine asks the flash controller for an extent, which is validated and queued. -/
  | extentRead (id : Nat) (reader : Nat) (engine : FlashEngine) (extent : List Byte)
  /-- NAND_COMMAND_ISSUE (R156): A LUN becomes free and the controller issues the next waiting command in priority order. -/
  | nandCommandIssue (lun : Nat) (turn : NandTurn)
  /-- READ_STATUS_POLL (R141): A status poll of an array operation is due every 2 µs after the typical time. -/
  | readStatusPoll (lun : Nat) (st : NandStatus)
  /-- NAND_TIMEOUT (R142): An array operation passes its timeout: the target is reset and retried, and taken offline on a second failure. -/
  | nandTimeout (lun : Nat)
  /-- CODEWORD_DECODE (R151): A transferred codeword is decoded, with read retry and soft decision as needed, then CRC-checked and delivered or poisoned. `fabric`: the reader's facet and what the fabric does to the flits that leave. -/
  | codewordDecode (id : Nat) (decodes : Bool) (fabric : Nat × FabricSeen) (cw : List Byte)
  /-- ZQ_CALIBRATION_SHORT (R139): Every 100 ms each NV-LPDDR4 target gets a short ZQ calibration. -/
  | zqCalibrationShort (lun : Nat)
  /-- FLS_JOB_START (R162): START in FLS_JOB_CTRL begins a flash job, or is refused when the hallmark is not SEALED. -/
  | flsJobStart (facet : Nat) (port : Nat)
  /-- FLS_JOB_ABORT (R162): ABORT in FLS_JOB_CTRL stops a job as for HELD, with the reason ABORTED. -/
  | flsJobAbort (facet : Nat)
  /-- JOB_ERASE (R159): A job entry erases consecutive blocks of one LUN. -/
  | jobErase (facet : Nat) (entry : List Byte) (st : ReadStatus)
  /-- JOB_PROGRAM (R159): A job entry programs consecutive pages from host data, with the controller supplying CRCs and parity. `dataSt`: how the data of each page came. -/
  | jobProgram (facet : Nat) (entry : List Byte) (st : ReadStatus) (data : List Byte) (dataSt : List ReadStatus)
  /-- JOB_SCAN (R159): A job entry writes one block-status byte per block to the host. -/
  | jobScan (facet : Nat) (entry : List Byte) (st : ReadStatus) (marks : List Bool)
  /-- JOB_READ (R159): A job entry copies decoded page data to the host, writing poisoned sectors as zeros. `id`: the number its read takes. -/
  | jobRead (facet : Nat) (entry : List Byte) (st : ReadStatus) (id : Nat)
  /-- NOP (R375): A NOP descriptor completes with OK at once. -/
  | nop (tag : Nat)
  /-- FENCE (R376): A FENCE descriptor takes bounds on the rings in scope and holds later entries until its predecessors complete. -/
  | fence (tag : Nat)
  /-- PIPELINE (R16): A PIPELINE descriptor is checked, reads its input and plan, and starts its first stage. -/
  | pipeline (tag : Nat)
  /-- STAGE_COMPLETE (R22): A pipeline stage makes its output final; the next stage starts, or the result header and completion are written.
  `check`: the mismatch that stage 4's selection met; `unit`: the facet of the token unit of stage 0; `fabric`: the facet that took the
  stage's input from the stage before, and what the fabric did to its flits. -/
  | stageComplete (tag : Nat) (check : Option Mismatch) (unit : Nat) (fabric : Nat × FabricSeen)
  /-- TOKENIZE (R187): A TOKENIZE descriptor tokenizes the input bytes on one token unit. -/
  | tokenize (tag : Nat) (unit : Nat)
  /-- DETOKENIZE (R193): A DETOKENIZE descriptor turns tokens into bytes, with stop-string holdback and a state record. -/
  | detokenize (tag : Nat) (unit : Nat)
  /-- TOK_LD_LOAD (R180): LOAD in TOK_LD_CTRL copies a vocabulary or grammar blob into SRAM and checks it. -/
  | tokLdLoad (w : Word)
  /-- TOK_LOAD_DONE (R178): The copied blob has been checked; the slot is marked loaded or the load is refused. -/
  | tokLoadDone (blob : List Byte) (st : ReadStatus)
  /-- TOK_LD_UNLOAD (R181): UNLOAD in TOK_LD_CTRL empties a slot once the requests that resolved it finish; it is refused while a grammar is bound. -/
  | tokLdUnload (w : Word)
  /-- SLOT_UNLOAD_DONE (R181): The last request that resolved an unloaded slot completes and the slot becomes empty. -/
  | slotUnloadDone
  /-- MASK_READY (R198): A mask lane finishes a grammar mask and delivers it to the sampling partition, releasing a waiting sample. -/
  | maskReady (tag : Nat) (seq : Nat) (grains : Nat)
  /-- GATHER (R215): A GATHER descriptor reads or pools the table rows that the indices name. -/
  | gather (tag : Nat)
  /-- GATHER_ROW_ARRIVAL (R209): A row read returns data to the gather engine, freeing one of its outstanding reads. -/
  | gatherRowArrival (tag : Nat) (arrival : RowArrival)
  /-- SCATTER_WRITE (R211): A SCATTER in WRITE mode replaces the selected rows, then their replicas. -/
  | scatterWrite (tag : Nat)
  /-- SCATTER_ADD (R211): A SCATTER in ADD mode adds source rows into table rows with saturation rules. -/
  | scatterAdd (tag : Nat)
  /-- SCATTER_REFRESH (R211): A SCATTER in REFRESH mode copies every hot row to every live replica. -/
  | scatterRefresh (tag : Nat)
  /-- EMBED (R236): An EMBED descriptor runs an encoder image over token sequences on a partition group. -/
  | embed (tag : Nat)
  /-- RERANK (R239): A RERANK descriptor rescores and/or cross-encodes candidates and returns the best ordered. -/
  | rerank (tag : Nat)
  /-- TILE_PASS_DONE (R229): A tile pass ends and is checked by its row and column checksums; on a mismatch it is recomputed, and a repeat marks the array suspect. -/
  | tilePassDone (tag : Nat) (part : Nat) (pass : TilePass)
  /-- OUTPUT_TILE_DONE (R228): An array finishes an output tile and takes the next one from the dispatcher queue. -/
  | outputTileDone (tag : Nat) (part : Nat)
  /-- SEARCH (R274): A SEARCH descriptor starts the centroid pass, the scan and selection over an index slot. -/
  | search (tag : Nat)
  /-- CENTROID_EXCHANGE (R254): The stripe facets exchange their best lists and derive the same NPROBE list choice. -/
  | centroidExchange (done : UnitDone)
  /-- SCAN_DONE (R258): The scan of the chosen stripes and its selection end, and the post-filter and widening re-run follow. -/
  | scanDone (tag : Nat) (check : Option Mismatch)
  /-- NB_PREFETCH_COPY_DONE (R262): A neighbour-list stripe copy into the list buffer completes, releasing a scan waiting on it. -/
  | nbPrefetchCopyDone (tag : Nat) (facet : Nat) (list : Nat)
  /-- SHARD_DEADLINE_X (R273): The shard deadline expires and unanswered peers are counted as missing shards. -/
  | shardDeadlineX (tag : Nat)
  /-- SRCH_LD_LOAD (R246): LOAD in SRCH_LD_CTRL loads an index layout blob into a slot after checks. -/
  | srchLdLoad (w : Word)
  /-- SRCH_LOAD_DONE (R250): The index blob and directory have been read and checked; the slot is loaded or the load is refused. -/
  | srchLoadDone (blob : List Byte) (st : ReadStatus)
  /-- SRCH_LD_UNLOAD (R246): UNLOAD in SRCH_LD_CTRL empties an index slot once the requests that resolved it finish. -/
  | srchLdUnload (w : Word)
  /-- SELECT (R287): A SELECT descriptor keeps the best K entries of a row across the named units. -/
  | selectRow (tag : Nat) (check : Option Mismatch)
  /-- SELECT_MERGE (R285): The merging unit has received every share and merges them into the best K. -/
  | selectMerge (done : UnitDone)
  /-- PACK (R301): A PACK descriptor builds a prompt from a template, query tokens and passages under a budget. -/
  | packPrompt (tag : Nat)
  /-- PREFILL (R306): A PREFILL descriptor runs the generator over the prompt and ships or writes its key/value blocks. -/
  | prefill (tag : Nat)
  /-- PREFILL_LAYER_DONE (R30): A prefill layer completes and its key/value blocks start shipping. -/
  | prefillLayerDone (tag : Nat)
  /-- DECODE_ATTACH (R310): A DECODE_ATTACH attaches a group as a decode pool and stays open. -/
  | decodeAttach (tag : Nat)
  /-- DETACH (R310): A DECODE_ATTACH with DETACH set stops admission, optionally aborts sequences, and closes the pool. -/
  | detach (tag : Nat)
  /-- ADMIT_MS_X (R312): A waiting SEQ_OPEN passes its admission time and is refused with POOL_FULL. -/
  | admitMsX (tag : Nat) (seq : Nat)
  /-- DECODE_STEP (R313): A decode step runs the pool's sequences, chooses a token for each, and tests the stop conditions. -/
  | decodeStep (tag : Nat) (bad : List (Nat × Status))
  /-- CHUNK_US (R317): CHUNK_US elapses since a sequence's first pending byte and a text chunk is posted. -/
  | chunkUs (tag : Nat) (seq : Nat)
  /-- TEXT_CONSUMED_REREAD (R316): Every 0.5 µs while a chunk does not fit, CONSUMED is re-read from the text head. -/
  | textConsumedReread (tag : Nat) (consumed : Nat) (st : ReadStatus)
  /-- CLP_LD_LOAD (R296): LOAD in CLP_LD_CTRL loads a template blob into a slot after checks. -/
  | clpLdLoad (w : Word) (blob : List Byte) (st : ReadStatus)
  /-- CLP_LD_UNLOAD (R296): UNLOAD in CLP_LD_CTRL empties a template slot once the requests that resolved it finish. -/
  | clpLdUnload (w : Word)
  /-- TEN_GROUP_WRITE (R292): A write of a group mask keeps only the bits of partitions that the tenant holds. -/
  | tenGroupWrite (tenant : Nat) (group : Nat) (high : Bool) (w : Word)
  /-- LOAD_WEIGHTS_LOAD (R326): LOAD_WEIGHTS with OP LOAD starts loading a troy image into an empty slot from its sources. -/
  | loadWeightsLoad (tag : Nat)
  /-- LOAD_WEIGHTS_SWAP (R334): LOAD_WEIGHTS with OP SWAP loads a new image to replace a READY one, beside it or in place. -/
  | loadWeightsSwap (tag : Nat)
  /-- LOAD_WEIGHTS_UNLOAD (R337): LOAD_WEIGHTS with OP UNLOAD empties a slot once the requests that resolved it finish. -/
  | loadWeightsUnload (tag : Nat)
  /-- TROY_METADATA_ARRIVAL (R324): A source's metadata arrives and is checked, or compared byte for byte with the accepted copy. -/
  | troyMetadataArrival (slot : Nat)
  /-- SEGMENT_COMPLETE (R326): A segment has been wholly accepted; after the last one the slot goes READY or the swap switches. -/
  | segmentComplete (slot : Nat) (seg : SegDone)
  /-- IN_PLACE_SWAP_START (R334): The last request on the old image finishes and an in-place swap starts writing. -/
  | inPlaceSwapStart (slot : Nat)
  /-- WINDOW_UNIT_COPY_DONE (R331): A streamed unit has been copied into its window half on every facet and may compute. -/
  | windowUnitCopyDone (tag : Nat)
  /-- LINK_DOWN (R359): A port's link goes down, and the port's functions are reset as for a PF FLR. -/
  | linkDown (port : Nat)
  /-- PERST_ASSERT (R359): PERST# is asserted on a port, which is reset as for link down. -/
  | perstAssert (port : Nat)
  /-- HOT_RESET (R359): A port receives a hot reset and is reset as for link down. -/
  | hotReset (port : Nat)
  /-- LINK_UP (R359): A port's link comes up again after a reset and LINK_CHANGE is sent. -/
  | linkUp (port : Nat) (speed : Nat) (width : Nat) (cfg : PortConfig)
  /-- VF_FLR (R356): Initiate FLR of a virtual function stops its rings, abandons its requests, and resets its set-up within 50 ms. -/
  | vfFlr (port : Nat) (vf : Nat)
  /-- PF_FLR (R358): An FLR of a physical function resets the owner's rings on that port, clears VF Enable, and stops its flash job. -/
  | pfFlr (port : Nat)
  /-- VF_ENABLE_CLEAR (R346): Clearing VF Enable resets every virtual function of the port. -/
  | vfEnableClear (port : Nat)
  /-- D3HOT_TRANSITION (R350): A function enters D3hot, pausing DMA and fetch, or returns to D0 and resumes. -/
  | d3hotTransition (port : Nat) (tenant : Nat) (enter : Bool)
  /-- ATS_INVALIDATE_REQUEST (R354): An ATS invalidate is answered within 100 µs once prior requests under the translation are done. -/
  | atsInvalidateRequest (port : Nat) (tenant : Nat) (id : Nat)
  /-- COMPLETION_TIMEOUT (R344): A host read completion times out and its data is poisoned with origin HOST. -/
  | completionTimeout (tag : Nat) (addr : Nat) (len : Nat)
  /-- DOORBELL_POLL (R364): A line's poll interval expires and a 64-byte read of the doorbell line is issued. -/
  | doorbellPoll (port : Nat) (tenant : Nat) (line : Nat)
  /-- DOORBELL_POLL_DATA (R363): Poll data arrives; EPOCH and producer indices are checked, recorded, or reported as a ring fault. -/
  | doorbellPollData (port : Nat) (tenant : Nat) (line : Nat) (data : List Byte) (st : ReadStatus)
  /-- DESCRIPTOR_FETCH_DATA (R368): Submission ring entries arrive, and each descriptor takes a tag after its header checks. -/
  | descriptorFetchData (port : Nat) (tenant : Nat) (ring : Nat) (entry : List Byte) (st : ReadStatus) (body : List Byte) (bodySt : ReadStatus)
  /-- CQ_HEAD_REREAD (R382): Every 0.5 µs while out of room, a completion or event ring head word is re-read. -/
  | cqHeadReread (port : Nat) (tenant : Nat) (cq : Option Nat) (head : Nat) (st : ReadStatus)
  /-- MOD_US_EXPIRY (R383): A completion ring's moderation timer expires and its MSI-X message is sent. -/
  | modUsExpiry (port : Nat) (tenant : Nat) (cq : Option Nat)
  /-- RNG_SQ_ENABLE (R387): ENABLE of a submission ring checks the configuration and reads its doorbell line once to set the indices. -/
  | rngSqEnable (port : Nat) (tenant : Nat) (ring : Nat) (w : Word) (line : List Byte) (st : ReadStatus)
  /-- RNG_CQ_ENABLE (R387): ENABLE of a completion ring takes its fields and starts POSTED, OWED and PHASE. -/
  | rngCqEnable (port : Nat) (tenant : Nat) (ring : Nat) (w : Word)
  /-- RNG_DB_ENABLE (R387): ENABLE of a doorbell line takes ADDR and EPOCH and starts polling at MIN. -/
  | rngDbEnable (port : Nat) (tenant : Nat) (line : Nat) (w : Word)
  /-- RING_DISABLE (R388): Clearing ENABLE stops a submission ring's fetch, or is ignored for a line or completion ring still in use. -/
  | ringDisable (port : Nat) (tenant : Nat) (kind : RingKind) (index : Nat) (w : Word)
  /-- EVT_ENABLE (R538): ENABLE of an event ring starts it and flushes any held owner events into it. -/
  | evtEnable (port : Nat) (tenant : Nat) (w : Word)
  /-- TEN_CLEAR_START (R406): START in TEN_CLEAR_CTRL starts zeroing a tenant region, or refuses with a reason. -/
  | tenClearStart (w : Word)
  /-- TEN_CLEAR_DONE (R406): A region clear finishes and the status reads DONE. -/
  | tenClearDone
  /-- FEC_LOCK (R411): A strand lane's FEC locks, it enters IDENTIFYING, and it sends an LLDPDU. -/
  | fecLock (lane : Nat) (fast : Bool)
  /-- LANE_TRAINING_RETRY (R407): Every 100 ms a lane that failed training retries. -/
  | laneTrainingRetry (lane : Nat)
  /-- LLDP_TRANSMIT (R411): The LLDP timer expires and the lane sends an LLDPDU. -/
  | lldpTransmit (lane : Nat)
  /-- LLDPDU_RECEIVED (R413): A received LLDPDU is compared with the plan, moving the lane to UP or QUARANTINED. -/
  | lldpduReceived (lane : Nat) (csub : Byte) (chassis : List Byte) (psub : Byte) (port : List Byte) (ttl : Nat)
  /-- LLDP_TTL_EXPIRY (R413): The received TTL of an UP lane expires and the lane returns to IDENTIFYING. -/
  | lldpTtlExpiry (lane : Nat)
  /-- STR_LANE_ACK (R414): ACK in STR_LANE_CTRL lifts a lane's quarantine and sets ACKED. -/
  | strLaneAck (lane : Nat)
  /-- STR_LANE_RETRAIN (R407): RETRAIN in STR_LANE_CTRL takes a lane DOWN and trains it again. -/
  | strLaneRetrain (lane : Nat)
  /-- STRAND_REFCLK_LOSS (R561): The strand reference is lost and every lane goes DOWN until it returns. -/
  | strandRefclkLoss
  /-- FLOW_OPEN (R420): An OPEN frame starts a flow; the acceptor admits the first message or refuses it. -/
  | flowOpen (lane : Nat) (frame : List Byte)
  /-- ACCEPT (R420): The opener receives ACCEPT and may send further frames. -/
  | acceptFrame (lane : Nat) (frame : List Byte)
  /-- REFUSE (R420): The opener receives REFUSE, which ends the flow with the status it carries. -/
  | refuseFrame (lane : Nat) (frame : List Byte)
  /-- ACK (R422): A cumulative and selective acknowledgement releases outstanding frames. -/
  | ackFrame (lane : Nat) (frame : List Byte)
  /-- FIN (R420): A FIN ends one direction; the flow closes when both directions are acknowledged. -/
  | finFrame (lane : Nat) (frame : List Byte)
  /-- KEEPALIVE (R427): A received KEEPALIVE counts as progress from the peer. -/
  | keepaliveFrame (lane : Nat) (frame : List Byte)
  /-- RESET (R420): A received RESET closes the flow with PEER_LOST and discards partial data. -/
  | resetFrame (lane : Nat) (frame : List Byte)
  /-- KEEPALIVE_TIMER (R427): Every 200 µs a KEEPALIVE is sent on each flow whose peer waits for work. -/
  | keepaliveTimer
  /-- RETRANSMIT_TIMEOUT (R422): A frame unacknowledged for 20 µs is retransmitted, and moves pair after two timeouts. -/
  | retransmitTimeout (mine : Bool) (peer : Nat) (num : Nat) (seq : Nat)
  /-- ACK_DELAY (R422): Within 1 µs of an in-order frame that advanced its state, the receiver sends an acknowledgement. -/
  | ackDelay (mine : Bool) (peer : Nat) (num : Nat)
  /-- PEER_LOSS_TIMEOUT (R426): A flow awaits its peer for 2 ms without progress, so the peer is declared lost and its flows end. -/
  | peerLossTimeout (peer : Nat)
  /-- SEQ_OPEN (R311): A pool receives SEQ_OPEN and admits the sequence, queues it, or refuses it. -/
  | seqOpen (lane : Nat) (frame : List Byte)
  /-- KV_BLOCK (R308): A pool receives a key/value block, writes it into its cache region, and acknowledges it. -/
  | kvBlock (lane : Nat) (frame : List Byte)
  /-- SHARD_QUERY (R271): A package receives SHARD_QUERY and runs the shard search or refuses it. -/
  | shardQuery (lane : Nat) (frame : List Byte)
  /-- SHARD_RESULT (R272): The issuer receives a shard's entries and merges them. -/
  | shardResult (lane : Nat) (frame : List Byte)
  /-- WEIGHT_REQ (R340): A package receives WEIGHT_REQ and serves image bytes or refuses. -/
  | weightReq (lane : Nat) (frame : List Byte)
  /-- WEIGHT_DATA (R326): A loader receives image bytes from a peer source. -/
  | weightData (lane : Nat) (frame : List Byte)
  /-- CHN_RXGAIN_APPLY (R442): A written receive gain takes effect at the next bus idle and clears the level entries. -/
  | chnRxgainApply
  /-- NOISE_MEASUREMENT (R441): After 100 µs without carrier, bus noise is measured into CHN_NOISE. -/
  | noiseMeasurement (noise : Byte)
  /-- NOISE_STALE (R441): No 100 µs idle stretch occurs for 1 s and CHN_NOISE sets STALE. -/
  | noiseStale
  /-- SYNC_MISS (R444): No sync word is accepted within 40 µs after the switch bit, so the frame is abandoned. -/
  | syncMiss
  /-- CHARACTER_RECEIVED (R446): A legacy character is decoded, with stop-bit rules, into the receive FIFO. -/
  | characterReceived (c : CharSeen)
  /-- CHARACTER_SEND (R450): After bus idle, queued characters are sent back to back, with collision retry. -/
  | characterSend (collided : Bool)
  /-- CHN_CHAR_TX_DATA (R450): A write of DATA in CHN_CHAR_TX queues a character to send. -/
  | chnCharTxData (b : Byte)
  /-- CHN_CHAR_TX_ABORT (R450): ABORT in CHN_CHAR_TX empties the transmit FIFO and stops the character in progress. -/
  | chnCharTxAbort
  /-- CHN_CHAR_RX_READ (R445): A read of CHN_CHAR_RX removes the head of the receive FIFO and returns it. -/
  | chnCharRxRead (port : Nat)
  /-- CHAIN_TX_ATTEMPT (R456): The bus allows a start of frame and the lowest pending frame is sent, arbitrated and acknowledged or retried. -/
  | chainTxAttempt (stp : TxStep)
  /-- CHAIN_TX_CUT (R464): Own carrier lasts 2 ms and the transmitter is cut until CLEAR_CUT. -/
  | chainTxCut
  /-- CHAIN_BUS_STUCK (R464): Foreign carrier lasts 2 ms and BUS_STUCK is set. -/
  | chainBusStuck
  /-- CLEAR_CUT (R464): CLEAR_CUT in CHN_CTRL clears TX_CUT and lets the transmitter send. -/
  | clearCut
  /-- ENUM_START (R467): An ENUM_START frame is taken, possibly resetting the address, and claiming begins in chain or contention mode. -/
  | enumStart (frame : FrameHeard)
  /-- ASSIGN (R468): An ASSIGN naming the package serial gives the package its Chain address. -/
  | assignFrame (frame : FrameHeard)
  /-- CLAIM_RESEND (R467): No ASSIGN arrives within 100 ms of a successful CLAIM and the CLAIM is sent again. -/
  | claimResend
  /-- ENUM_IN_CHANGE (R466): The filtered ENUM_IN changes, driving ENUM_OUT and starting or withdrawing a CLAIM. -/
  | enumInChange (level : Bool)
  /-- CAP (R486): A CAP frame is judged by tag, duplicate, counter and range, and sets the cap in force. -/
  | capFrame (frame : FrameHeard)
  /-- DEPART (R497): A DEPART frame from a roster node is taken and acknowledged but not acted on. -/
  | departFrame (frame : FrameHeard)
  /-- APPLICATION_FRAME (R473): A taken application frame is written into its bound receive buffer and CHAIN_RX is sent. -/
  | applicationFrame (frame : FrameHeard)
  /-- FOREIGN_FRAME (R469): A foreign frame is counted and optionally stored in the foreign buffer, without acknowledgement. -/
  | foreignFrame (frame : FrameHeard)
  /-- CHN_TXB_GO (R472): GO in a transmit buffer makes the frame pending or refuses it. -/
  | chnTxbGo (buf : Nat) (w : Word)
  /-- CHN_TXB_WITHDRAW (R462): WITHDRAW removes a pending owner frame, or does so after the current attempt. -/
  | chnTxbWithdraw (buf : Nat) (w : Word)
  /-- CHN_RXB_STATUS_CLEAR (R475): A W1C write clears NEW or OVERWRITE only if it carries the current SEQ. -/
  | chnRxbStatusClear (buf : Nat) (w : Word)
  /-- STR_PLAN_LOAD (R479): LOAD in STR_PLAN_CTRL reads and checks a cable plan blob and stages it. -/
  | strPlanLoad (w : Word) (blob : List Byte) (st : ReadStatus)
  /-- PWRBRAKE_ASSERTED (R489): PWRBRAKE# is taken as asserted and fixed logic applies the 40% brake set. -/
  | pwrbrakeAsserted
  /-- PWRBRAKE_RELEASED (R490): PWRBRAKE# is taken as released and the limit returns to the cap in force. -/
  | pwrbrakeReleased
  /-- POWER_LOOP_ITERATION (R493): Every 100 µs, or on a trigger, power is measured and partition codes, p and duty are set within the budget. -/
  | powerLoopIteration (m : PowerSample)
  /-- EJECT_ASSERTED (R496): EJECT# is taken as asserted: fetch pauses, DEPART LEAVING is queued, and the quiesce begins. -/
  | ejectAsserted
  /-- QUIESCE_FLOW_RESET (R496): At t0 + 4.0 ms every flow still open is reset with DEPARTING. -/
  | quiesceFlowReset
  /-- QUIESCE_REQUEST_FAIL (R496): At t0 + 4.5 ms remaining requests fail with DEPARTING and DEPART QUIET is queued. -/
  | quiesceRequestFail
  /-- QUIESCE_HELD (R496): At t0 + 5.0 ms the hallmark enters HELD with EJECTED and pending DEPARTs are withdrawn. -/
  | quiesceHeld
  /-- EJECT_RELEASED (R498): EJECT# is released and the owner may seal again. -/
  | ejectReleased
  /-- HMK_SEAL (R515): A write of HMK_SEAL starts a global or per-tenant check, or is ignored or refused. -/
  | hmkSeal (w : Word)
  /-- HMK_CHECK_DONE (R516): The check ends: values take effect at one instant and the state goes SEALED, or it reports the first failing reason. -/
  | hmkCheckDone
  /-- OPEN (R519): OPEN in HMK_CTRL opens at once from EMPTY or HELD, or starts a global drain from SEALED. -/
  | openAll
  /-- OPEN_TENANT (R522): OPEN_TENANT in HMK_CTRL re-opens one tenant while the package stays SEALED. -/
  | openTenant (t : Nat)
  /-- DRAIN_COMPLETE (R519): Nothing remains in flight during a drain and the hallmark enters OPEN. -/
  | drainComplete
  /-- HMK_DRAIN_X (R519): The drain limit expires and remaining requests fail with REOPENED before the state goes OPEN. -/
  | hmkDrainX
  /-- CRYSTAL_LOSS (R561): The 25 MHz crystal stops or leaves tolerance, so both controllers stop and the package goes dead with NO_CRYSTAL. -/
  | crystalLoss
  /-- THERMTRIP (R567): A facet or stack reaches its trip temperature, so THERMTRIP# asserts within 10 µs and every output stops. -/
  | thermtrip
  /-- REGISTER_WRITE (R10): A write to a register without a row of its own acts by its access codes, with _X and sealed-set filtering. -/
  | registerWrite (port : Nat) (tenant : Nat) (bar : Nat) (off : Nat) (size : Nat) (w : Word)
  /-- STRAND_LANE_DOWN (R413): A strand lane loses FEC lock or its link and goes DOWN; it sends a shutdown LLDPDU if it still can, and its outstanding frames are retransmitted on the pair's other UP lane. -/
  | strandLaneDown (lane : Nat) (canSend : Bool)
  /-- BUS_IDLE (R444): No carrier has been seen for 24 consecutive OOK bit times, so a receiver that lost sync regains its footing and BUS_STUCK clears. -/
  | busIdle
  /-- CHAIN_FRAME_NOT_TAKEN (R441): A Chain frame whose sync word was accepted is received but not taken (CRC failure, length code 15, or addressed to another node); its RSSI and SNR are recorded and the error counts rise. -/
  | chainFrameNotTaken (src : Nat) (level : Level) (why : NotTaken)
  /-- DATA (R422): A strand DATA frame that does not complete a message arrives; it is kept in the window or discarded as a duplicate, and it is acknowledged at once when out of order or duplicated. -/
  | dataFrame (lane : Nat) (frame : List Byte)
  /-- STRAND_FRAME_DISCARD (R417): A strand frame that fails FEC, FCS or the transport CRC, or is foreign, or arrives while the package is not SEALED, is discarded and counted, and is never acknowledged. -/
  | strandFrameDiscard (lane : Nat) (why : FrameFault) (corrected : Nat)
  /-- STATUS (R419): A STATUS message answering a SHARD_QUERY or WEIGHT_REQ on an accepted flow arrives and gives the requester's shard or load that status. -/
  | statusMsg (lane : Nat) (frame : List Byte)
  /-- HOST_READ_COMPLETION (R166): A completion for a DMA read of host memory arrives with data, EP set or an error status, and its data passes on under the fabric code, poisoned with origin HOST when bad. -/
  | hostReadCompletion (tag : Nat) (addr : Nat) (data : List Byte) (st : ReadStatus)
  /-- REGISTER_READ (R10): A BAR0 read of an RC field returns the value and clears the field, with R12 deciding same-cycle readers and each read path's own accumulator cleared. -/
  | registerRead (port : Nat) (tenant : Nat) (bar : Nat) (off : Nat) (size : Nat)
  /-- VF_ENABLE_SET (R346): Setting VF Enable on a port makes virtual functions 1 to NumVFs act as their tenants. -/
  | vfEnableSet (port : Nat) (numVfs : Nat)
  /-- JTAG_INSTRUCTION (R563): An instruction shifted into the TAP takes effect, with EXTEST and CLAMP acting only in EMPTY or on a dead package. -/
  | jtagInstruction (code : Byte)
  /-- OPEN_RETRY (R420): 20 µs after an OPEN was answered with RESET because the acceptor still held the flow, the opener sends the OPEN again. -/
  | openRetry (num : Nat)
  deriving DecidableEq, Repr

end Sys2Proof
end

