-- ==== Sys2Proof/Config.lean ====
section
/-! DEFINITION. Config: what an implementation fixes and the free values. A free value is a constant with no body, applied to
the count of free values drawn so far (`State.freeCount`) or to the operands it depends on; nothing can be proved of it. -/
namespace Sys2Proof

/-- A value the spec leaves open, by the number of the draw (notes list each use). -/
opaque Config.freeValue : Nat → BitVec 64

/-- Entry of a full address translation cache, by the tenants and pages it holds, that makes room for another: the spec does not say which
(16 R353; note 167). -/
opaque Config.atcVictim (held : List (Nat × Nat)) : Nat

/-- Turn of list `l` in the scoring of a centroid pass, by the number of a draw: the spec does not give the order in which a facet scores
its lists (12 R261; note 126). -/
opaque Config.scoringTurn (draw l : Nat) : BitVec 64

/-- Byte `i` of the 504 bytes of LDPC parity over bytes 0 to 4,143 of a codeword: the spec does not give the code (07 R144; note 147). -/
opaque Config.ldpcParity (head : List Byte) (i : Nat) : BitVec 8

/-- Byte at offset `i` of an image, by its metadata and placement, where no segment holds it (15 R340; note 45). -/
opaque Config.gapByte (md block : List Byte) (i : Nat) : BitVec 8

/-- Element `i` of the vector that an encoder image gives for one sequence of token rows, before it is scaled and rounded (11 R236): its
kind (0 finite, 1 NaN, 2 and 3 an infinity), and a finite one's sign, significand and exponent. The spec does not give partition code, only
that the result depends on the image and the rows alone (note 40). -/
opaque Config.encoderElem (image rows : List Byte) (i : Nat) : BitVec 2 × Bool × Nat × Int

/-- Code in format `fmt` of element `i` of a vector that has no unit L2 norm to be scaled to: it is zero, or holds a value that is not finite
(11 R236; note 156). -/
opaque Config.unscaled (image rows : List Byte) (fmt i : Nat) : BitVec 32

/-- FP32 score that a cross-encoder image gives for one token sequence (11 R242; note 40). -/
opaque Config.crossScore (image : List Byte) (tokens : List Nat) : BitVec 32

/-- Byte `i` of the K rows (`part` 0) or V rows (`part` 1) of layer `layer` that a generator image makes of a prompt, from position
`first` on (14 R307; note 40). -/
opaque Config.cacheByte (image : List Byte) (tokens : List Nat) (layer first part i : Nat) : BitVec 8

/-- Byte `i` of the head state that a generator image makes of a prompt (14 R304; note 40). -/
opaque Config.headByte (image : List Byte) (tokens : List Nat) (i : Nat) : BitVec 8

/-- FP32 logit of token `id` that a generator image gives for a sequence's head state, cache blocks and tokens chosen so far
(14 R313, R314; note 40). -/
opaque Config.logit (image head : List Byte) (blocks : List (List Byte)) (chosen : List Nat) (id : Nat) : BitVec 32

end Sys2Proof
end

