-- ==== Sys2Proof/Machine/Bits.lean ====
section
/-! DEFINITION. Bits: bit fields, little-endian byte strings, saturation and two's complement, written once. -/
namespace Sys2Proof.Machine

/-- Field of `n` bits of `w` from bit `lo` up, as a number. -/
def fld {k : Nat} (w : BitVec k) (lo n : Nat) : Nat := (w.toNat / 2 ^ lo) % 2 ^ n

/-- Bit `i` of `w`. -/
def bitOf {k : Nat} (w : BitVec k) (i : Nat) : Bool := w.getLsbD i

/-- Field of `n` bits of a number, from bit `lo` up. -/
def nfld (w lo n : Nat) : Nat := (w / 2 ^ lo) % 2 ^ n

/-- Bit `i` of a number. -/
def nbit (w i : Nat) : Bool := w.testBit i

/-- The word with ones in the `n` bits from `lo` up. -/
def maskW (lo n : Nat) : Word := BitVec.ofNat 32 ((2 ^ n - 1) * 2 ^ lo)

/-- `w` with the `n` bits from `lo` up replaced by the low bits of `v`. -/
def setFld (w : Word) (lo n v : Nat) : Word :=
  (w &&& ~~~(maskW lo n)) ||| BitVec.ofNat 32 ((v % 2 ^ n) * 2 ^ lo)

/-- `w` with bit `i` set to `b`. -/
def setBit {k : Nat} (w : BitVec k) (i : Nat) (b : Bool) : BitVec k :=
  if b then w ||| BitVec.ofNat k (2 ^ i) else w &&& ~~~(BitVec.ofNat k (2 ^ i))

/-- `a + b`, held at `2 ^ n - 1` (every RC count of the F8R saturates). -/
def satAdd (n a b : Nat) : Nat := min (a + b) (2 ^ n - 1)

/-- `w` with the `n`-bit count at `lo` raised by `k`, saturating. -/
def bumpFld (w : Word) (lo n k : Nat) : Word := setFld w lo n (satAdd n (fld w lo n) k)

/-- `w` with the `n`-bit peak at `lo` raised to `v` when `v` is larger (saturating). -/
def peakFld (w : Word) (lo n v : Nat) : Word :=
  setFld w lo n (min (max (fld w lo n) v) (2 ^ n - 1))

/-- Value of a little-endian byte string. -/
def leNat : List Byte → Nat
  | [] => 0
  | b :: bs => b.toNat + 256 * leNat bs

/-- The low `n` bytes of `v`, least significant first. -/
def leBytes : Nat → Nat → List Byte
  | 0, _ => []
  | n + 1, v => BitVec.ofNat 8 v :: leBytes n (v / 256)

/-- `n` bytes of `l` from offset `off` (shorter at the end of `l`). -/
def slice {α : Type} (l : List α) (off n : Nat) : List α := (l.drop off).take n

/-- Little-endian number in `n` bytes of `l` at `off`; bytes past the end count as 0. -/
def rdLe (l : List Byte) (off n : Nat) : Nat := leNat (slice l off n)

/-- Byte at `off` as a number (0 past the end). -/
def rdB (l : List Byte) (off : Nat) : Nat := (l.getD off 0#8).toNat

/-- All of the `n` bytes of `l` at `off` are 0 (bytes past the end count as 0). -/
def zeroAt (l : List Byte) (off n : Nat) : Bool := (slice l off n).all (· == 0#8)

/-- Two's complement value of the low `n` bits of `v`. -/
def sInt (n v : Nat) : Int :=
  let m := v % 2 ^ n
  if m < 2 ^ (n - 1) then (m : Int) else (m : Int) - (2 ^ n : Nat)

/-- Number of ones among the low `n` bits of `v`. -/
def popN : Nat → Nat → Nat
  | 0, _ => 0
  | n + 1, v => (v % 2) + popN n (v / 2)

/-- `v` rounded up to a multiple of `m` (`m` = 0 leaves it). -/
def roundUp (v m : Nat) : Nat := if m = 0 then v else (v + m - 1) / m * m

/-- Replaces element `i` of a list (past the end: unchanged). -/
def setAt {α : Type} (l : List α) (i : Nat) (v : α) : List α := l.set i v

/-- The numbers `lo, lo + 1, …` of which there are `n`. -/
def rangeFrom : Nat → Nat → List Nat
  | _, 0 => []
  | lo, n + 1 => lo :: rangeFrom (lo + 1) n

/-- The numbers below `n`, ascending. -/
def upto (n : Nat) : List Nat := rangeFrom 0 n

/-- Bits of `v` that are set below `n`, ascending. -/
def onesOf (n v : Nat) : List Nat := (upto n).filter (fun i => v.testBit i)

end Sys2Proof.Machine
end

