-- ==== Sys2Proof/Machine/Fp.lean ====
section
/-! DEFINITION. Fp: exact values of the number formats and their rounding, to nearest even (10 R203, R206, R211; 11 R217 to
R226). A finite value is m * 2^e with a sign; every operation is exact until it is rounded. -/
namespace Sys2Proof.Machine

/-- A value: NaN, an infinity, or a finite number (-1)^neg * m * 2^e; m = 0 is a signed zero. -/
inductive Num where
  | nan | inf (neg : Bool) | fin (neg : Bool) (m : Nat) (e : Int)
  deriving DecidableEq, Repr

/-- A floating format: exponent bits, fraction bits, and whether it has infinities (FP8 E4M3 has none). -/
structure Fmt where
  eb : Nat
  mb : Nat
  inf : Bool
  deriving DecidableEq, Repr

/-- FP32. -/
def fp32 : Fmt := ⟨8, 23, true⟩
/-- BF16. -/
def bf16 : Fmt := ⟨8, 7, true⟩
/-- FP8 E4M3. -/
def e4m3 : Fmt := ⟨4, 3, false⟩
/-- FP8 E5M2. -/
def e5m2 : Fmt := ⟨5, 2, true⟩

/-- Format by the code that tables and descriptors use: 0 FP32, 1 BF16, 2 E4M3, 3 E5M2. -/
def fmtOf (c : Nat) : Fmt := match c with | 0 => fp32 | 1 => bf16 | 2 => e4m3 | _ => e5m2

/-- Bytes of an element of a format. -/
def Fmt.bytes (f : Fmt) : Nat := (1 + f.eb + f.mb) / 8

/-- Exponent of the least bit of a subnormal. -/
def Fmt.emin (f : Fmt) : Int := 2 - (2 ^ (f.eb - 1) : Nat) - (f.mb : Int)

/-- Largest finite code, without its sign. -/
def Fmt.maxCode (f : Fmt) : Nat := if f.inf then (2 ^ f.eb - 1) * 2 ^ f.mb - 1 else 2 ^ (f.eb + f.mb) - 2

/-- Code of +infinity, for a format that has it. -/
def Fmt.infCode (f : Fmt) : Nat := (2 ^ f.eb - 1) * 2 ^ f.mb

/-- Quiet NaN with sign 0. -/
def Fmt.nanCode (f : Fmt) : Nat := if f.inf then f.infCode + 2 ^ (f.mb - 1) else 2 ^ (f.eb + f.mb) - 1

/-- Code with a sign. -/
def Fmt.signed (f : Fmt) (neg : Bool) (c : Nat) : Nat := if neg then c + 2 ^ (f.eb + f.mb) else c

/-- The value of a code. -/
def Fmt.decode (f : Fmt) (w : Nat) : Num :=
  let m := w % 2 ^ f.mb
  let e := w / 2 ^ f.mb % 2 ^ f.eb
  let neg := w.testBit (f.eb + f.mb)
  if f.inf ∧ e = 2 ^ f.eb - 1 then (if m = 0 then .inf neg else .nan)
  else if !f.inf ∧ e = 2 ^ f.eb - 1 ∧ m = 2 ^ f.mb - 1 then .nan
  else if e = 0 then .fin neg m f.emin
  else .fin neg (2 ^ f.mb + m) (f.emin + e - 1)

/-- m / 2^k rounded to nearest, ties to even. -/
def rneShift (m k : Nat) : Nat :=
  let q := m / 2 ^ k
  let r := m % 2 ^ k
  if 2 * r > 2 ^ k ∨ (2 * r = 2 ^ k ∧ q % 2 = 1) then q + 1 else q

/-- The code of m * 2^e rounded with an unbounded exponent: it overflows when it exceeds `maxCode` (11 R226). -/
def Fmt.roundCode (f : Fmt) (m : Nat) (e : Int) : Nat :=
  if m = 0 then 0
  else
    let q := max f.emin (e + Nat.log2 m - f.mb)
    let m' := if q ≤ e then m * 2 ^ (e - q).toNat else rneShift m (q - e).toNat
    (q - f.emin).toNat * 2 ^ f.mb + m'

/-- The code of a value rounded under IEEE 754; E4M3 saturates on overflow and writes an infinity as NaN (11 R226). -/
def Fmt.encode (f : Fmt) : Num → Nat
  | .nan => f.nanCode
  | .inf neg => if f.inf then f.signed neg f.infCode else f.nanCode
  | .fin neg m e =>
    let c := f.roundCode m e
    if c ≤ f.maxCode then f.signed neg c
    else if f.inf then f.signed neg f.infCode else f.signed neg f.maxCode

/-- The code of an exact sum, rounded once: an exact zero is +0, a sum that rounds to zero keeps its sign (11 R226). -/
def Fmt.writeSum (f : Fmt) (v : Num) : Nat := match v with | .fin _ 0 _ => 0 | _ => f.encode v

/-- The code of a value as it is written to an output slot: a zero is +0 (10 R203, R206, R211). -/
def Fmt.write (f : Fmt) (v : Num) : Nat :=
  let c := f.encode v
  if c = f.signed true 0 then 0 else c

/-- The code of a value; a finite one that overflows saturates at the largest finite value (10 R211). -/
def Fmt.writeSat (f : Fmt) (v : Num) : Nat :=
  match v with
  | .fin neg m e => if f.maxCode < f.roundCode m e then f.signed neg f.maxCode else f.write v
  | _ => f.write v

/-- A value is zero. -/
def Num.isZero : Num → Bool
  | .fin _ m _ => m == 0
  | _ => false

/-- The value is finite. -/
def Num.isFin : Num → Bool
  | .fin _ _ _ => true
  | _ => false

/-- Signed integer of a finite value at exponent `e0`, which is at most its own. -/
def scaledInt (neg : Bool) (m : Nat) (e e0 : Int) : Int :=
  let v : Int := (m * 2 ^ (e - e0).toNat : Nat)
  if neg then -v else v

/-- Exact sum, with the zero signs of IEEE 754 round to nearest. -/
def Num.add : Num → Num → Num
  | .nan, _ => .nan
  | _, .nan => .nan
  | .inf a, .inf b => if a = b then .inf a else .nan
  | .inf a, _ => .inf a
  | _, .inf b => .inf b
  | .fin a m e, .fin b n g =>
    let lo := min e g
    let v := scaledInt a m e lo + scaledInt b n g lo
    if v = 0 then .fin (a && b && m == 0 && n == 0) 0 lo else .fin (decide (v < 0)) v.natAbs lo

/-- The negation. -/
def Num.neg : Num → Num
  | .nan => .nan
  | .inf a => .inf !a
  | .fin a m e => .fin (!a) m e

/-- Exact product. -/
def Num.mul : Num → Num → Num
  | .nan, _ => .nan
  | _, .nan => .nan
  | .inf a, y => match y with
    | .fin b m _ => if m = 0 then .nan else .inf (a != b)
    | .inf b => .inf (a != b)
    | .nan => .nan
  | x, .inf b => match x with
    | .fin a m _ => if m = 0 then .nan else .inf (a != b)
    | _ => .nan
  | .fin a m e, .fin b n g => .fin (a != b) (m * n) (e + g)

/-- A value rounded to FP32, as IEEE 754 arithmetic leaves it. -/
def Num.round32 (v : Num) : Num := fp32.decode (fp32.encode v)

/-- FP32 addition. -/
def add32 (a b : Num) : Num := (a.add b).round32

/-- FP32 multiplication. -/
def mul32 (a b : Num) : Num := (a.mul b).round32

/-- FP32 division by a positive count: the quotient carries 64 bits and a sticky bit, so it rounds once. -/
def divNat32 (v : Num) (n : Nat) : Num :=
  match v with
  | .fin a m e =>
    let big := m * 2 ^ 64
    (Num.fin a (2 * (big / n) + (if big % n = 0 then 0 else 1)) (e - 65)).round32
  | x => x

/-- Order of finite values and infinities: a < b. NaN compares false. -/
def Num.lt (a b : Num) : Bool :=
  match a, b with
  | .nan, _ => false
  | _, .nan => false
  | .inf x, .inf y => x && !y
  | .inf x, .fin _ _ _ => x
  | .fin _ _ _, .inf y => !y
  | .fin x m e, .fin y n g => let lo := min e g; decide (scaledInt x m e lo < scaledInt y n g lo)

/-- An element of a format at offset `i * bytes` of a byte string. -/
def Fmt.elem (f : Fmt) (l : List Byte) (i : Nat) : Num := f.decode (rdLe l (i * f.bytes) f.bytes)

/-- The first n elements of a byte string. -/
def Fmt.elems (f : Fmt) (l : List Byte) (n : Nat) : List Num := (upto n).map (f.elem l)

/-- A vector written in a format. -/
def Fmt.bytesOf (f : Fmt) (vs : List Num) : List Byte := vs.flatMap (fun v => leBytes f.bytes (f.write v))

end Sys2Proof.Machine
end

