-- ==== Sys2Proof/Machine/KMap.lean ====
section
/-! DEFINITION. KMap: data kept by number, as a list of (key, value) pairs in ONE canonical form, keys strictly rising.
Two readings of it are used. Where every key holds a value (memory, registers), the value of a key not listed is a
default and no listed value equals it (`mapGet`, `mapSet`). Where a key may hold nothing (the request table), a key not
listed holds nothing (`look`, `place`, `remove`). -/
namespace Sys2Proof.Machine

/-- Values kept by number; canonical when the keys rise strictly. -/
abbrev KMap (α : Type) := List (Nat × α)

/-- The value listed at `k`. -/
def look {α : Type} : KMap α → Nat → Option α
  | [], _ => none
  | (a, v) :: m, k => if a = k then some v else look m k

/-- `m` with `v` at `k`. -/
def place {α : Type} : KMap α → Nat → α → KMap α
  | [], k, v => [(k, v)]
  | (a, w) :: m, k, v =>
    if k < a then (k, v) :: (a, w) :: m
    else if k = a then (k, v) :: m
    else (a, w) :: place m k v

/-- `m` with nothing at `k`. -/
def remove {α : Type} (m : KMap α) (k : Nat) : KMap α := m.filter (fun p => p.1 != k)

/-- Keys rise strictly, all from `lo` up. -/
def risingFrom {α : Type} : Nat → KMap α → Bool
  | _, [] => true
  | lo, (a, _) :: m => decide (lo ≤ a) && risingFrom (a + 1) m

/-- Canonical form of a map whose unlisted keys hold nothing. -/
def rising {α : Type} (m : KMap α) : Bool := risingFrom 0 m

/-- The value at `k`, unlisted keys holding `d k`. -/
def mapGet {α : Type} (d : Nat → α) (m : KMap α) (k : Nat) : α := (look m k).getD (d k)

/-- `m` with `v` at `k`; writing the default removes the entry. -/
def mapSet {α : Type} [DecidableEq α] (d : Nat → α) (m : KMap α) (k : Nat) (v : α) : KMap α :=
  if v = d k then remove m k else place m k v

/-- Canonical form of a map whose unlisted keys hold `d`: rising keys, and no entry equal to its default. -/
def mapWf {α : Type} [DecidableEq α] (d : Nat → α) (m : KMap α) : Bool :=
  rising m && m.all (fun p => !decide (p.2 = d p.1))

/-- The listed keys. -/
def keysOf {α : Type} (m : KMap α) : List Nat := m.map (·.1)

/-- Least number below `n` that is not listed. -/
def freeKey {α : Type} (m : KMap α) : Nat → Nat → Option Nat
  | _, 0 => none
  | k, n + 1 => if (look m k).isNone then some k else freeKey m (k + 1) n

end Sys2Proof.Machine
end

