-- ==== Sys2Proof/Machine/State.lean ====
section
/-! DEFINITION. State: every piece of state the spec gives the F8R package, as plain data, and the machine right after
reset. INVENTORY.md lists each piece with its rule and its reset value. Values the spec gives no reset value for are named
in notes/assumptions. -/
namespace Sys2Proof.Machine

/-! ## Package, straps, controllers (02, 23, 25, 26) -/

/-- What manufacture fixes: the fuse map (00 R7, 02 R40), the package serial (16 R349, 25), the stepping (25 ID_REV) and
the version fuses (23 R508). -/
structure Manufacture where
  fuse : DWord
  serial : DWord
  stepping : Byte
  minVersion : BitVec 16
  deriving DecidableEq, Repr

/-- The two facets that carry an Assay controller and a PCIe port. -/
inductive Side where
  | f0 | f4
  deriving DecidableEq, Repr

/-- Causes of a dead package (02 Table - Dead causes). -/
inductive DeadCause where
  | noCrystal | imageRejected | noController | noPair
  deriving DecidableEq, Repr

/-- The pins and references the package sees (23 R504 to R506, 26 R561, R567), and the TAP's instruction register (26 R563). -/
structure Supply where
  powerGood : Bool
  straps : Straps
  refClock : Bool
  crystal : Bool
  strandRef : Bool
  thermtrip : Bool
  tap : Byte
  deriving DecidableEq, Repr

/-- SPI NOR: image copies, boot record and persistent area (23 R507). It survives a package reset. -/
structure Nor where
  preferB : Bool
  retired : List Nat
  badBlocks : List Nat
  gain : Option Nat
  deriving DecidableEq, Repr

/-- The Assay controllers (02 R36 to R39, 23 ASY_MBX_STATUS): active side, dead cause, boot. -/
structure Assay where
  active : Option Side
  takeover : Bool
  dead : Option DeadCause
  ready : Bool
  bootB : Bool
  imageVer : BitVec 16
  updating : Bool
  resetWaits : Bool
  limit40 : Bool
  deriving DecidableEq, Repr

/-! ## Hallmark (23) -/

/-- Hallmark states (23 R514). -/
inductive HmkState where
  | empty | opened | checking | sealed | held
  deriving DecidableEq, Repr

/-- A hallmark check in progress (23 R515, R516): the generation it was started with, whether it is per-tenant, and the
fence words of the eight facets as they stood at its start, with HMK_CRC of that moment. -/
structure HmkCheck where
  gen : BitVec 16
  crc : Word
  perTenant : Bool
  fenceA : List Word
  fenceB : List Word
  deriving DecidableEq, Repr

/-- The hallmark (23 R511 to R524). `written` lists the required sealed registers written since the last package reset or
global re-open (R516, MISSING); `reopen` bit t - 1 is tenant t (R522). `quiesced`: HELD with EJECTED, which only a seal leaves (22 R498). -/
structure Hallmark where
  state : HmkState
  draining : Bool
  reason : Nat
  genLast : BitVec 16
  reopen : DWord
  check : Option HmkCheck
  written : List Nat
  quiesced : Bool
  deriving DecidableEq, Repr

/-! ## Clocks, fabric (03, 04) -/

/-- The package clocks (03 R63, R67): PLL lock, the grain count, and the power-loop grant of each partition's PCLK code. -/
structure Clocks where
  locked : Bool
  grains : DWord
  grant : KMap Nat
  deriving DecidableEq, Repr

/-- A schedule load on one facet (04 R87 to R89): the frame it resolved (none: late), and the blob once accepted. -/
structure SchedLoad where
  frame : Option Nat
  blob : Option (List Byte)
  deriving DecidableEq, Repr

/-- A scheduled flit in an injection buffer, with its flow's tenant and destination as the schedule that it was written under
gives them (04 R82, R84). -/
structure QueuedFlit where
  flit : SchedFlit
  tenant : Nat
  dstFacet : Nat
  dstPort : Nat
  deriving DecidableEq, Repr

/-- The fabric schedule: loads per facet, the blob in force on each facet that keeps one, and the fabric-side injection buffers by
64 * facet + source port: the scheduled flits that wait for their slots, oldest first (04 R85 to R93); and whether a CLEAR waits for the
end of the frame. -/
structure Fabric where
  loads : KMap SchedLoad
  active : KMap (List Byte)
  inject : KMap (List QueuedFlit)
  ending : Bool
  deriving DecidableEq, Repr

/-! ## Line ownership (05) -/

/-- Directory entry of a line at its home (05 R95). -/
inductive Dir where
  | invalid | shared (sharers : DWord) | owned (part : Nat)
  deriving DecidableEq, Repr

/-- State of a line in a data cache (05 R95); a line not listed is I. -/
inductive CacheState where
  | modified | exclusive | shared
  deriving DecidableEq, Repr

/-- One 128-byte line held by a cache, with the origin of its poison, and its 64-bit words that have been written whole since the poison came
(05, 08 R168, R169). -/
structure Held where
  state : CacheState
  data : List Byte
  poison : Option Origin
  fresh : List Nat
  deriving DecidableEq, Repr

/-- A miss register (05 R97): the line and the store it will perform on a grant (05 R99). -/
structure Miss where
  line : Nat
  store : Option (Nat × List Byte)
  deriving DecidableEq, Repr

/-- A writeback buffer entry (05 R105); `age` orders the entries of one buffer, the youngest highest. -/
structure WbEntry where
  line : Nat
  data : List Byte
  poison : Option Origin
  age : Nat
  deriving DecidableEq, Repr

/-- One partition's data cache (05 Model, R97). -/
structure Cache where
  lines : KMap Held
  misses : KMap Miss
  wbs : KMap WbEntry
  deriving DecidableEq, Repr

/-- Who asks a home for a line (05 R98, R108 to R110): a cache, or an I/O agent's read or write, one line of a near
store fill or drain, or the bytes that an engine wrote for a tenant while the line was in a transaction. -/
inductive LineReq where
  | rdS (tid : Tid) | rdO (tid : Tid) | upg (tid : Tid)
  | io (id tenant : Nat) (op : IoOp)
  | nsFill (part near : Nat)
  | nsDrain (part near : Nat)
  | post (tenant off : Nat) (data : List Byte)
  deriving DecidableEq, Repr

/-- The transaction in progress on a line (05 R101): the request, the partitions whose answers it awaits, the
owner that keeps the line in S, and the line as an owner supplied it. -/
structure LineTxn where
  req : LineReq
  await : List Nat
  keeps : Option Nat
  supplied : Option (List Byte × Option Origin)
  deriving DecidableEq, Repr

/-- Coherence messages sent and not yet delivered (05 Table - Coherence messages). Every one carries a TID; FWD_DATA from a writeback
buffer carries that entry's number too. -/
inductive CohMsg where
  | grant (kind : GrantKind) (line : Nat) (tid : Tid) (data : List Byte) (poison : Option Origin)
  | fwdS (line : Nat) (owner : Nat) (tid : Tid)
  | fwdO (line : Nat) (owner : Nat) (tid : Tid)
  | inv (line : Nat) (part : Nat) (tid : Tid)
  | wbAck (line : Nat) (tid : Tid)
  | fwdData (line : Nat) (sender : Nat) (tid : Tid) (data : List Byte) (poison : Option Origin) (wbb : Option Nat)
  | ackInv (line : Nat) (sender : Nat) (tid : Tid)
  deriving DecidableEq, Repr

/-- Coherence: directories, transactions and queues by line number, caches by partition, records of R106 as
(partition * 256 + entry, line), messages under way, I/O results, partitions waiting on a fence
instruction, fences completed by partition, failed accesses of partition code by partition and failed I/O accesses, and the lines of
near-store transfers and posted writes that wait for a credit of their home (05 R94 to R111). -/
structure Coherence where
  dir : KMap Dir
  txn : KMap LineTxn
  queue : KMap (List LineReq)
  caches : KMap Cache
  stale : List (Nat × Nat)
  consumed : List (Nat × Nat)
  net : List CohMsg
  ioDone : List (Nat × List Byte × Option Origin)
  fencing : List Nat
  fenced : KMap Nat
  nsFaults : List (Nat × Status)
  ioFaults : List (Nat × Status)
  waits : List (Nat × LineReq)
  deriving DecidableEq, Repr

/-! ## Memory (06) -/

/-- A DRAM row: an HBM row of a facet, or a 2 KiB row of an LPDDR channel (06 R124). -/
structure RowId where
  hbm : Bool
  unit : Nat
  row : Nat
  deriving DecidableEq, Repr

/-- Memory beside its registers: the bytes of device memory, stored poison by granule base (08 R169), granules whose
cells hold an error the code detects but cannot correct (06 R122), granules whose cells hold an error that every read corrects, with
their HBM row (06 R122, R124), corrections per row
since reset, rows being copied, rows redirected or repaired, and the evaluations of the last 1 ms of each grant
(06 R133), the LPDDR channels live at the end of self test by facet (06 R120), and the grain count of each facet's last
POISON_SET (08 R174). -/
structure Memory where
  bytes : KMap Byte
  poison : KMap Origin
  broken : List Nat
  weak : KMap Nat
  rowHits : KMap Nat
  copying : List RowId
  retired : List RowId
  history : KMap (List Nat)
  lastResv : KMap Word
  liveCh : KMap Nat
  lastPoisonEvent : KMap Nat
  deriving DecidableEq, Repr

/-! ## Flash (07) -/

/-- An extent read asked of the flash controllers (07 R147 to R153): the request that reads, its class, the extent, its block
and present codeword (counted through the block), the offset in it, the bytes left, the read-retry level and whether soft
reads are under way (0 no, 1 the first, 2 the second), the command it waits for, and its tenant; what was delivered, which byte ranges of that are
poisoned and by what, and the last flit a poisoning counted. A flash job's read has a reader above 65,536. -/
structure ExtentRead where
  reader : Nat
  cls : NandClass
  tenant : Nat
  waits : Nat
  extent : List Byte
  block : Nat
  cw : Nat
  off : Nat
  left : Nat
  level : Nat
  soft : Nat
  data : List Byte
  bad : List (Nat × Nat × Origin)
  badFlit : Option Nat
  deriving DecidableEq, Repr

/-- An extent read that has ended: its bytes with the ranges poisoned, or the status that failed it (07 R148, R149). -/
structure FlashDone where
  reader : Nat
  extent : List Byte
  data : List Byte
  bad : List (Nat × Nat × Origin)
  fail : Option Status
  deriving DecidableEq, Repr

/-- An array operation on one plane (07 R151, R154): pages are numbered by FCA / 1,024, blocks by FCA / 2^22; `side` is 0 for a read at the level
itself, 1 and 2 for the soft reads at the levels on either side of it. -/
inductive NandOp where
  | read (page level side : Nat) | program (page : Nat) | erase (block : Nat)
  deriving DecidableEq, Repr

/-- A NAND command (07 R154 to R157): its number, its tenant, and what a program writes. -/
structure NandCmd where
  num : Nat
  op : NandOp
  cls : NandClass
  tenant : Nat
  data : List Byte
  deriving DecidableEq, Repr

/-- The array operation in flight on a LUN (07 R154): its parts, more than one in a multi-plane operation; `retried` once its target was
reset (07 R142), `done` once a page read may transfer. -/
structure NandFlight where
  parts : List NandCmd
  retried : Bool
  done : Bool
  deriving DecidableEq, Repr

/-- What the controller keeps of a target's parameter page (07 R140, R141, R151): the read-retry levels it declares, the bus timing
in OCLK cycles (tCCS, tADL, tWB, tWHR, tRHW), and for a read, a program and an erase the typical time, at which polling starts, and the
timeout, in ns. -/
structure NandTarget where
  retries : Nat
  cycles : List Nat
  typical : List Nat
  timeout : List Nat
  deriving DecidableEq, Repr

/-- What an entry of a flash job is doing (07 R159): it waits for its list entry; its updates are under way; it reads pages for the host
address; it scans the pages still listed, with what their defect marks will show, for the host address and the first block; or its bytes
wait for the host address. -/
inductive JobWork where
  | fetch | updates | reading (host : Nat) | scan (left : List Nat) (marks : List Bool) (host block : Nat)
  | write (host : Nat) (data : List Byte)
  deriving DecidableEq, Repr

/-- A flash job on a facet (07 R158 to R162): the port whose function started it, its list, the entry under way and what it is doing, the
reason that stops the job once its issued operations have ended (0 none), and whether the entry has operations that will not run. -/
structure FlashJob where
  port : Nat
  addr : Nat
  count : Nat
  entry : Nat
  work : JobWork
  after : Nat
  cut : Bool
  deriving DecidableEq, Repr

/-- What a page written since manufacture holds: programmed data, or undefined data (07 R160). -/
inductive PageData where
  | data (d : List Byte) | undef
  deriving DecidableEq, Repr

/-- The flash controllers: extent reads by number and ended ones, waiting commands and the command in flight by LUN number
(32 * channel + 4 * chip enable + LUN), pages programmed by number, blocks erased since manufacture, blocks refused while the
bad-block list is full (07 R161), jobs by facet, what is kept of each target's parameter page by target number (8 * channel + chip enable),
the read-retry level that a LUN is set to as 3 * level + side (R151), the number of the next command, and the rate caps in force by facet
(FLS_RATE_X as it stood at the last package reset). -/
structure Flash where
  reads : KMap ExtentRead
  finished : List FlashDone
  waiting : KMap (List NandCmd)
  inFlight : KMap NandFlight
  pages : KMap PageData
  erased : List Nat
  refused : List Nat
  jobs : KMap FlashJob
  targets : KMap NandTarget
  level : KMap Nat
  nextCmd : Nat
  caps : KMap Nat
  deriving DecidableEq, Repr

/-! ## Host attach, rings, events (16, 17, 24) -/

/-- One read of host memory (16 R343): the function it is made under, by its tenant number, the request it is made for by its tag (65,536
for a read of the function's own: lines, ring entries, blobs and lists), and its range. -/
structure HostAsk where
  tenant : Nat
  tag : Nat
  addr : Nat
  len : Nat
  deriving DecidableEq, Repr

/-- An ATS Invalidate Request that waits (16 R354): its function's tenant number, its name, and the reads whose completions it waits for. -/
structure Inval where
  tenant : Nat
  id : Nat
  left : List HostAsk
  deriving DecidableEq, Repr

/-- One PCIe port (16 R341 to R360). `cameDown` is set by an event of R359 until the link is up again; `reads` are outstanding, `held` wait. -/
structure Port where
  up : Bool
  flit : Bool
  width : Nat
  speed : Nat
  perst : Bool
  cameDown : Bool
  config : PortConfig
  vfEnable : Bool
  numVfs : Nat
  reads : List HostAsk
  held : List HostAsk
  invals : List Inval
  deriving DecidableEq, Repr

/-- A translation that a port's address translation cache holds (16 R353): the function by its tenant number, and the 4 KiB page. -/
structure Cached where
  tenant : Nat
  page : Nat
  deriving DecidableEq, Repr

/-- One MSI-X vector (16 R355): address and data of the message, mask and pending bits. -/
structure Vec where
  addr : DWord
  data : Word
  masked : Bool
  pba : Bool
  deriving DecidableEq, Repr

/-- A function's PCIe state beside its ring set-up (16 R346 to R356). -/
structure Func where
  d3hot : Bool
  vecs : KMap Vec
  deriving DecidableEq, Repr

/-- Reasons of RNG_SQ_STATE.FAULT (17). -/
inductive RingFault where
  | none | config | overrun | backward
  deriving DecidableEq, Repr

/-- Run-time state of a submission ring (17 R363, R368): fetch index, last producer index taken, fault, and a format B
descriptor held until its extension is read. -/
structure SubRing where
  fetch : Word
  prec : Word
  fault : RingFault
  heldDesc : Option (List Byte × Bool)
  deriving DecidableEq, Repr

/-- Run-time state of a completion ring (17 R381 to R383). -/
structure CompRing where
  posted : Nat
  owed : Nat
  head : Nat
  unsignalled : Nat
  timer : Bool
  deriving DecidableEq, Repr

/-- Run-time state of a doorbell line (17 R364): the interval in quarter microseconds. -/
structure DoorLine where
  interval : Nat
  polling : Bool
  deriving DecidableEq, Repr

/-- An event before it is written (24 R531, R532). -/
structure Event where
  severity : Nat
  number : Nat
  seq : Nat
  time : Nat
  block : Nat
  facet : Nat
  tenant : Nat
  detail : Nat
  deriving DecidableEq, Repr

/-- Run-time state of an event ring (24 R533 to R538). LOST survives an FLR. `waits` holds the events that wait,
oldest first, because their function is in D3hot (16 R350). -/
structure EvtRing where
  posted : Nat
  head : Nat
  lost : Nat
  firstLost : Nat
  unsignalled : Nat
  timer : Bool
  waits : List Event
  deriving DecidableEq, Repr

/-- Ring sets, event rings and event counters. Rings are numbered ((port * 65 + tenant) * 32 + ring), lines
((port * 65 + tenant) * 4 + line), functions (port * 65 + tenant), event targets by tenant number. -/
structure Rings where
  sqs : KMap SubRing
  cqs : KMap CompRing
  lines : KMap DoorLine
  evts : KMap EvtRing
  seqs : KMap Nat
  heldEvents : List Event
  deriving DecidableEq, Repr

/-! ## Requests (01, 17) -/

/-- A piece of host memory that a request's reads returned (08 R166, R173; 16 R353). -/
structure HostPiece where
  addr : Nat
  data : List Byte
  status : ReadStatus
  deriving DecidableEq, Repr

/-- A name a request resolved (18 R396): which table the slot is of, and its number. -/
inductive SlotName where
  | vocab (n : Nat) | grammar (n : Nat) | index (n : Nat) | template (n : Nat) | troy (n gen : Nat)
  deriving DecidableEq, Repr

/-- Where a request came from (17 R384): a ring entry, or a peer package's shard query or weight fetch. -/
inductive Source where
  | ring (fn : FnId) (ring : Nat) (index : Word) (cq : Nat) (log2 : Nat)
  | peer (flow : Nat)
  deriving DecidableEq, Repr

/-- A FENCE in force (17 R376): its bounds, one per ring in scope, as (ring number, first index not awaited), and whether
its body has been judged. -/
structure FenceHold where
  bounds : List (Nat × Word)
  judged : Bool
  deriving DecidableEq, Repr

/-- A candidate entry (11 R238): FP32 score as its bits, SOURCE and passage ID. -/
structure Entry where
  score : Nat
  src : Nat
  id : Nat
  deriving DecidableEq, Repr

/-- A candidate slot in use (12 R263, R264): its facet, its passage, and the extents read for it. -/
structure CandSlot where
  facet : Nat
  id : Nat
  reads : List (List Byte)
  deriving DecidableEq, Repr

/-- A PIPELINE's progress (01 R16 to R28): its plan and input as read, the stage under way, the status codes of stages, which
ran, result-header values, what stages hand over (tokens, token rows, query vector, candidates, packed prompt), the last
stage's output in pieces by offset with its length, the end of a stage that runs in steps of its own, the grain counts at which the stage
under way had its first input, selection its first scores, and the scan its last (R27), the candidate slots, and each facet's leading
candidates once the scan has ended (12 R263). -/
structure Pipeline where
  plan : List Byte
  input : List Byte
  first : Nat
  last : Nat
  next : Nat
  statuses : List Nat
  run : Nat
  candidates : Nat
  grains : List Nat
  passages : Nat
  packed : Nat
  vocTag : Nat
  toks : List Nat
  rows : List Byte
  query : List Byte
  qfmt : Nat
  cands : List Entry
  prompt : List Nat
  out : List (Nat × List Byte)
  outLen : Nat
  done : Option (List Nat × Status)
  began : Nat
  streams : Option Nat
  scanned : Option Nat
  slots : List CandSlot
  leads : Option (List (Nat × Nat))
  deriving DecidableEq, Repr

/-- A request in flight (17 R369 to R386): tag table entry. `expert` is the TEN_EXPERT mask at fetch (18 R399), `groups`
the tenant's group masks at fetch (14 R293), `fetched` the grain count at fetch (14 R307);
`late` marks an owner's request fetched during a drain or while not SEALED
(17 R389, 23 R519); `attached` is set once a DECODE_ATTACH has attached its pool; `judged` holds the refusal that the slot's state gave an
UNLOAD or a SWAP at its fetch (15 Corners). -/
structure Request where
  source : Source
  tenant : Nat
  user : DWord
  noIrq : Bool
  opcode : Nat
  body : List Byte
  bodyStatus : ReadStatus
  ext : Option (List Byte)
  poisoned : Bool
  headFault : Option Status
  expert : Nat
  groups : List DWord
  fetched : Nat
  started : Bool
  late : Bool
  attached : Bool
  judged : Option Status
  hostIn : List HostPiece
  tag : Nat
  names : List SlotName
  fence : Option FenceHold
  pipe : Option Pipeline
  deriving DecidableEq, Repr

/-! ## Tenants (18) -/

/-- A region clear in progress (18 R406). -/
structure Clear where
  tenant : Nat
  region : Nat
  deriving DecidableEq, Repr

/-! ## What leaves the package -/

/-- What the TAP's instruction does (26 R563). -/
inductive TapAct where
  | extest | idcode (value : Word) | sample | clamp | highz | bypass
  deriving DecidableEq, Repr

/-- Commands to a target beside its array operations (07 R139, R140, R151): set-up at self test, each interface with its code of Table - Interface
rates, the long ZQ calibration, and a read-retry level with its side. -/
inductive NandSetup where
  | reset | readId | parameterPage | driveStrength | odt | interface (code : Nat) | dqTraining (code : Nat) | zqLong
  | retryLevel (level side : Nat)
  deriving DecidableEq, Repr

/-- Commands to the SPI NOR (23 R507). -/
inductive NorCmd where
  | readId | readSfdp | fastRead | writeEnable | readStatus | pageProgram | sectorErase
  deriving DecidableEq, Repr

/-- Outputs, in the order they were sent. Host memory requests carry their function's PASID when it is enabled (16 R352). -/
inductive Out where
  | hostWrite (fn : FnId) (pasid : Option Nat) (addr : Nat) (data : List Byte)
  | hostRead (fn : FnId) (pasid : Option Nat) (addr len : Nat)
  | translate (fn : FnId) (pasid : Option Nat) (page : Nat)
  | msix (fn : FnId) (vector : Nat)
  | regValue (fn : FnId) (bar off : Nat) (value : Word)
  | atsAnswer (fn : FnId) (id : Nat)
  | flrDone (fn : FnId)
  | enumOut (level : Bool)
  | thermtrip
  | heartbeat
  | nor (cmds : List NorCmd) (base len : Nat)
  | nand (lun : Nat) (ops : List NandOp)
  | nandSetup (target : Nat) (what : NandSetup)
  | nandStatus (lun : Nat) (enhanced : Bool)
  | nandColumn (lun fca : Nat)
  | nandReset (lun : Nat)
  | zq (lun : Nat)
  | lldp (lane : Nat) (frame : List Byte)
  | strand (lane : Nat) (frame : List Byte)
  | train (lane : Nat) (only100 : Bool)
  | chainFrame (ident : Nat) (serial : Option Nat) (code : Nat) (payload : List Byte) (crc : BitVec 24) (ook : List Bool)
      (offsets : List Int)
  | chainAck
  | character (b : Byte)
  | tap (act : TapAct) (bits : Nat)
  deriving DecidableEq, Repr

/-! ## Power (22) -/

/-- Power beside its registers (22 R489): the brake as taken, and the brake set the loop last computed: codes by partition, memory
power factor and engine duty by facet. -/
structure Power where
  brake : Bool
  brakeCodes : KMap Nat
  brakeP : KMap Nat
  brakeDuty : KMap Nat
  deriving DecidableEq, Repr


/-! ## Slots and loads (09, 12, 14, 15) -/

/-- A loaded vocabulary (09 R179 to R181, R186): where its blob lies, its size and tag, an accepted UNLOAD, and the hot nodes preloaded into the
token units, with their offset in the blob. -/
structure VocSlot where
  dest : Nat
  len : Nat
  size : Nat
  tag : Nat
  unloading : Bool
  hotAt : Nat
  hot : List Byte
  deriving DecidableEq, Repr

/-- A loaded grammar (09 R194, R195). -/
structure GrmSlot where
  dest : Nat
  len : Nat
  bind : Nat
  states : Nat
  unloading : Bool
  deriving DecidableEq, Repr

/-- A load in progress of a loader block (09 R180, 12 R246): kind, slot, grammar binding, destination, host address and
length as its registers stood at LOAD. -/
structure LoadJob where
  kind : Nat
  slot : Nat
  bind : Nat
  dest : Nat
  host : Nat
  len : Nat
  deriving DecidableEq, Repr


/-! ## Gather (10) -/

/-- A table record. -/
structure Table where
  kind : Nat
  elem : Nat
  combine : Nat
  dim : Nat
  dimT : Nat
  logical : Nat
  rows : Nat
  base : Nat
  stride : Nat
  salt : Nat
  tBase : Nat
  tStride : Nat
  hotCount : Nat
  hotList : Nat
  hotOff : Nat
  deriving DecidableEq, Repr

/-- What a GATHER reads before its rows. -/
structure GatherIn where
  table : Table
  hot : List Nat
  idx : List Nat
  starts : List Nat
  weights : List Num
  facet : Nat
  deriving DecidableEq, Repr

/-- A row read of a GATHER (10 R208, R209): the row's address and bytes, and what it held when its first data came. -/
structure RowRead where
  addr : Nat
  len : Nat
  got : Option (List Byte × Option Origin)
  deriving DecidableEq, Repr

/-- A GATHER in progress: what it read before its rows, requests of at most 4,096 bytes waiting and outstanding, and its rows. -/
structure GatherJob where
  input : GatherIn
  queue : List (Nat × Nat)
  flying : List (Nat × Nat)
  rows : List RowRead
  deriving DecidableEq, Repr


/-! ## Search and selection (12, 13) -/

/-- A SELECT whose shares are selected and not yet merged (13 R285): the units, the row, K and compactions. -/
structure SelectJob where
  units : List Nat
  row : List Entry
  compactions : Nat
  deriving DecidableEq, Repr

/-- A loaded index (12 R246): its blob, kept in the slot, and an accepted UNLOAD. -/
structure IdxSlot where
  blob : List Byte
  unloading : Bool
  deriving DecidableEq, Repr

/-- What a search was asked (12 R274, R275): the query, its format, lists to probe, entries to keep, bitmap, predicate,
widening, and the scratch areas of the facets. -/
structure SearchQ where
  slot : Nat
  query : List Byte
  fmt : Nat
  nprobe : Nat
  k : Nat
  bitmap : Option Nat
  pred : Option (List Byte)
  widen : Nat
  scratch : List (Nat × Nat)
  deriving DecidableEq, Repr

/-- A peer shard of a search (12 R270 to R273): its number, package and flow; what came back: entries, or a status that
refused or failed it, or nothing. -/
structure Shard where
  num : Nat
  pkg : Nat
  flow : Nat
  entries : Option (List Entry)
  bad : Option Nat
  deriving DecidableEq, Repr

/-- A cold stripe in a facet's list buffer (12 R262): its facet, its list and where it lies. -/
structure ListCopy where
  facet : Nat
  list : Nat
  addr : Nat
  deriving DecidableEq, Repr

/-- A search in progress: the lists chosen once the facets have exchanged (12 R254), the list-buffer copies and those in flight at the
list choice as (facet, list), the draw that orders the scoring, shard 0's entries once its scan ended, whether it was widened, and its
peers. -/
structure SearchJob where
  q : SearchQ
  lists : Option (List Nat)
  copies : List ListCopy
  flying : List (Nat × Nat)
  order : Nat
  entries : Option (List Entry)
  widened : Bool
  shards : List Shard
  expired : Bool
  deriving DecidableEq, Repr



/-! ## Cable plan and strand transport (19, 22) -/

/-- The cable plan (22 R478 to R481): the blob staged by the last LOAD that was accepted, and the plan in force. -/
structure Plan where
  staged : Option (List Byte)
  inForce : Option (List Byte)
  deriving DecidableEq, Repr

/-- What a flow serves: a prefill's shipment by request, a pool's reception, a search's peer shard by request and shard
number, a shard query served for a peer by its own request, a weight load by troy slot, a weight source, or a flow whose
first message has not been admitted yet. -/
inductive FlowUse where
  | prefill (tag : Nat) | pool (pool seq : Nat) | shardOut (tag num : Nat) | shardIn (tag : Nat) | load (slot : Nat)
  | serve (slot gen : Nat) | fresh
  deriving DecidableEq, Repr

/-- A frame of a flow (19 R416, R422): its TYPE, whether it begins and ends a message, its payload. -/
structure FlowFrame where
  typ : Nat
  first : Bool
  last : Bool
  payload : List Byte
  deriving DecidableEq, Repr

/-- A frame sent and not yet acknowledged, whether SACK has marked it, and its timeouts in a row without progress from the
peer (19 R422, R424). -/
structure SentFrame where
  frame : FlowFrame
  sacked : Bool
  timeouts : Nat
  deriving DecidableEq, Repr

/-- A flow (19 R420 to R426). `mine`: this package opened it. `queue` holds frames not yet sent, `sent` those outstanding by
SEQ, `una` the latest cumulative acknowledgement held, `expect` the next SEQ wanted, `early` the out-of-order frames,
`part` the message being assembled. `retry`: an OPEN was answered with RESET and is to be sent again. `works`: the peer waits
for work of this package (R427). -/
structure Flow where
  mine : Bool
  peer : Nat
  num : Nat
  kind : Nat
  use : FlowUse
  pair : Nat
  alt : Nat
  accepted : Bool
  retry : Bool
  queue : List FlowFrame
  sent : KMap SentFrame
  next : Nat
  una : Nat
  finSent : Bool
  expect : Nat
  early : KMap FlowFrame
  part : List Byte
  inMsg : Bool
  finGot : Bool
  ackOwed : Bool
  works : Bool
  openCrc : Nat
  deriving DecidableEq, Repr

/-- An open that waits for a free flow number (19 R421). -/
structure WaitingOpen where
  peer : Nat
  kind : Nat
  use : FlowUse
  msg : List Byte
  deriving DecidableEq, Repr

/-- Turns of a lane pair (19 R425): the flows of class 1, 2 and 3 served last, and class 2 frames sent in a row while class 3 waits. -/
structure Turn where
  shard : Nat
  ship : Nat
  weight : Nat
  run : Nat
  deriving DecidableEq, Repr

/-- The strand transport: flows by number (one that this package opened by FLOW, one it accepted by 4,096 * (1 + peer) + FLOW),
opens that wait for a number, OPEN frames held unanswered (19 R421), and queries and
fetches of peers that wait for a request tag, as (flow, message) (17 R384), and the turns of lane pairs (R425). -/
structure Strand where
  flows : KMap Flow
  waiting : List WaitingOpen
  heldOpens : List (Nat × List Byte)
  tagWaits : List (Nat × List Byte)
  turns : KMap Turn
  deriving DecidableEq, Repr



/-! ## Troy images (15) -/

/-- A loaded image (15 R321, R325): its metadata and the load block that placed it. -/
structure Image where
  md : List Byte
  block : List Byte
  deriving DecidableEq, Repr

/-- State of a troy slot (15 R318). -/
inductive TroyState where
  | empty | loading | ready | lost
  deriving DecidableEq, Repr

/-- What a LOAD_WEIGHTS does to its slot (15 R334). -/
inductive TroyMode where
  | load | swap | inPlace
  deriving DecidableEq, Repr

/-- A load in progress (15 R324 to R328): the request, the load block, the source in use, the sources that failed with the
first failure's status, the metadata accepted and whether the present source's has been compared with it, segments complete, segments asked of
a peer, the bandwidth need, whether an in-place swap waits for old requests, the peer flow, and the bytes that came from a peer. -/
structure TroyLoad where
  tag : Nat
  mode : TroyMode
  block : List Byte
  src : Nat
  failed : Nat
  firstStatus : Nat
  metaOk : Option (List Byte)
  compared : Bool
  done : List Nat
  asked : List Nat
  need : Nat
  waiting : Bool
  flow : Option Nat
  pieces : List HostPiece
  deriving DecidableEq, Repr

/-- A troy slot (15 R318, R334, R337): its image and the number of images it has had, earlier images that requests still use, a
load in progress, a SWAP that has been fetched and not begun, and an UNLOAD or a switched SWAP that waits for such requests. -/
structure TroySlot where
  state : TroyState
  image : Option Image
  gen : Nat
  olds : List (Nat × Image)
  load : Option TroyLoad
  claim : Option Nat
  unload : Option Nat
  swapWait : Option (Nat × Nat × List Nat)
  deriving DecidableEq, Repr

/-- A template slot (14 R296). -/
structure TplSlot where
  dest : Nat
  len : Nat
  unloading : Bool
  deriving DecidableEq, Repr

/-! ## Matrix work, prefill, decode pools (11, 14) -/

/-- A range of an output tile (11 R228): row chunk, N slice, and the weight tiles along K it covers. -/
structure OutTile where
  chunk : Nat
  slice : Nat
  kFrom : Nat
  kTo : Nat
  deriving DecidableEq, Repr

/-- An output tile in progress on an array (11 R228): the next weight tile, and the exact sums so far, one list per row. -/
structure TileWork where
  tile : OutTile
  next : Nat
  acc : List (List Num)
  deriving DecidableEq, Repr

/-- A running matrix operation (11 R228): the array it is pinned to (R235), the dispatcher's queue, the arrays' tiles in progress by partition, the summed partials of
split tiles with the weight tiles they cover, and the output codes of the finished tiles, by chunk and slice. -/
structure MatrixRun where
  op : MatrixOp
  pin : Option Nat
  queue : List OutTile
  busy : KMap TileWork
  parts : List ((Nat × Nat) × Nat × List (List Num))
  outs : List ((Nat × Nat) × List (List Nat))
  deriving DecidableEq, Repr

/-- Matrix work of a request (11 R229 to R234, R244): its counts; units copied into the window, layers done and the unit that computes (15
R331), units whose bytes in the window are bad, with the status (15 R338); and the operation its arrays run. -/
structure MtxJob where
  flushed : Nat
  unchecked : Nat
  recomputes : Nat
  moved : Nat
  range : Nat
  units : Nat
  layers : Nat
  unitAt : Nat
  windowBad : List (Nat × Status)
  run : Option MatrixRun
  deriving DecidableEq, Repr

/-- Where a prefill's blocks go (14 R308, R309; 01 R31): device memory, a flow, or a pool of this package. -/
inductive PrefillTo where
  | memory | flow (k : Nat) | waits | pool (pool seq : Nat)
  deriving DecidableEq, Repr

/-- A prefill in progress (14 R303 to R309): its tokens, image, SEQ_ID and target, blocks waiting for the pool to accept, blocks
made, and bytes written to memory. -/
structure PrefillJob where
  tokens : List Nat
  image : Image
  seqId : Nat
  target : PrefillTo
  accepted : Bool
  waiting : List (List Byte)
  blocks : Nat
  written : Nat
  ended : Bool
  deriving DecidableEq, Repr

/-- State of a sequence of a pool (14 R312, R313). -/
inductive SeqState where
  | waiting | receiving | running
  deriving DecidableEq, Repr

/-- A sequence of a decode pool (14 R311 to R317): where it comes from (a flow, or a request of this package), its parameter
block and prompt length, its cache blocks and head state, the grammar automaton, the tokens chosen, detokenizer and text
state, mask state, and why it stops. -/
structure Seq where
  flow : Option Nat
  local_ : Option Nat
  state : SeqState
  id : Nat
  params : List Byte
  inTokens : Nat
  blocks : List (List Byte)
  head : Option (List Byte)
  autoState : Nat
  autoStack : List Nat
  chosen : List Nat
  held : List Byte
  pend : List Byte
  maskReady : Bool
  maskWaits : Bool
  maskLate : Nat
  stalled : Bool
  stop : Option (Nat × Status)
  deriving DecidableEq, Repr

/-- A decode pool (14 R310): the request that attached it, its number, group, image, text ring, cache region and limits, bytes
written to the text ring and consumed from it, a detach that has been fetched and one under way, and its sequences in arrival order. -/
structure Pool where
  tenant : Nat
  id : Nat
  group : DWord
  slot : Nat
  gen : Nat
  image : Image
  textAddr : Nat
  headAddr : Nat
  textLog2 : Nat
  kvAddr : Nat
  kvUnits : Nat
  acceptPkg : DWord
  maxSeq : Nat
  chunkBytes : Nat
  chunkUs : Nat
  admitMs : Nat
  written : Nat
  consumed : Nat
  closing : Bool
  leaving : Option Nat
  detach : Option Nat
  seqs : KMap Seq
  deriving DecidableEq, Repr



/-! ## Chain bus (20, 21) -/

/-- What a pending Chain frame is (21 R461, R467, R472; 22 R496): an owner frame by transmit buffer, a CLAIM, or a DEPART by stage. -/
inductive ChainUse where
  | owner (buf : Nat) | claim | depart (stage : Nat)
  deriving DecidableEq, Repr

/-- A pending Chain frame (21 R460 to R463): attempts made, attempts in a row that won and went unacknowledged, whether
CHAIN_TX_STALL was sent for it, and whether it goes once the attempt under way fails. -/
structure ChainPending where
  use : ChainUse
  tries : Nat
  unacked : Nat
  stalled : Bool
  drop : Bool
  deriving DecidableEq, Repr

/-- The Chain tap beside its registers: a gain code that waits for idle and whether it is then saved (20 R442), the character FIFOs (R445, R450; received ones with
FE), frames pending in order and the one being sent, whether traffic has been followed to the end of a frame (R444), whether the
frame receiver waits for the 24-bit idle, whether that idle holds, whether an ENUM_START is obeyed and a CLAIM has succeeded (21 R467),
and the last CAP accepted (22 R486). -/
structure Chain where
  gain : Option (Nat × Bool)
  rx : List (Bool × Byte)
  tx : List Byte
  queue : List ChainPending
  sending : Option ChainUse
  follows : Bool
  lost : Bool
  idle : Bool
  claiming : Bool
  claimWait : Bool
  lastCap : Option (List Byte)
  deriving DecidableEq, Repr
/-! ## The package -/

/-- The state of one F8R package. -/
structure State where
  /-- Commands waiting, first in first out. -/
  pending : List Instr
  /-- What manufacture fixed (00 R7, 02 R40, 16 R349). -/
  mfg : Manufacture
  /-- Pins, straps and references (23 R504, 26). -/
  supply : Supply
  /-- The tray's SPI NOR (23 R507). -/
  nor : Nor
  /-- The Assay controllers (02 R36 to R39). -/
  assay : Assay
  /-- The hallmark (23 R514). -/
  hmk : Hallmark
  /-- Registers as last written or counted, by key (25); unlisted: the reset value. -/
  regs : KMap Word
  /-- Sealed values in force from the last successful seal (23 R512), by key; unlisted: the reset value. -/
  force : KMap Word
  /-- The tenant-path accumulators of R545 (TEN_XIGN by tenant; GTH_DROP at 128 * (1 + facet) + tenant). -/
  xign : KMap Nat
  /-- Package clocks (03). -/
  clk : Clocks
  /-- Fabric schedule (04). -/
  fabric : Fabric
  /-- Line ownership (05). -/
  coh : Coherence
  /-- Device memory (06). -/
  mem : Memory
  /-- Flash controllers (07). -/
  flash : Flash
  /-- PCIe ports by number (16); unlisted: down. -/
  ports : KMap Port
  /-- Functions by number (16); unlisted: reset. -/
  funcs : KMap Func
  /-- Address translation caches by port, oldest entry first (16 R353). -/
  atc : KMap (List Cached)
  /-- Rings and event rings (17, 24). -/
  rings : Rings
  /-- Requests in flight by tag (17 R384). -/
  requests : KMap Request
  /-- Final completions waiting for a function in D3hot (16 R350). -/
  parked : KMap (Status × List Nat)
  /-- A region clear in progress (18 R406). -/
  clear : Option Clear
  /-- What left the package, oldest first. -/
  outs : List Out
  /-- The model's own count of free values drawn (not the spec's). -/
  freeCount : Nat
  /-- Power and brake (22). -/
  power : Power
  /-- Vocabulary slots loaded (09 R179). -/
  voc : KMap VocSlot
  /-- Grammar slots loaded (09 R179). -/
  grm : KMap GrmSlot
  /-- Load in progress of the token block (09 R180). -/
  tokLd : Option LoadJob
  /-- UNLOADs of the token block waiting for their slots to empty: kind and slot (09 R181). -/
  tokUnld : List (Nat × Nat)
  /-- GATHERs whose row reads are under way, by tag (10 R209). -/
  gathers : KMap GatherJob
  /-- SELECTs waiting for their merge, by tag (13 R285). -/
  selects : KMap SelectJob
  /-- Index slots loaded (12 R246). -/
  idx : KMap IdxSlot
  /-- Load in progress of the search block (12 R246). -/
  srchLd : Option LoadJob
  /-- UNLOADs of index slots that wait for their requests (12 R246). -/
  srchUnld : List Nat
  /-- Searches in progress, by tag (12). -/
  searches : KMap SearchJob
  /-- The cable plan (22 R478 to R481). -/
  plan : Plan
  /-- The strand transport (19). -/
  strand : Strand
  /-- Troy slots that are not empty (15 R318). -/
  troy : KMap TroySlot
  /-- Template slots loaded (14 R296). -/
  tpl : KMap TplSlot
  /-- UNLOADs of template slots that wait for their requests (14 R296). -/
  tplUnld : List Nat
  /-- Matrix work under way, by tag (11). -/
  mtx : KMap MtxJob
  /-- Prefills in progress, by tag (14). -/
  prefills : KMap PrefillJob
  /-- Decode pools attached, by the tag of their DECODE_ATTACH (14 R310). -/
  pools : KMap Pool
  /-- Grain counts of first mismatches cleared in the last second, by array (11 R233). -/
  mtxCleared : KMap (List Nat)
  /-- The Chain tap (20, 21). -/
  chain : Chain
  deriving DecidableEq, Repr

/-- The package with PWR_GOOD low, every register at its reset value, before the first PWR_GOOD_RISE (notes 1 to 4). -/
def State.reset : State where
  pending := []
  mfg := ⟨0xFFFFFFFFFFFFFFFF#64, 0#64, 0#8, 0#16⟩
  supply := ⟨false, ⟨false, 0#6, false⟩, true, true, true, false, 1#8⟩
  nor := ⟨false, [], [], none⟩
  assay := ⟨none, false, none, false, false, 0#16, false, false, false⟩
  hmk := ⟨.empty, false, 0, 0#16, 0#64, none, [], false⟩
  regs := []
  force := []
  xign := []
  clk := ⟨false, 0#64, []⟩
  fabric := ⟨[], [], [], false⟩
  coh := ⟨[], [], [], [], [], [], [], [], [], [], [], [], []⟩
  mem := ⟨[], [], [], [], [], [], [], [], [], [], []⟩
  flash := ⟨[], [], [], [], [], [], [], [], [], [], 0, []⟩
  ports := []
  funcs := []
  atc := []
  rings := ⟨[], [], [], [], [], []⟩
  requests := []
  parked := []
  clear := none
  outs := []
  freeCount := 0
  power := ⟨false, [], [], []⟩
  voc := []
  grm := []
  tokLd := none
  tokUnld := []
  gathers := []
  selects := []
  idx := []
  srchLd := none
  srchUnld := []
  searches := []
  plan := ⟨none, none⟩
  strand := ⟨[], [], [], [], []⟩
  troy := []
  tpl := []
  tplUnld := []
  mtx := []
  prefills := []
  pools := []
  mtxCleared := []
  chain := ⟨none, [], [], [], none, false, false, false, false, false, none⟩

/-- Faults of the machine: none. Every misuse the spec describes is a completion status, an event or an ignored access,
which are next states. The one constructor stands for a state no rule of the spec reaches and no meaning raises it
(safe: a raised fault would only stop a run). -/
inductive Fault where
  | unreachable
  deriving DecidableEq, Repr

/-- Refusals. `notModelled` is raised by an arm of exec whose command has no meaning yet (safe: the run stops). -/
inductive Refusal where
  | notModelled (mnemonic : String)
  deriving DecidableEq, Repr

end Sys2Proof.Machine
end

