-- ==== Sys2Proof/Machine/Flags.lean ====
section
/-! DEFINITION. Flags: status codes and classes, poison origins, hallmark and reason codes, event codes. -/
namespace Sys2Proof.Machine

/-- The 8-bit code of a status (24 R526, Table - Status catalogue). -/
def statusCode : Status → Nat
  | .ok => 0x00 | .droppedIndices => 0x01 | .bf16Flush => 0x02 | .truncated => 0x03 | .shortfall => 0x04
  | .packDropped => 0x05 | .shardMissing => 0x07
  | .badOpcode => 0x20 | .badField => 0x21 | .badPlan => 0x22 | .resultShort => 0x23 | .notFound => 0x24
  | .outOfRegion => 0x25 | .badAlign => 0x26 | .badExtent => 0x27 | .erasedRead => 0x28 | .tokenRange => 0x29
  | .indexRange => 0x2A | .rowTooLong => 0x2B | .budgetExceeded => 0x2C | .badRecord => 0x2D | .badUtf8 => 0x2E
  | .bf16Inexact => 0x2F | .grammarVocab => 0x30 | .grammarFault => 0x31 | .logitFault => 0x32 | .badImage => 0x33
  | .xlateFault => 0x34
  | .resvInsufficient => 0x40 | .poolFull => 0x41 | .imageBusy => 0x42 | .reopened => 0x43
  | .peerLost => 0x60 | .departing => 0x61
  | .noPartition => 0x80 | .noArray => 0x81 | .noEngine => 0x82 | .tierFenced => 0x83 | .assayLost => 0x84
  | .clockFault => 0x85
  | .poisonMemory => 0xA0 | .poisonFlash => 0xA1 | .poisonHost => 0xA2 | .poisonFabric => 0xA3 | .computeCheck => 0xA4

/-- Every status, in code order. -/
def allStatuses : List Status :=
  [.ok, .droppedIndices, .bf16Flush, .truncated, .shortfall, .packDropped, .shardMissing, .badOpcode, .badField, .badPlan,
   .resultShort, .notFound, .outOfRegion, .badAlign, .badExtent, .erasedRead, .tokenRange, .indexRange, .rowTooLong,
   .budgetExceeded, .badRecord, .badUtf8, .bf16Inexact, .grammarVocab, .grammarFault, .logitFault, .badImage, .xlateFault,
   .resvInsufficient, .poolFull, .imageBusy, .reopened, .peerLost, .departing, .noPartition, .noArray, .noEngine,
   .tierFenced, .assayLost, .clockFault, .poisonMemory, .poisonFlash, .poisonHost, .poisonFabric, .computeCheck]

/-- The status a code names, if the catalogue has it. -/
def statusOfCode (c : Nat) : Option Status := allStatuses.find? (fun st => statusCode st == c)

/-- A status that stops a pipeline and fails a request (24 R528, 01 R25). -/
def isFailure (st : Status) : Bool := decide (0x20 ≤ statusCode st)

/-- A note: complete, with a qualification (24 R526). -/
def isNote (st : Status) : Bool := decide (1 ≤ statusCode st) && decide (statusCode st < 0x20)

/-- The 3-bit code of a poison origin (24 Table - Event codes, POISON_SET). -/
def originCode : Origin → Nat
  | .memory => 0 | .flash => 1 | .host => 2 | .fabric => 3

/-- The status of a request failed by poison (08 R172). -/
def poisonStatus : Origin → Status
  | .memory => .poisonMemory | .flash => .poisonFlash | .host => .poisonHost | .fabric => .poisonFabric

/-- Code of a hallmark state (23 HMK_STATUS.STATE). -/
def hmkCode : HmkState → Nat
  | .empty => 0 | .opened => 1 | .checking => 2 | .sealed => 3 | .held => 4

/-- Code of a dead cause (02 Table - Dead causes). -/
def deadCode : DeadCause → Nat
  | .noCrystal => 1 | .imageRejected => 2 | .noController => 3 | .noPair => 4

/-- Facet of a controller. -/
def sideFacet : Side → Nat
  | .f0 => 0 | .f4 => 4

/-- The other controller. -/
def otherSide : Side → Side
  | .f0 => .f4 | .f4 => .f0

/-- Facet of a port (16 Model). -/
def portFacet (port : Nat) : Nat := 4 * port

/-- Number of a tier (06 TEN_RESV). -/
def tierCode : Tier → Nat
  | .sram => 0 | .hbm => 1 | .lpddr => 2 | .nand => 3

/-- Code of a ring fault (17 RNG_SQ_STATE). -/
def ringFaultCode : RingFault → Nat
  | .none => 0 | .config => 1 | .overrun => 2 | .backward => 3

/-- Severity and number of each event (24 Table - Event codes). -/
inductive EventCode where
  | fenceChanged | resvDegraded | poisonSet | flashWeak | flashBlockBad | ringFault | linkChange | imageLost
  | strandQuarantine | strandPeerLost | chainTxStall | chainTxCut | chainBusStuck | chainAddress | chainRx | capChanged
  | capRejected | brakeChanged | powerFloor | hmkChanged | clockRelock | assayTakeover | eventsLost
  deriving DecidableEq, Repr

/-- Number of an event (24 Table - Event codes, bits [15:0]). -/
def eventNumber : EventCode → Nat
  | .fenceChanged => 1 | .resvDegraded => 2 | .poisonSet => 3 | .flashWeak => 4 | .flashBlockBad => 5 | .ringFault => 6
  | .linkChange => 7 | .imageLost => 8 | .strandQuarantine => 9 | .strandPeerLost => 10 | .chainTxStall => 11
  | .chainTxCut => 12 | .chainBusStuck => 13 | .chainAddress => 14 | .chainRx => 15 | .capChanged => 16
  | .capRejected => 17 | .brakeChanged => 18 | .powerFloor => 19 | .hmkChanged => 20 | .clockRelock => 21
  | .assayTakeover => 22 | .eventsLost => 23

/-- Severity of an event (24 Table - Event codes, bits [31:30]): 0 notice, 1 warning, 2 fault. -/
def eventSeverity : EventCode → Nat
  | .fenceChanged => 2 | .resvDegraded => 1 | .poisonSet => 2 | .flashWeak => 1 | .flashBlockBad => 1 | .ringFault => 2
  | .linkChange => 1 | .imageLost => 2 | .strandQuarantine => 1 | .strandPeerLost => 1 | .chainTxStall => 1
  | .chainTxCut => 2 | .chainBusStuck => 2 | .chainAddress => 0 | .chainRx => 0 | .capChanged => 0
  | .capRejected => 1 | .brakeChanged => 0 | .powerFloor => 2 | .hmkChanged => 0 | .clockRelock => 2
  | .assayTakeover => 2 | .eventsLost => 1

end Sys2Proof.Machine
end

