-- ==== Sys2Proof/Machine/Registers.lean ====
section
/-! DEFINITION. Registers: keys of the register file, reset values, access codes, clamps and the sealed set.
A key is the register's offset in the physical function's BAR0 (00 R9). Three kinds of register have a key of their own:
registers present in the active controller's window only are kept at the key they would have in facet 0's window (their
values survive a takeover, 09 R179, 23 R511); the ring and event set-up of a function sits at `fnBase`. -/
namespace Sys2Proof.Machine

/-- Base of facet f's window in PF BAR0 (00 R9). -/
def facetBase (f : Nat) : Nat := 0x100000 + f * 0x100000

/-- Number of a function: port * 65 + tenant. -/
def fnNo (fn : FnId) : Nat := fn.port * 65 + fn.tenant

/-- Key of offset 0 of a function's own set-up: rings from 0, event ring from 0x1000 (17 R390, 24). -/
def fnBase (fn : FnId) : Nat := 0x1000000 + fnNo fn * 0x2000

/-- Key of register `off` of facet f's window. -/
def fKey (f off : Nat) : Nat := facetBase f + off

/-- Key of register `off` of the active controller's window (the window of facet 0 stands for it). -/
def aKey (off : Nat) : Nat := facetBase 0 + off

/-- Resets other than 0 in a facet window (25 Table - Facet window index). -/
def facetReset : List (Nat × Nat) :=
  [(0x00030, 0x301), (0x10000, 0x68686868), (0x10004, 0x68686868), (0x10008, 0x68686868), (0x1000C, 0x68686868),
   (0x10020, 5), (0x20080, 0x00180001), (0x20084, 3), (0x30200, 0x80F), (0x30204, 6), (0x40100, 0x10), (0x50040, 8),
   (0xB0000, 1), (0xB0004, 1), (0xE0004, 0x00140014), (0xE0100, 0x3C3C)]

/-- Resets other than 0 in the global window (25 Table - Global window index). -/
def globalReset (off : Nat) : Nat :=
  if off = 0 then 0xF8101FD3
  else if off = 0x1C then 1
  else if off = 0x1020 then 0x3E8
  else if 0x4C000 ≤ off ∧ off ≤ 0x4C100 then 0x400
  else if off = 0x4E000 then 0x3F
  else if off = 0x70110 then 0x3C
  else 0

/-- Reset value of the register at a key (25). -/
def resetWord (key : Nat) : Word :=
  if key < 0x100000 then BitVec.ofNat 32 (globalReset key)
  else if key < 0x1000000 then
    BitVec.ofNat 32 ((look facetReset (key % 0x100000)).getD 0)
  else
    let off := (key - 0x1000000) % 0x2000
    if off = 0x900 then 2#32 else if off = 0x904 then 0x64#32 else 0#32

/-- The word stored at a key. -/
def regGet (s : State) (key : Nat) : Word := mapGet resetWord s.regs key

/-- The state with word `w` stored at a key. -/
def regSet (s : State) (key : Nat) (w : Word) : State := { s with regs := mapSet resetWord s.regs key w }

/-- A field of a register. -/
def regFld (s : State) (key lo n : Nat) : Nat := fld (regGet s key) lo n

/-- The state with a field of a register set. -/
def regSetFld (s : State) (key lo n v : Nat) : State := regSet s key (setFld (regGet s key) lo n v)

/-- The state with an `n`-bit count at `lo` raised by `k`, saturating (08 R176, 25). -/
def bump (s : State) (key lo n k : Nat) : State := regSet s key (bumpFld (regGet s key) lo n k)

/-- The state with an `n`-bit peak at `lo` raised to `v`. -/
def peak (s : State) (key lo n v : Nat) : State := regSet s key (peakFld (regGet s key) lo n v)

/-- A sealed value in force (23 R512). -/
def forceGet (s : State) (key : Nat) : Word := mapGet resetWord s.force key

/-- 64-bit value of a _LO and _HI pair at `key` and `key + 4`. -/
def pair (g : Nat → Word) (key : Nat) : Nat := (g key).toNat + (g (key + 4)).toNat * 2 ^ 32

/-- Where a register of the facet windows is present (25 R540). -/
inductive Presence where
  | all | f0f4 | active
  deriving DecidableEq, Repr

/-- A run of registers of one kind in a facet window: presence, RW bits (stored by a write), RC bits (cleared by a read). -/
structure RegRow where
  lo : Nat
  hi : Nat
  pres : Presence
  rw : Nat
  rc : Nat
  deriving DecidableEq, Repr

/-- The facet window (25 Table - Facet window index; fields as the owning chapters give). Write-only, read-only and
write-one-to-clear bits are in neither mask. -/
def facetRows : List RegRow :=
  [⟨0x00000, 0x0000C, .all, 0xFFFFFFFF, 0⟩, ⟨0x00010, 0x00020, .all, 0, 0⟩, ⟨0x00024, 0x00024, .all, 0, 0xFFFFFFFF⟩,
   ⟨0x00030, 0x00030, .all, 0xF0F, 0⟩, ⟨0x00034, 0x00034, .all, 1, 0⟩, ⟨0x00040, 0x00050, .all, 0, 0xFFFFFFFF⟩,
   ⟨0x08000, 0x0BFFC, .all, 0, 0⟩, ⟨0x0C000, 0x0FFFC, .all, 0, 0xFFFFFFFF⟩,
   ⟨0x10000, 0x10004, .all, 0x7F7F7F7F, 0⟩, ⟨0x10008, 0x1001C, .all, 0, 0⟩, ⟨0x10020, 0x10020, .all, 0xF, 0⟩,
   ⟨0x20000, 0x20004, .all, 0, 0⟩, ⟨0x20010, 0x20018, .all, 0, 0xFFFFFFFF⟩, ⟨0x20020, 0x2005C, .all, 0, 0⟩,
   ⟨0x20080, 0x20080, .all, 0xFF00FF, 0⟩, ⟨0x20084, 0x20084, .all, 0xFF, 0⟩, ⟨0x20F00, 0x20F04, .all, 0, 0xFFFFFFFF⟩,
   ⟨0x30000, 0x30020, .all, 0, 0⟩, ⟨0x30030, 0x30040, .all, 0, 0xFFFFFFFF⟩, ⟨0x30100, 0x30104, .all, 0xFFFFFFFF, 0⟩,
   ⟨0x30108, 0x30108, .all, 0xFFFF, 0⟩, ⟨0x3010C, 0x30110, .all, 0, 0⟩, ⟨0x30200, 0x30200, .all, 0x10F0F, 0⟩,
   ⟨0x30204, 0x30204, .all, 7, 0⟩] ++
  [⟨0x40000, 0x4000C, .all, 0, 0xFFFFFFFF⟩, ⟨0x40020, 0x4003C, .all, 0, 0xFFFFFFFF⟩, ⟨0x40100, 0x40100, .all, 0xFF, 0⟩,
   ⟨0x50000, 0x50008, .active, 0xFFFFFFFF, 0⟩, ⟨0x5000C, 0x5000C, .active, 0x3F00, 0⟩, ⟨0x50010, 0x50014, .active, 0, 0⟩,
   ⟨0x50020, 0x5002C, .all, 0, 0xFFFFFFFF⟩, ⟨0x50040, 0x50040, .all, 0x37F, 0⟩, ⟨0x50100, 0x501FC, .active, 0, 0⟩,
   ⟨0x50200, 0x504FC, .active, 0xFFFFFFFF, 0⟩,
   ⟨0x60000, 0x60004, .all, 0, 0xFFFFFFFF⟩, ⟨0x70000, 0x70004, .all, 0xFFFFFFFF, 0⟩,
   ⟨0x70010, 0x70014, .all, 0, 0xFFFFFFFF⟩, ⟨0x71000, 0x71100, .all, 0, 0xFFFFFFFF⟩,
   ⟨0x80000, 0x80010, .active, 0xFFFFFFFF, 0⟩, ⟨0x80014, 0x80014, .active, 0xF3F30, 0⟩, ⟨0x80018, 0x8001C, .active, 0, 0⟩,
   ⟨0x80100, 0x8013C, .active, 0, 0⟩, ⟨0x80140, 0x8017C, .active, 0xFFFFFFFF, 0⟩, ⟨0x80200, 0x8027C, .active, 0, 0⟩,
   ⟨0x80400, 0x804FC, .active, 0, 0⟩, ⟨0x80500, 0x805FC, .active, 0xFFFFFFFF, 0⟩, ⟨0x80800, 0x80808, .all, 0, 0xFFFFFFFF⟩] ++
  [⟨0x90000, 0x90010, .active, 0xFFFFFFFF, 0⟩, ⟨0x90014, 0x90014, .active, 0x3F00, 0⟩, ⟨0x90018, 0x9001C, .active, 0, 0⟩,
   ⟨0x90100, 0x901FC, .active, 0, 0⟩, ⟨0x90200, 0x902FC, .active, 0xFFFFFFFF, 0⟩, ⟨0x90800, 0x9080C, .all, 0, 0xFFFFFFFF⟩,
   ⟨0xA0100, 0xA03FC, .active, 0, 0⟩, ⟨0xA0400, 0xA053C, .active, 0xFFFFFFFF, 0⟩, ⟨0xA0800, 0xA0804, .all, 0, 0xFFFFFFFF⟩,
   ⟨0xB0000, 0xB0004, .all, 3, 0⟩, ⟨0xB0008, 0xB0010, .all, 0, 0⟩, ⟨0xB0020, 0xB0048, .all, 0, 0xFFFFFFFF⟩,
   ⟨0xB0100, 0xB01FC, .all, 0, 0⟩, ⟨0xB0200, 0xB0204, .active, 0, 0⟩,
   ⟨0xC0000, 0xC0000, .f0f4, 0, 0⟩, ⟨0xC0010, 0xC0010, .f0f4, 0, 0xFFFFFFFF⟩, ⟨0xC0100, 0xC0200, .f0f4, 0xFFFFF, 0⟩] ++
  [⟨0xD0000, 0xD0000, .active, 1, 0⟩, ⟨0xD0004, 0xD0004, .active, 0, 0⟩, ⟨0xD0008, 0xD0008, .active, 0, 0⟩,
   ⟨0xD000C, 0xD000C, .active, 0, 0xFFFFFFFF⟩, ⟨0xD0010, 0xD0018, .active, 0, 0⟩, ⟨0xD001C, 0xD001C, .active, 0, 0xFFFFFFFF⟩,
   ⟨0xD0020, 0xD0028, .active, 0, 0⟩, ⟨0xD002C, 0xD002C, .active, 1, 0⟩, ⟨0xD0030, 0xD0038, .active, 0, 0xFFFFFFFF⟩,
   ⟨0xD0040, 0xD004C, .active, 0xFFFFFFFF, 0⟩, ⟨0xD0400, 0xD05FC, .active, 0, 0⟩,
   ⟨0xE0000, 0xE0004, .all, 0, 0⟩, ⟨0xE0100, 0xE0104, .active, 0, 0⟩, ⟨0xE0108, 0xE0108, .active, 0, 0xFFFF⟩,
   ⟨0xE010C, 0xE010C, .active, 0, 0⟩, ⟨0xE0110, 0xE0110, .active, 0, 0xFFFFFFFF⟩, ⟨0xE0114, 0xE0114, .active, 0, 0⟩,
   ⟨0xF0000, 0xF0000, .active, 0, 0⟩, ⟨0xF0004, 0xF0004, .active, 0xFF, 0⟩, ⟨0xF0008, 0xF0010, .active, 0xFFFFFFFF, 0⟩,
   ⟨0xF0014, 0xF0014, .active, 0, 0⟩, ⟨0xF0100, 0xF0104, .all, 0, 0⟩, ⟨0xF0108, 0xF0108, .f0f4, 0, 0⟩]

/-- First row of a facet row list that holds an offset. -/
def findRow : List RegRow → Nat → Option RegRow
  | [], _ => none
  | r :: rs, off => if r.lo ≤ off ∧ off ≤ r.hi then some r else findRow rs off

/-! ## The sealed set (23 R511) -/

/-- One row of Table - Sealed register set: first key, number of words, step between words. -/
structure SealRow where
  key : Nat
  words : Nat
  step : Nat
  deriving DecidableEq, Repr

/-- Rows 1 to 16 of Table - Sealed register set, in order. Row 17 follows in `sealRows`. -/
def sealRowsA : List SealRow :=
  [⟨0x40000, 2080, 4⟩, ⟨0x4C000, 65, 4⟩, ⟨0x4D000, 130, 4⟩, ⟨0x50000, 4160, 4⟩, ⟨0x70018, 2, 4⟩, ⟨0x70100, 4, 4⟩,
   ⟨0x70110, 1, 4⟩, ⟨aKey 0x50200, 64, 4⟩, ⟨aKey 0x50300, 16, 4⟩, ⟨aKey 0x50400, 64, 4⟩, ⟨aKey 0x80140, 16, 4⟩,
   ⟨aKey 0x80500, 64, 4⟩, ⟨aKey 0x90200, 64, 4⟩, ⟨aKey 0xA0400, 64, 4⟩, ⟨aKey 0xA0500, 16, 4⟩, ⟨aKey 0xD0040, 4, 4⟩]

/-- Row 17: GTH_HOT_BASE_LO and _HI of facets 0 to 7. -/
def sealRowsB : List SealRow := (upto 8).map (fun f => ⟨fKey f 0x70000, 2, 4⟩)

/-- Table - Sealed register set. -/
def sealRows : List SealRow := sealRowsA ++ sealRowsB

/-- Keys of one row, ascending. -/
def SealRow.keys (r : SealRow) : List Nat := (upto r.words).map (fun i => r.key + r.step * i)

/-- The sealed set in sealed-set order: 6,830 keys (23 R511). -/
def sealedKeys : List Nat := sealRows.flatMap SealRow.keys

/-- A key lies in the sealed set. -/
def isSealed (key : Nat) : Bool :=
  sealRows.any (fun r => decide (r.key ≤ key ∧ key < r.key + r.step * r.words))

/-- Reserved bits of a region's word, by the KIND in its fourth word (18 Table - TEN_REGION fields). -/
def regionReserved (word kind : Nat) : Nat :=
  match word with
  | 0 => if kind = 0 then 0xFFFF else if kind = 1 then 0xFC000000 else 0
  | 1 => if kind = 1 then 0xFFFFFFFF else 0xFFFF0000
  | 2 => 0
  | _ => 0x7CFFFFFF

/-- Reserved bits of a sealed register; `g` reads the sealed words (a region's reserved bits follow its KIND). -/
def sealedReserved (g : Nat → Word) (key : Nat) : Nat :=
  if 0x40000 ≤ key ∧ key ≤ 0x4207C then 0xFFFC0000
  else if 0x4C000 ≤ key ∧ key ≤ 0x4C100 then 0xFFFF8000
  else if 0x50000 ≤ key ∧ key ≤ 0x540FC then
    regionReserved (key % 16 / 4) (fld (g (key - key % 16 + 12)) 24 2)
  else if key = 0x7001C then 0xFFFFFFFE
  else if key = 0x70110 then 0xFFFFFF00
  else if aKey 0x50200 ≤ key ∧ key ≤ aKey 0x502FC then 0xFFFFFF00
  else if aKey 0x50300 ≤ key ∧ key ≤ aKey 0x5033C then 0x4080FFC0
  else if aKey 0x50400 ≤ key ∧ key ≤ aKey 0x504FC then if (key - aKey 0x50400) % 64 = 0 then 0xFFFFFF00 else 0x40FFFFC0
  else if aKey 0x80140 ≤ key ∧ key ≤ aKey 0x8017C then 0xFFFFFF00
  else if aKey 0x80500 ≤ key ∧ key ≤ aKey 0x805FC then 0xFFFFFF00
  else if aKey 0x90200 ≤ key ∧ key ≤ aKey 0x902FC then 0xFFFFFF00
  else if aKey 0xA0400 ≤ key ∧ key ≤ aKey 0xA04FC then 0xFFFFFF00
  else if aKey 0xA0500 ≤ key ∧ key ≤ aKey 0xA053C then 0x4080FFC0
  else if key < 0x1000000 ∧ 0x100000 ≤ key ∧ key % 0x100000 = 0x70000 then 0xFFFF
  else 0

/-- A sealed register reads its last written value with reserved bits 0; PWR_KEY reads 0 (23 R512). -/
def sealedRead (s : State) (key : Nat) : Word :=
  if 0x70100 ≤ key ∧ key ≤ 0x7010C then 0#32
  else regGet s key &&& ~~~(BitVec.ofNat 32 (sealedReserved (regGet s) key))

/-! ## Values taken on a write -/

/-- `v` held between `lo` and `hi`. -/
def clampN (lo hi v : Nat) : Nat := max lo (min hi v)

/-- Each of the four 7-bit ceilings of CLK_PMAX, held at 104 (03 CLK_PMAX_A). -/
def clampPmax (w : Word) : Word :=
  [0, 8, 16, 24].foldl (fun w lo => setFld w lo 7 (min (fld w lo 7) 104)) w

/-- The value a facet register takes when `w` is stored (expert fields take the nearest value of their range where their
chapter says so). FLS_RATE_X has codes 1 to 6 and takes 0 as 1; 7, of which the spec says nothing, is stored as it stands and caps nothing
(DESIGN CHOICE, note 65). -/
def clampFacet (off : Nat) (w : Word) : Word :=
  if off = 0x10000 ∨ off = 0x10004 then clampPmax w
  else if off = 0x10020 then setFld w 0 4 (clampN 1 8 (fld w 0 4))
  else if off = 0x00030 then setFld (setFld w 0 4 (max 1 (fld w 0 4))) 8 4 (max 1 (fld w 8 4))
  else if off = 0x20080 then setFld (setFld w 0 8 (max 1 (fld w 0 8))) 16 8 (max 1 (fld w 16 8))
  else if off = 0x20084 then setFld w 0 8 (max 1 (fld w 0 8))
  else if off = 0x30204 then setFld w 0 3 (max 1 (fld w 0 3))
  else if off = 0x50040 then setFld w 0 7 (clampN 1 64 (fld w 0 7))
  else w

end Sys2Proof.Machine
end

