-- ==== Sys2Proof/Machine/Ops.lean ====
section
/-! DEFINITION. Ops: the named operations over units, device memory, events and requests that every meaning shares. -/
namespace Sys2Proof.Machine

/-! ## Units and the fence map (02 R34, R43) -/

/-- ASY_FENCE_A of a facet. -/
def fenceA (s : State) (f : Nat) : Word := regGet s (fKey f 0xF0100)

/-- ASY_FENCE_B of a facet. -/
def fenceB (s : State) (f : Nat) : Word := regGet s (fKey f 0xF0104)

/-- The facet's fabric island is live. -/
def fabricLive (s : State) (f : Nat) : Bool := !bitOf (fenceB s f) 16

/-- Partition p (global number) is live. -/
def partLive (s : State) (p : Nat) : Bool := !bitOf (fenceA s (p / 8)) (8 + p % 8)

/-- The array of partition p can take matrix work (02 R42): enabled in the fuse map, not suspect, on a live partition. -/
def arrayUsable (s : State) (p : Nat) : Bool :=
  bitOf s.mfg.fuse p && !bitOf (fenceA s (p / 8)) (p % 8) && partLive s p && fabricLive s (p / 8)

/-- SRAM slice g (global number) is live. -/
def sliceLive (s : State) (g : Nat) : Bool := !bitOf (fenceA s (g / 16)) (16 + g % 16)

/-- The HBM stack of a facet is live. -/
def hbmLive (s : State) (f : Nat) : Bool := !bitOf (fenceB s f) 17

/-- LPDDR channel c (global number) is live. -/
def lpLive (s : State) (c : Nat) : Bool := !bitOf (fenceB s (c / 8)) (24 + c % 8)

/-- ONFI channel c (global number) is live. -/
def onfiLive (s : State) (c : Nat) : Bool := !bitOf (fenceB s (c / 4)) (20 + c % 4)

/-- Strand lane l (global number) is live. -/
def laneLive (s : State) (l : Nat) : Bool := !bitOf (fenceB s (l / 2)) (18 + l % 2)

/-- The link of facet f in direction d (0 N, 1 E, 2 S, 3 W) exists and is live. -/
def linkLive (s : State) (f d : Nat) : Bool := !bitOf (fenceB s f) (15 - d)

/-- Engine i of facet f is live (0 similarity, 1 selection, 2 gather, 3 token, 4 clasp, 5 weight loader). -/
def engineLive (s : State) (f i : Nat) : Bool := !bitOf (fenceB s f) (11 - i)

/-- Some facet has a live engine i. -/
def someEngine (s : State) (i : Nat) : Bool := (upto 8).any (fun f => engineLive s f i)

/-- The PCIe port of a controller's facet is live. -/
def hostLive (s : State) (f : Nat) : Bool := !bitOf (fenceB s f) 5

/-- The Assay controller of a facet is live. -/
def assayLive (s : State) (f : Nat) : Bool := !bitOf (fenceB s f) 4

/-- A facet's neighbour in a direction on the 2 by 4 grid (02 Table - Facet grid), if there is one. -/
def neighbour (f d : Nat) : Option Nat :=
  match d with
  | 0 => if 4 ≤ f then some (f - 4) else none
  | 1 => if f % 4 < 3 then some (f + 1) else none
  | 2 => if f < 4 then some (f + 4) else none
  | _ => if 0 < f % 4 then some (f - 1) else none

/-- Distance between facets in hops (02 R35). -/
def facetDist (a b : Nat) : Nat := (a / 4 - b / 4) + (b / 4 - a / 4) + ((a % 4 - b % 4) + (b % 4 - a % 4))

/-- Facets reached from `seen` over live links in `n` rounds (02 R46). -/
def spread (s : State) : Nat → List Nat → List Nat
  | 0, seen => seen
  | n + 1, seen =>
    let next := (upto 8).filter (fun f => seen.contains f ||
      (fabricLive s f && (upto 4).any (fun d => linkLive s f d &&
        match neighbour f d with | some g => seen.contains g && fabricLive s g | none => false)))
    spread s n next

/-- Facet of the active controller (facet 0 when none is active). -/
def activeFacet (s : State) : Nat := match s.assay.active with | some x => sideFacet x | none => 0

/-- The package is powered, booted and not dead (02 R52). -/
def alive (s : State) : Bool := s.supply.powerGood && s.assay.ready && s.assay.dead.isNone && !s.supply.thermtrip

/-- The hallmark is SEALED; a drain is part of SEALED (23 R521). -/
def isSealedNow (s : State) : Bool := decide (s.hmk.state = .sealed)

/-! ## Names of a register field often read -/

/-- Ring set-up word of a function. -/
def fnReg (s : State) (fn : FnId) (off : Nat) : Word := regGet s (fnBase fn + off)

/-- 64-bit ring set-up value of a function. -/
def fnPair (s : State) (fn : FnId) (off : Nat) : Nat := pair (regGet s) (fnBase fn + off)

/-- What a meaning answers. -/
abbrev Result := Host.Outcome State Fault Refusal

/-! ## Ports, functions, outputs -/

/-- A port as PCIe reset leaves it (16 R359): link down, VF Enable 0; Max_Payload_Size 128 bytes, Max_Read_Request_Size 512 bytes and 8-bit
tags, as PCIe resets them (note 158), and the 50 ms timeout (R344). -/
def portReset : Port := ⟨false, false, 0, 0, false, false, ⟨false, false, false, false, false, 0, 2, 0, 0, []⟩, false, 0, [], [], []⟩

/-- A port. -/
def portOf (s : State) (p : Nat) : Port := mapGet (fun _ => portReset) s.ports p

/-- The state with a port replaced. -/
def setPort (s : State) (p : Nat) (v : Port) : State := { s with ports := mapSet (fun _ => portReset) s.ports p v }

/-- A vector at reset: masked, as PCIe has it. -/
def vecReset : Vec := ⟨0#64, 0#32, true, false⟩

/-- A function at reset. -/
def funcReset : Func := ⟨false, []⟩

/-- A function's PCIe state. -/
def funcOf (s : State) (fn : FnId) : Func := mapGet (fun _ => funcReset) s.funcs (fnNo fn)

/-- The state with a function's PCIe state replaced. -/
def setFunc (s : State) (fn : FnId) (v : Func) : State :=
  { s with funcs := mapSet (fun _ => funcReset) s.funcs (fnNo fn) v }

/-- A function has a path to the package (16 R346): its port is up, and for a tenant VF Enable is 1 and n is at most
NumVFs. -/
def fnEnabled (s : State) (fn : FnId) : Bool :=
  let p := portOf s fn.port
  decide (fn.port < 2) && p.up && (decide (fn.tenant = 0) || (p.vfEnable && decide (fn.tenant ≤ p.numVfs)))

/-- A port carries traffic: its link is up and its host block is not fenced (02 R46; note 136). A fenced port keeps its link and its
configuration space (02 R39). -/
def linkOpen (s : State) (p : Nat) : Bool := (portOf s p).up && hostLive s (portFacet p)

/-- The state with one more output sent. -/
def emit (s : State) (o : Out) : State := { s with outs := s.outs ++ [o] }

/-- The PASID that a function's DMA requests carry (16 R352): HST_FN_PASID while the port's PASID Enable is set. -/
def pasidOf (s : State) (fn : FnId) : Option Nat :=
  if (portOf s fn.port).config.pasid then some (regFld s (fKey (portFacet fn.port) (0xC0100 + 4 * fn.tenant)) 0 20) else none

/-- n bytes at host address a, cut into at most `fuel` transfers of at most m bytes, none of which crosses a 4 KiB boundary (16 R343). -/
def cutHost (m : Nat) : Nat → Nat → Nat → List (Nat × Nat)
  | 0, _, _ => []
  | fuel + 1, a, n =>
    if n = 0 then []
    else
      let w := min n (min m (4096 - a % 4096))
      (a, w) :: cutHost m fuel (a + w) (n - w)

/-- The transfers of n bytes at host address a, of at most m bytes each. -/
def hostParts (m a n : Nat) : List (Nat × Nat) := cutHost m (n / m + n / 4096 + 2) a n

/-- Max_Payload_Size of a port in bytes: at most the 512 that it supports (16 R343). -/
def maxPayload (s : State) (p : Nat) : Nat := 128 * 2 ^ min (portOf s p).config.mps 2

/-- Max_Read_Request_Size of a port in bytes. -/
def maxRead (s : State) (p : Nat) : Nat := 128 * 2 ^ min (portOf s p).config.mrrs 5

/-- Non-posted requests that a port may have outstanding, by its enabled tag size (16 R343). -/
def readBound (s : State) (p : Nat) : Nat := match (portOf s p).config.tags with | 0 => 256 | 1 => 768 | _ => 4096

/-- MSI-X Enable, Function Mask and ATS Enable of a function: its own, or the port's (16 R353, R355). -/
def fnConfig (s : State) (fn : FnId) : FnConfig :=
  let c := (portOf s fn.port).config
  (c.apart.find? (fun f => f.tenant == fn.tenant)).getD ⟨fn.tenant, c.msix, c.fmask, c.ats⟩

/-- What a port's address translation cache holds (16 R353). -/
def atcOf (s : State) (p : Nat) : List Cached := mapGet (fun _ => []) s.atc p

/-- The state with a port's translation cache replaced. -/
def setAtc (s : State) (p : Nat) (c : List Cached) : State := { s with atc := mapSet (fun _ => []) s.atc p c }

/-- One more entry of a cache of 2,048 (16 R353). -/
def atcAdd (c : List Cached) (x : Cached) : List Cached :=
  (if c.length < 2048 then c else c.eraseIdx (Config.atcVictim (c.map (fun y => (y.tenant, y.page))) % c.length)) ++ [x]

/-- With ATS, a function's host address is translated before it is used (16 R353): a page that its port's cache lacks by a Translation
Request. -/
def translate (s : State) (fn : FnId) (a : Nat) : State :=
  let c := atcOf s fn.port
  let x : Cached := ⟨fn.tenant, a / 4096⟩
  if !(fnConfig s fn).ats || c.contains x then s
  else emit (setAtc s fn.port (atcAdd c x)) (.translate fn (pasidOf s fn) x.page)

/-- Translations of a function over some pages are no longer kept (16 R353, R354). -/
def forgetPages (s : State) (fn : FnId) (gone : Nat → Bool) : State :=
  setAtc s fn.port ((atcOf s fn.port).filter (fun x => !(decide (x.tenant = fn.tenant) && gone x.page)))

/-- Bytes leave for host memory under a function, as writes of at most Max_Payload_Size (16 R343, R347, R352, R353). -/
def hostSend (s : State) (fn : FnId) (a : Nat) (d : List Byte) : State :=
  (hostParts (maxPayload s fn.port) a d.length).foldl (fun s p =>
    emit (translate s fn p.1) (.hostWrite fn (pasidOf s fn) p.1 (slice d (p.1 - a) p.2))) s

/-- A function may use the fabric's way to the host: its port carries traffic and it is not in D3hot (16 R350; 02 R46). -/
def dmaOpen (s : State) (fn : FnId) : Bool := linkOpen s fn.port && !(funcOf s fn).d3hot

/-- Reads that wait leave, oldest first, while the port has a tag for them and their function may read, at most n of them (16 R343, R350). -/
def pumpReads : Nat → State → Nat → State
  | 0, s, _ => s
  | n + 1, s, p =>
    let q := portOf s p
    match q.held.find? (fun x => dmaOpen s ⟨p, x.tenant⟩) with
    | none => s
    | some x =>
      if readBound s p ≤ q.reads.length then s
      else
        let fn : FnId := ⟨p, x.tenant⟩
        pumpReads n (emit (translate (setPort s p { q with reads := q.reads ++ [x], held := q.held.erase x }) fn x.addr)
          (.hostRead fn (pasidOf s fn) x.addr x.len)) p

/-- Tag of the reads that a function makes for no request. -/
def ownReads : Nat := 65536

/-- A read that waits is still wanted: its request is in flight. -/
def stillWanted (s : State) (x : HostAsk) : Bool := decide (x.tag = ownReads) || (look s.requests x.tag).isSome

/-- Reads join those that wait at a port, and leave as they may. -/
def joinReads (s : State) (p : Nat) (new : List HostAsk) : State :=
  let q := portOf s p
  pumpReads (q.held.length + new.length) (setPort s p { q with held := (q.held ++ new).filter (stillWanted s) }) p

/-- The reads of at most Max_Read_Request_Size that fetch n bytes of host memory under a function (16 R343). -/
def asksFor (s : State) (fn : FnId) (tag a n : Nat) : List HostAsk :=
  (hostParts (maxRead s fn.port) a n).map (fun p => ⟨fn.tenant, tag, p.1, p.2⟩)

/-- A read of n bytes of host memory of a function's own; what the port's bound does not let out waits (16 R343). -/
def hostAsk (s : State) (fn : FnId) (a n : Nat) : State := joinReads s fn.port (asksFor s fn ownReads a n)

/-- Invalidate Requests that wait for no read any more are answered, oldest first (16 R354). -/
def answerInvals (s : State) (p : Nat) : State :=
  let q := portOf s p
  let due := fun (v : Inval) => v.left.all (fun x => !q.reads.contains x)
  if q.invals.any due then
    (q.invals.filter due).foldl (fun s v => emit s (.atsAnswer ⟨p, v.tenant⟩ v.id))
      (setPort s p { q with invals := q.invals.filter (fun v => !due v) })
  else s

/-- Reads of a port are outstanding, or wait, no longer: their tags are free, and what waited for that goes on (16 R343, R354). -/
def freeReads (s : State) (p : Nat) (gone : HostAsk → Bool) : State :=
  let q := portOf s p
  if (q.reads ++ q.held).any gone then
    joinReads (answerInvals (setPort s p { q with reads := q.reads.filter (fun x => !gone x), held := q.held.filter (fun x => !gone x) }) p) p []
  else s

/-- A read lies in the n bytes at a. -/
def askIn (a n : Nat) (x : HostAsk) : Bool := decide (a ≤ x.addr) && decide (x.addr + x.len ≤ a + n)

/-- The n bytes at host address a of a function's own read have come. -/
def hostBack (s : State) (fn : FnId) (a n : Nat) : State :=
  freeReads s fn.port (fun x => decide (x.tenant = fn.tenant) && decide (x.tag = ownReads) && askIn a n x)


/-- The physical function that reads for the owner: that of port 0, or of port 1 while only port 1 carries traffic (note 142). -/
def ownerFn (s : State) : FnId := if !dmaOpen s ⟨0, 0⟩ && dmaOpen s ⟨1, 0⟩ then ⟨1, 0⟩ else ⟨0, 0⟩

/-- A read of host memory under the owner's function; a port that carries no traffic sends none. -/
def askOwner (s : State) (a n : Nat) : State :=
  let fn := ownerFn s
  if dmaOpen s fn then hostAsk s fn a n else s

/-- The owner's read of n bytes at a has come. -/
def backOwner (s : State) (a n : Nat) : State := hostBack s (ownerFn s) a n

/-- How a read of host memory for a function is seen (16 R353): only an ATS translation is a refusal the F8R sees; without ATS the
host's refusal comes back as an error completion, which is poisoned data. -/
def heard (s : State) (fn : FnId) (st : ReadStatus) : ReadStatus :=
  match st with
  | .xlate => if (fnConfig s fn).ats then .xlate else .poisoned
  | .good => .good
  | .poisoned => .poisoned

/-- A translation that gives no access is not kept (16 R353). -/
def refusedPages (s : State) (fn : FnId) (a n : Nat) (st : ReadStatus) : State :=
  if heard s fn st = .xlate then forgetPages s fn (fun p => decide (a / 4096 ≤ p) && decide (p ≤ (a + n - 1) / 4096)) else s

/-- A read of a function's own whose data the same command brings. -/
def readNow (s : State) (fn : FnId) (a n : Nat) (st : ReadStatus) : State :=
  refusedPages (hostBack (hostAsk s fn a n) fn a n) fn a n st

/-- Sends the MSI-X message of a vector (16 R355, 23 R521): nothing while MSI-X Enable is 0, the link is down or its port fenced, the package
is dead, or the hallmark is not SEALED for a tenant; a masked vector, or one of a function in D3hot, sets its PBA bit. -/
def sendMsix (s : State) (fn : FnId) (v : Nat) : State :=
  let f := funcOf s fn
  if !alive s || !linkOpen s fn.port || !(fnConfig s fn).msix
      || (decide (fn.tenant ≠ 0) && !isSealedNow s) then s
  else
    let vec := mapGet (fun _ => vecReset) f.vecs v
    if (fnConfig s fn).fmask || f.d3hot || vec.masked then
      setFunc s fn { f with vecs := mapSet (fun _ => vecReset) f.vecs v { vec with pba := true } }
    else emit s (.msix fn v)

/-- A free value, and the state with the draw counted. -/
def draw (s : State) : BitVec 64 × State := (Config.freeValue s.freeCount, { s with freeCount := s.freeCount + 1 })

/-- Moderation of R383 on one posted entry: the new unsignalled count, whether the timer runs, and whether a message is
sent now. -/
def moderate (mod : Word) (unsig : Nat) (timer : Bool) : Nat × Bool × Bool :=
  let cnt := fld mod 16 8
  let us := fld mod 0 10
  if cnt ≠ 0 ∧ cnt ≤ unsig + 1 then (0, false, true)
  else (unsig + 1, timer || decide (us ≠ 0), false)

/-- PHASE of an entry at a posting count: 1 on the first pass, inverted on each later pass (17 R377). -/
def phaseAt (posted log2 : Nat) : Nat := if (posted / 2 ^ log2) % 2 = 0 then 1 else 0

/-! ## Events (24) -/

/-- Reset of an event ring. -/
def evtReset : EvtRing := ⟨0, 0, 0, 0, 0, false, []⟩

/-- A function's event ring. -/
def evtOf (s : State) (fn : FnId) : EvtRing := mapGet (fun _ => evtReset) s.rings.evts (fnNo fn)

/-- The state with a function's event ring replaced. -/
def setEvt (s : State) (fn : FnId) (e : EvtRing) : State :=
  { s with rings := { s.rings with evts := mapSet (fun _ => evtReset) s.rings.evts (fnNo fn) e } }

/-- EVT_CFG of a function. -/
def evtCfg (s : State) (fn : FnId) : Word := fnReg s fn 0x1010

/-- The event ring is enabled. -/
def evtOn (s : State) (fn : FnId) : Bool := bitOf (evtCfg s fn) 31

/-- Room in an event ring (24 R535). -/
def evtRoom (s : State) (fn : FnId) : Nat :=
  2 ^ fld (evtCfg s fn) 16 5 - ((evtOf s fn).posted - (evtOf s fn).head)

/-- The 32 bytes of an event entry (24 Table - Event entry). -/
def eventBytes (e : Event) (phase : Nat) : List Byte :=
  leBytes 4 (e.severity * 2 ^ 30 + e.number) ++ leBytes 4 e.seq ++ leBytes 8 e.time ++
  leBytes 1 (if e.block = 0x10 then 0x80 else e.facet) ++ leBytes 1 e.block ++ leBytes 1 e.tenant ++ leBytes 1 0 ++
  leBytes 8 e.detail ++ leBytes 3 0 ++ leBytes 1 phase

/-- Writes one entry to a ring that has room (24 R531, R537). -/
def evtWrite (s : State) (fn : FnId) (e : Event) : State :=
  let r := evtOf s fn
  let log2 := fld (evtCfg s fn) 16 5
  let (u, t, fire) := moderate (fnReg s fn 0x1014) r.unsignalled r.timer
  let s := hostSend s fn (fnPair s fn 0x1000 + 32 * (r.posted % 2 ^ log2)) (eventBytes e (phaseAt r.posted log2))
  let s := setEvt s fn { r with posted := r.posted + 1, unsignalled := u, timer := t }
  if fire then sendMsix s fn (fld (evtCfg s fn) 0 11) else s

/-- Counts an event lost by a ring (24 R535). -/
def evtLose (s : State) (fn : FnId) (seq : Nat) : State :=
  let r := evtOf s fn
  setEvt s fn { r with lost := min (r.lost + 1) 0xFFFF, firstLost := if r.lost = 0 then seq else r.firstLost }

/-- The EVENTS_LOST entry of a ring (24 R532, R535). -/
def lostEvent (s : State) (r : EvtRing) : Event :=
  { severity := 1, number := 23, seq := 0xFFFFFFFF, time := s.clk.grains.toNat, block := 0x10, facet := 0, tenant := 0xFF,
    detail := r.lost + r.firstLost * 2 ^ 32 }

/-- Writes EVENTS_LOST first when the ring has losses to report and room (24 R535); a function in D3hot writes nothing
(16 R350), nor does a fenced port (02 R46). -/
def evtReport (s : State) (fn : FnId) : State :=
  let r := evtOf s fn
  if r.lost ≠ 0 ∧ 1 ≤ evtRoom s fn ∧ (funcOf s fn).d3hot = false ∧ hostLive s (portFacet fn.port) = true then
    evtWrite (setEvt s fn { r with lost := 0, firstLost := 0 }) fn (lostEvent s r)
  else s

/-- Puts an event to an enabled ring: after any loss EVENTS_LOST goes first; without room, or on a fenced port, it is lost (24 R535). In D3hot it
waits, and goes on return to D0 (16 R350). -/
def evtPut (s : State) (fn : FnId) (e : Event) : State :=
  let s := evtReport s fn
  if (funcOf s fn).d3hot then setEvt s fn { evtOf s fn with waits := (evtOf s fn).waits ++ [e] }
  else if (evtOf s fn).lost = 0 ∧ 1 ≤ evtRoom s fn ∧ hostLive s (portFacet fn.port) = true then evtWrite s fn e else evtLose s fn e.seq

/-- The events that wait at a function are taken from it, and what `f` does with each is done, oldest first. -/
def evtDrain (s : State) (fn : FnId) (f : State → Event → State) : State :=
  (evtOf s fn).waits.foldl f (setEvt s fn { evtOf s fn with waits := [] })

/-- The events that wait at a function are lost (24 R535). -/
def evtDrop (s : State) (fn : FnId) : State := evtDrain s fn (fun s e => evtLose s fn e.seq)

/-- A function is back in D0: what its event ring has to report and what waited is written, in order (16 R350; 24 R533, R535). -/
def evtResume (s : State) (fn : FnId) : State :=
  if evtOn s fn ∧ (decide (fn.tenant = 0) || isSealedNow s) = true then evtDrain (evtReport s fn) fn (fun s e => evtPut s fn e)
  else evtDrop s fn

/-- Functions of a target: the owner's or a tenant's, on both ports. -/
def targetFns (t : Nat) : List FnId := [⟨0, t⟩, ⟨1, t⟩]

/-- Delivers an event of the owner: to every enabled owner ring on a port that is up and not fenced; with none, it is held, up to 64
(24 R533, R536). -/
def deliverOwner (s : State) (e : Event) : State :=
  let fns := (targetFns 0).filter (fun fn => evtOn s fn && linkOpen s fn.port)
  if fns.isEmpty then
    if s.rings.heldEvents.length < 64 then { s with rings := { s.rings with heldEvents := s.rings.heldEvents ++ [e] } }
    else (targetFns 0).foldl (fun s fn => evtLose s fn e.seq) s
  else fns.foldl (fun s fn => evtPut s fn e) s

/-- Delivers an event of a tenant: to every enabled ring of its functions while SEALED; otherwise it counts in LOST
(24 R533, R536). -/
def deliverTenant (s : State) (t : Nat) (e : Event) : State :=
  (targetFns t).foldl (fun s fn => if isSealedNow s && evtOn s fn then evtPut s fn e else evtLose s fn e.seq) s

/-- Sends an event to a target (24 R533): its SEQ counter rises by 1 whether or not the event is written anywhere. -/
def raise (s : State) (target : Nat) (c : EventCode) (block facet tenant detail : Nat) : State :=
  if !alive s then s
  else
    let seq := mapGet (fun _ => 0) s.rings.seqs target
    let e : Event := { severity := eventSeverity c, number := eventNumber c, seq := seq % 2 ^ 32,
                       time := s.clk.grains.toNat, block := block, facet := if block = 0x10 then 0 else facet,
                       tenant := tenant, detail := detail }
    let s := { s with rings := { s.rings with seqs := mapSet (fun _ => 0) s.rings.seqs target ((seq + 1) % 2 ^ 32) } }
    if target = 0 then deliverOwner s e else deliverTenant s target e

/-! ## Tenants' assignments in force (18) -/

/-- Partition mask in force of a tenant (18 R391). -/
def partsOf (s : State) (t : Nat) : Nat := pair (forceGet s) (0x4D000 + 8 * t)

/-- Group g of tenant t (14 R292). -/
def groupMask (s : State) (t g : Nat) : DWord := BitVec.ofNat 64 (pair (regGet s) (0x48000 + 128 * t + 8 * g))

/-- A region entry (18 R393): memory regions give base and length in bytes, flash regions the first block number
(channel, chip enable, LUN, block) and the number of blocks. -/
structure Region where
  valid : Bool
  kind : Nat
  base : Nat
  len : Nat
  deriving DecidableEq, Repr

/-- The region that four words spell (18 Table - TEN_REGION fields). -/
def regionFrom (g : Nat → Word) (key : Nat) : Region :=
  let k := fld (g (key + 12)) 24 2
  if k = 1 then ⟨bitOf (g (key + 12)) 31, 1, fld (g key) 0 26, (g (key + 8)).toNat⟩
  else ⟨bitOf (g (key + 12)) 31, k, fld (g key) 16 16 * 2 ^ 16 + fld (g (key + 4)) 0 16 * 2 ^ 32, (g (key + 8)).toNat * 2 ^ 16⟩

/-- Key of region r of tenant t. -/
def regionKey (t r : Nat) : Nat := 0x50000 + 256 * t + 16 * r

/-- Region r of tenant t as in force. -/
def regionOf (s : State) (t r : Nat) : Region := regionFrom (forceGet s) (regionKey t r)

/-- An access of n bytes at a lies wholly inside one valid memory region of the tenant (06 R127). -/
def inRegion (s : State) (t a n : Nat) : Bool :=
  (upto 16).any (fun r => let g := regionOf s t r
    g.valid && decide (g.kind = 0) && decide (g.base ≤ a) && decide (a + n ≤ g.base + g.len))

/-- Flash blocks first to last lie wholly inside one valid flash region of the tenant (07 R148). -/
def inFlashRegion (s : State) (t first last : Nat) : Bool :=
  (upto 16).any (fun r => let g := regionOf s t r
    g.valid && decide (g.kind = 1) && decide (g.base ≤ first) && decide (last < g.base + g.len))

/-! ## Device memory (06 R114 to R121, 08 R169) -/

/-- Where a device address lies (06 R114). -/
inductive Loc where
  | near (part off : Nat) | slice (n off : Nat) | hbm (f off : Nat) | lpddr (f off : Nat) | reserved
  deriving DecidableEq, Repr

/-- The tier of a device address (06 Table - Device address map). -/
def locOf (a : Nat) : Loc :=
  if a < 0x10000000 then .near (a / 0x400000) (a % 0x400000)
  else if a < 0x40000000 then .reserved
  else if a < 0x80000000 then .slice ((a - 0x40000000) / 0x800000) ((a - 0x40000000) % 0x800000)
  else if a < 0x1000000000 then .reserved
  else if a < 0x9000000000 then .hbm ((a - 0x1000000000) / 0x1000000000) ((a - 0x1000000000) % 0x1000000000)
  else if a < 0x10000000000 then .reserved
  else if a < 0x20000000000 then .lpddr ((a - 0x10000000000) / 0x2000000000) ((a - 0x10000000000) % 0x2000000000)
  else .reserved

/-- Bytes of a facet's HBM window that are memory (06 R115). -/
def hbmSize (s : State) (f : Nat) : Nat := regFld s (fKey f 0x20000) 8 8 * 2 ^ 30

/-- Bytes of a facet's LPDDR window that are memory (06 R119). -/
def lpSize (s : State) (f : Nat) : Nat := regFld s (fKey f 0x20004) 14 18 * 2 ^ 20

/-- Live LPDDR channels of a facet as self test left them, ascending local numbers (06 R120). -/
def lpChannels (s : State) (f : Nat) : List Nat := onesOf 8 (mapGet (fun _ => 0) s.mem.liveCh f)

/-- Where an offset of a facet's LPDDR window lies (06 R120): global channel, byte in the channel, and its check line. -/
def lpMap (s : State) (f a : Nat) : Nat × Nat × Nat :=
  let chs := lpChannels s f
  let b := a / 3968
  let l := chs.length
  (8 * f + chs.getD (b % l) 0, b / l * 4096 + a % 3968, b / l * 4096 + 3968)

/-- All n bytes at a are memory of one tier (06 R115). -/
def populated (s : State) (a n : Nat) : Bool :=
  match locOf a, locOf (a + n - 1) with
  | .near p _, .near q _ => decide (p = q)
  | .slice _ _, .slice _ _ => true
  | .hbm f off, .hbm g _ => decide (f = g) && decide (off + n ≤ hbmSize s f)
  | .lpddr f off, .lpddr g _ => decide (f = g) && decide (off + n ≤ lpSize s f)
  | _, _ => false

/-- Every unit that holds a byte of the range is live (06 R121). -/
def rangeLive (s : State) (a n : Nat) : Bool :=
  match locOf a with
  | .near p _ => partLive s p
  | .slice k off => (rangeFrom k ((off + n - 1) / 0x800000 + 1)).all (sliceLive s)
  | .hbm f _ => hbmLive s f
  | .lpddr f off =>
    (rangeFrom (off / 3968) (min ((off + n - 1) / 3968 - off / 3968 + 1) (lpChannels s f).length)).all
      (fun b => lpLive s (lpMap s f (b * 3968)).1)
  | .reserved => false

/-- The check of one access of a tenant to device memory: regions first, then the units (06 R121, R127; 18 R395). -/
def checkAccess (s : State) (t a n : Nat) : Option Status :=
  if n = 0 then none
  else if !inRegion s t a n then some .outOfRegion
  else if !populated s a n then some .outOfRegion
  else if !rangeLive s a n then some .tierFenced
  else none

/-- One byte of device memory; a byte nothing has written reads 0 (note 5). -/
def memByte (s : State) (a : Nat) : Byte := mapGet (fun _ => 0#8) s.mem.bytes a

/-- n bytes of device memory. -/
def memRead (s : State) (a n : Nat) : List Byte := (rangeFrom a n).map (memByte s)

/-- Size of the storage granule at an address (08 R169). -/
def granule (a : Nat) : Nat := match locOf a with | .hbm _ _ => 32 | .lpddr _ _ => 128 | _ => 8

/-- Bases of the granules that n bytes at a touch. -/
def granulesOf (a n : Nat) : List Nat :=
  let g := granule a
  (rangeFrom (a / g) ((a + n - 1) / g - a / g + 1)).map (· * g)

/-- Origin of the first poisoned granule of a range: stored poison, or cells in error (06 R122, 08 R168). -/
def memPoison (s : State) (a n : Nat) : Option Origin :=
  if n = 0 then none
  else (granulesOf a n).findSome? (fun g =>
    match look s.mem.poison g with
    | some o => some o
    | none => if s.mem.broken.contains g then some .memory else none)

/-- Bytes written one after another from an address. -/
def putBytes : KMap Byte → Nat → List Byte → KMap Byte
  | m, _, [] => m
  | m, a, b :: bs => putBytes (mapSet (fun _ => 0#8) m a b) (a + 1) bs

/-- The granule at g lies wholly inside the n bytes at a. -/
def covers (a n g : Nat) : Bool := decide (a ≤ g) && decide (g + granule a ≤ a + n)

/-- A clean write of n bytes at a: every granule is stored with a fresh code, so those covered whole lose their poison and all
lose their cell errors; a granule in uncorrectable error that is written in part holds stored poison from then on (06 R122, 08
R169). -/
def cleanWrite (m : Memory) (a n : Nat) : Memory :=
  if n = 0 then m
  else
    let gs := granulesOf a n
    let half := gs.filter (fun g => m.broken.contains g && !covers a n g)
    let p := (gs.filter (covers a n)).foldl (fun p g => remove p g) m.poison
    { m with poison := half.foldl (fun p g => place p g .memory) p,
             broken := m.broken.filter (fun g => !gs.contains g),
             weak := m.weak.filter (fun p => !gs.contains p.1) }

/-- Writes clean bytes to device memory. -/
def memWrite (s : State) (a : Nat) (d : List Byte) : State :=
  { s with mem := { cleanWrite s.mem a d.length with bytes := putBytes s.mem.bytes a d } }

/-- Poisons every granule of a range with an origin (08 R169). -/
def poisonRange (s : State) (a n : Nat) (o : Origin) : State :=
  if n = 0 then s
  else { s with mem := { s.mem with
    poison := (granulesOf a n).foldl (fun p g => place p g o) s.mem.poison
    broken := s.mem.broken.filter (fun g => !(granulesOf a n).contains g)
    weak := s.mem.weak.filter (fun p => !(granulesOf a n).contains p.1) } }

/-- Writes bytes that may carry poison (08 R169). -/
def memWriteP (s : State) (a : Nat) (d : List Byte) (p : Option Origin) : State :=
  match p with
  | none => memWrite s a d
  | some o => poisonRange { s with mem := { s.mem with bytes := putBytes s.mem.bytes a d } } a d.length o

/-- Facet where a device address lives, for counts and events. -/
def locFacet (a : Nat) : Nat :=
  match locOf a with
  | .near p _ => p / 8 | .slice k _ => k / 16 | .hbm f _ => f | .lpddr f _ => f | .reserved => 0

/-- Lowest bit of an origin's count in FAB_INT_POISON (08). -/
def poisonFld : Origin → Nat
  | .memory => 24 | .flash => 16 | .host => 8 | .fabric => 0

/-- BLOCK of POISON_SET by origin (24 Table - Event sources). -/
def poisonBlock : Origin → Nat
  | .memory => 2 | .flash => 3 | .host => 0xC | .fabric => 0

/-- A poisoning on a facet (08 R174): the origin count rises; POISON_SET goes to the owner and to the tenant whose request
read the data, for at most one poisoning per 100 microseconds (12,500 grains); a suppressed one counts in EVDROP. -/
def poisoning (s : State) (f : Nat) (o : Origin) (isFca : Bool) (addr : Nat) (tenant : Option Nat) : State :=
  let s := bump s (fKey f 0x00044) (poisonFld o) 8 1
  let now := s.clk.grains.toNat
  let quiet := match look s.mem.lastPoisonEvent f with | some g => decide (now < g + 12500) | none => false
  if quiet then bump s (fKey f 0x0004C) 0 32 1
  else
    let d := originCode o + (if isFca then 8 else 0) + (addr % 2 ^ 48) * 16
    let tn := match tenant with | some t => t | none => 0xFF
    let s := { s with mem := { s.mem with lastPoisonEvent := place s.mem.lastPoisonEvent f now } }
    let s := raise s 0 .poisonSet (poisonBlock o) f tn d
    match tenant with
    | some t => if t = 0 then s else raise s t .poisonSet (poisonBlock o) f tn d
    | none => s

/-- What the fabric did to the flits of one transfer to facet f (08 R165, R168, R176): replays of die-to-die flits are counted at the
facet that received them, corrections and uncorrectable flits at the destination; each flit among the latter whose poison flag is set
by that makes one poisoning, with the address of its first poisoned byte (R174). -/
def fabricMeets (s : State) (f : Nat) (seen : FabricSeen) (fresh : List Nat) (isFca : Bool) (addr : Nat → Nat) (tenant : Option Nat) : State :=
  let s := seen.replays.foldl (fun s r =>
    if r.1 < 8 ∧ r.2.1 < 4 ∧ (neighbour r.1 r.2.1).isSome then bump s (fKey r.1 0x00050) (24 - 8 * r.2.1) 8 r.2.2 else s) s
  let s := if seen.corrected = 0 then s else bump s (fKey f 0x00040) 16 16 seen.corrected
  let s := if seen.bad.isEmpty then s else bump s (fKey f 0x00040) 0 16 seen.bad.length
  fresh.foldl (fun s k => poisoning s f .fabric isFca (addr k) tenant) s

/-- Key of the MEM_ECC register of an address's tier, on its facet (06). -/
def eccKey (a : Nat) : Nat :=
  fKey (locFacet a) (match locOf a with | .hbm _ _ => 0x20010 | .lpddr _ _ => 0x20014 | _ => 0x20018)

/-- Number of a DRAM row in the row maps and the retired-row list. -/
def rowNo (r : RowId) : Nat := (if r.hbm then 1 else 0) + 2 * (r.unit + 64 * r.row)

/-- Facet of a DRAM row: HBM rows name the facet, LPDDR rows the global channel. -/
def rowFacet (r : RowId) : Nat := if r.hbm then r.unit else r.unit / 8

/-- One correction of a row (06 R124): at MEM_RETIRE_X.THRESH corrections since reset its retirement copy starts. -/
def rowCorrected (s : State) (r : RowId) : State :=
  let n := mapGet (fun _ => 0) s.mem.rowHits (rowNo r) + 1
  let s := { s with mem := { s.mem with rowHits := mapSet (fun _ => 0) s.mem.rowHits (rowNo r) n } }
  if regFld s (fKey (rowFacet r) 0x20084) 0 8 ≤ n ∧ !s.mem.copying.contains r ∧ !s.mem.retired.contains r then
    { s with mem := { s.mem with copying := s.mem.copying ++ [r] } }
  else s

/-- The row of an address: the command names an HBM row; an LPDDR row is a 2 KiB row of the channel (06 R124). -/
def rowAt (s : State) (a row : Nat) : Option RowId :=
  match locOf a with
  | .hbm f _ => some ⟨true, f, row⟩
  | .lpddr f off => let m := lpMap s f off; some ⟨false, m.1, m.2.1 / 2048⟩
  | _ => none

/-- The errors of one granule that a read corrects and counts (06 R122, R124): they stay in the cells. -/
def noteWeak (s : State) (g : Nat) : State :=
  match look s.mem.weak g with
  | none => s
  | some row =>
    let s := bump s (eccKey g) 16 16 1
    match rowAt s g row with | some r => rowCorrected s r | none => s

/-- Flit of a read's response that carries byte `o`: packets of 4,096 bytes, each a header flit with 192 bytes and then data
flits of 256 (04 R71; note 51). -/
def flitOf (o : Nat) : Nat := o / 4096 * 17 + (if o % 4096 < 192 then 0 else (o % 4096 - 192) / 256 + 1)

/-- First byte that flit `k` of a response carries. -/
def flitStart (k : Nat) : Nat := k / 17 * 4096 + (if k % 17 = 0 then 0 else 192 + (k % 17 - 1) * 256)

/-- Flits that carry bytes of granule `g` in a read of n bytes at a. -/
def granuleFlits (a n g : Nat) : List Nat :=
  let lo := flitOf (max g a - a)
  rangeFrom lo (flitOf (min (g + granule a) (a + n) - 1 - a) - lo + 1)

/-- A read of device memory for a request of a tenant: errors that it corrects are counted; granules whose cells are in error beyond
the code are counted once each, and make one poisoning for each flit that carries any of their bytes, at its first such byte (06
R122, 08 R174). -/
def noteRead (s : State) (t a n : Nat) : State :=
  if n = 0 then s
  else
    let s := ((s.mem.weak.map (·.1)).filter (granulesOf a n).contains).foldl noteWeak s
    let bad := (granulesOf a n).filter (fun g => s.mem.broken.contains g && (look s.mem.poison g).isNone)
    let s := bad.foldl (fun s g => bump s (eccKey g) 0 16 1) s
    let flits := (bad.flatMap (granuleFlits a n)).eraseDups
    flits.foldl (fun s k => poisoning s (locFacet a) .memory false
      (max (max ((bad.filter (fun g => (granuleFlits a n g).contains k)).headD a) a) (a + flitStart k)) (some t)) s

/-- The read that a write of part of a granule begins with (06 R122): granules of n bytes at a that are covered in part and whose
cells are in error are counted, and poison what is stored. -/
def noteParts (s : State) (t a n : Nat) : State :=
  if n = 0 then s
  else ((granulesOf a n).filter (fun g => !covers a n g)).foldl (fun s g => noteRead s t g (granule g)) s

/-! ## Rings (17) -/

/-- Number of ring r of a function. -/
def ringNo (fn : FnId) (r : Nat) : Nat := fnNo fn * 32 + r

/-- Reset of a submission ring. -/
def sqReset : SubRing := ⟨0#32, 0#32, .none, none⟩

/-- A submission ring by number. -/
def sqOf (s : State) (rk : Nat) : SubRing := mapGet (fun _ => sqReset) s.rings.sqs rk

/-- The state with a submission ring replaced. -/
def setSq (s : State) (rk : Nat) (v : SubRing) : State :=
  { s with rings := { s.rings with sqs := mapSet (fun _ => sqReset) s.rings.sqs rk v } }

/-- Reset of a completion ring. -/
def cqReset : CompRing := ⟨0, 0, 0, 0, false⟩

/-- A completion ring by number. -/
def cqOf (s : State) (rk : Nat) : CompRing := mapGet (fun _ => cqReset) s.rings.cqs rk

/-- The state with a completion ring replaced. -/
def setCq (s : State) (rk : Nat) (v : CompRing) : State :=
  { s with rings := { s.rings with cqs := mapSet (fun _ => cqReset) s.rings.cqs rk v } }

/-- The function of a ring number. -/
def ringFn (rk : Nat) : FnId := ⟨rk / 32 / 65, rk / 32 % 65⟩

/-- RNG_SQ_CFG by ring number. -/
def sqCfg (s : State) (rk : Nat) : Word := fnReg s (ringFn rk) (0x008 + 32 * (rk % 32))

/-- RNG_CQ_CFG by ring number. -/
def cqCfg (s : State) (rk : Nat) : Word := fnReg s (ringFn rk) (0x410 + 32 * (rk % 32))

/-- A submission ring is enabled. -/
def sqOn (s : State) (rk : Nat) : Bool := bitOf (sqCfg s rk) 31

/-- A completion ring is enabled. -/
def cqOn (s : State) (rk : Nat) : Bool := bitOf (cqCfg s rk) 31

/-- Ring number of the completion ring a submission ring is bound to. -/
def sqCq (s : State) (rk : Nat) : Nat := rk / 32 * 32 + fld (sqCfg s rk) 8 5

/-- Free room of a completion ring (17 R381): size - OWED - (POSTED - head). -/
def cqRoom (s : State) (rk : Nat) : Nat :=
  let c := cqOf s rk
  2 ^ fld (cqCfg s rk) 16 5 - c.owed - (c.posted - c.head)

/-- The 32 bytes of a completion entry (17 Table - Completion entry). -/
def completionBytes (result : List Nat) (user : DWord) (sqHead ring code slot : Nat) (more : Bool) (phase : Nat) : List Byte :=
  leBytes 4 (result.getD 0 0) ++ leBytes 4 (result.getD 1 0) ++ leBytes 4 (result.getD 2 0) ++ leBytes 4 (result.getD 3 0) ++
  leBytes 8 user.toNat ++ leBytes 2 sqHead ++ leBytes 1 ring ++ leBytes 1 code ++ leBytes 2 slot ++
  leBytes 1 (if more then 0x80 else 0) ++ leBytes 1 phase

/-- Transfers held on a strand lane pair (19 R423). -/
def pairHolds (s : State) (p : Nat) : Nat := ((s.strand.flows.filter (fun x => x.2.pair == p)).map (fun x => x.2.sent.length)).sum

/-- The one byte of host memory at an address as a request's reads returned it. -/
def hostByte (ps : List HostPiece) (a : Nat) : Option (Byte × ReadStatus) :=
  ps.findSome? (fun p => if p.addr ≤ a ∧ a < p.addr + p.data.length then
    some (p.data.getD (a - p.addr) 0#8, p.status) else none)

/-- Every byte of a read has come to its request. -/
def askHere (r : Request) (x : HostAsk) : Bool := (rangeFrom x.addr x.len).all (fun a => (hostByte r.hostIn a).isSome)

/-- A translation for this request gave no access to some of n bytes of host memory at a (16 R353; note 132). -/
def noAccess (r : Request) (a n : Nat) : Bool :=
  r.hostIn.any (fun p => p.status == .xlate && decide (p.addr < a + n) && decide (a < p.addr + p.data.length))

/-- Writes a completion entry, unless a translation gives no access to its address (17 R378) or the port is fenced (02 R46). -/
def writeEntry (s : State) (r : Request) (fn : FnId) (a : Nat) (bytes : List Byte) : State :=
  if noAccess r a 32 || !hostLive s (portFacet fn.port) then s else hostSend s fn a bytes

/-- Sends the message of a completion ring (17 R383): while the hallmark is not SEALED no completion ring raises one (16 R355; note 166). -/
def signalCq (s : State) (fn : FnId) (ck : Nat) : State := if isSealedNow s then sendMsix s fn (fld (cqCfg s ck) 0 11) else s

/-- Posts one entry of a request to its completion ring: it counts even where a translation gives no access to its address and it
is not written (17 R377, R378, R383). -/
def postEntry (s : State) (r : Request) (st : Status) (result : List Nat) (more : Bool) : State :=
  match r.source with
  | .peer _ => s
  | .ring fn ring index cq log2 =>
    let ck := ringNo fn cq
    let c := cqOf s ck
    let clog := fld (cqCfg s ck) 16 5
    let bytes := completionBytes result r.user ((sqOf s (ringNo fn ring)).fetch.toNat % 2 ^ 16) ring (statusCode st)
      (index.toNat % 2 ^ log2) more (phaseAt c.posted clog)
    let a := fnPair s fn (0x400 + 32 * cq) + 32 * (c.posted % 2 ^ clog)
    let s := writeEntry s r fn a bytes
    if r.noIrq then setCq s ck { c with posted := c.posted + 1 }
    else
      let (u, t, fire) := moderate (fnReg s fn (0x414 + 32 * cq)) c.unsignalled c.timer
      let s := setCq s ck { c with posted := c.posted + 1, unsignalled := u, timer := t }
      if fire then signalCq s fn ck else s

/-- One fewer completion owed to a ring. -/
def releaseOwed (s : State) (r : Request) : State :=
  match r.source with
  | .peer _ => s
  | .ring fn _ _ cq _ =>
    let c := cqOf s (ringNo fn cq)
    setCq s (ringNo fn cq) { c with owed := c.owed - 1 }

/-- The function of a request's ring is in D3hot. -/
def srcAsleep (s : State) (r : Request) : Bool :=
  match r.source with | .peer _ => false | .ring fn _ _ _ _ => (funcOf s fn).d3hot

/-- An empty slot. -/
def troyEmpty : TroySlot := ⟨.empty, none, 0, [], none, none, none, none⟩

/-- A troy slot. -/
def troyOf (s : State) (n : Nat) : TroySlot := mapGet (fun _ => troyEmpty) s.troy n

/-- The state with a troy slot replaced. -/
def setTroy (s : State) (n : Nat) (t : TroySlot) : State := { s with troy := mapSet (fun _ => troyEmpty) s.troy n t }

/-- The slot as a failed load leaves it (15 R324, R334): as it was after a SWAP beside the old image, else empty; requests that resolved the
old image keep it. -/
def afterFailure (t : TroySlot) (m : TroyMode) : TroySlot :=
  match m with
  | .swap => { t with load := none, claim := none }
  | _ => { t with load := none, claim := none, state := .empty, image := none, gen := t.gen + 1,
                  olds := t.olds ++ (match t.image with | some im => [(t.gen, im)] | none => []) }

/-- A slot once a request is gone that loaded it, unloaded it or waited for its switch: the load is given up (15 R334), an unload
goes on without a completion. -/
def slotWithout (tag : Nat) (t : TroySlot) : TroySlot :=
  let t := match t.load with
    | some l => if l.tag ≠ tag then t else afterFailure t l.mode
    | none => if t.claim = some tag then afterFailure t (if t.state = TroyState.loading then .inPlace else .swap) else t
  let t := if t.unload = some tag then { t with unload := some 65536 } else t
  match t.swapWait with
  | some (g, i, ws) => if g = tag then { t with swapWait := some (65536, i, ws) } else t
  | none => t

/-- Cold stripes copied and never scanned count on their facets (12 R262): a scan that has ended has read those of the chosen lists. -/
def countWaste (s : State) (j : SearchJob) : State :=
  j.copies.foldl (fun s c => if j.entries.isSome && (j.lists.getD []).contains c.list then s else bump s (fKey (c.facet % 8) 0x50028) 0 32 1) s

/-- Candidate slots discarded unconsumed count on their facets (12 R264). -/
def countSlots (s : State) (slots : List CandSlot) : State := slots.foldl (fun s c => bump s (fKey (c.facet % 8) 0x5002C) 0 32 1) s

/-- The list-buffer copies of a request that goes count where no scan read them. -/
def dropCopies (s : State) (tag : Nat) : State := match look s.searches tag with | some j => countWaste s j | none => s

/-- What was prefetched for a request and goes with it unused (12 R262, R264). -/
def dropPrefetch (s : State) (tag : Nat) : State :=
  let s := dropCopies s tag
  match look s.requests tag with
  | some r => match r.pipe with
    | some p => if p.slots.isEmpty then s
        else { countSlots s p.slots with requests := place s.requests tag { r with pipe := some { p with slots := [] } } }
    | none => s
  | none => s

/-- The work of the engines for a request goes with it. Flash reads under way are never cancelled: they lose their reader (12
R264), and what they deliver is dropped. -/
def dropJobs (s : State) (tag : Nat) : State :=
  let s := dropPrefetch s tag
  { s with
    troy := (s.troy.map (fun p => (p.1, slotWithout tag p.2))).filter (fun p => decide (p.2 ≠ troyEmpty)),
    gathers := remove s.gathers tag, selects := remove s.selects tag, searches := remove s.searches tag, mtx := remove s.mtx tag,
    prefills := remove s.prefills tag,
    pools := (remove s.pools tag).map (fun p => if p.2.leaving = some tag then (p.1, { p.2 with leaving := none }) else p),
    flash := { s.flash with
      reads := s.flash.reads.map (fun p => if p.2.reader = tag then (p.1, { p.2 with reader := 65536 }) else p),
      finished := s.flash.finished.filter (fun d => d.reader != tag) } }

/-- Ends a request: its tag is released and its final completion is posted with MORE 0 (17 R379, R384). A function in
D3hot posts it on its return to D0 (16 R350). -/
def endRequest (s : State) (tag : Nat) (st : Status) (result : List Nat) : State :=
  match look s.requests tag with
  | none => s
  | some r =>
    if srcAsleep s r then let s := dropJobs s tag; { s with parked := place s.parked tag (st, result) }
    else
      let s := postEntry s r st result false
      let s := dropJobs (releaseOwed s r) tag
      { s with requests := remove s.requests tag, parked := remove s.parked tag }

/-! ## Starting requests: SEAL, FENCE and header checks (17 R374, R376, R389) -/

/-- `b` is after `a` or equal to it, as free-running 32-bit indices. -/
def reached (a b : Word) : Bool := decide ((a - b).toNat < 2 ^ 31)

/-- The ring number and index of a request. -/
def ringOf (r : Request) : Option (Nat × Word) :=
  match r.source with | .peer _ => none | .ring fn ring index _ _ => some (ringNo fn ring, index)

/-- A FENCE other than the request itself holds it: the request's index is at or above a bound of its ring (17 R376). -/
def heldByFence (s : State) (tag : Nat) (r : Request) : Bool :=
  match ringOf r with
  | none => false
  | some (rk, i) => s.requests.any (fun p => p.1 != tag && match p.2.fence with
      | some h => h.bounds.any (fun b => b.1 == rk && reached i b.2)
      | none => false)

/-- The hallmark lets a request start (17 R389, 23 R519): SEALED, outside a drain for a request fetched during it; or NOP and
FENCE of the owner. -/
def sealAllows (s : State) (r : Request) : Bool :=
  (isSealedNow s && !(r.late && s.hmk.draining)) ||
    (decide (r.tenant = 0) && (decide (r.opcode = 0) || decide (r.opcode = 1)))

/-- A request that has not started may start now. -/
def mayStart (s : State) (tag : Nat) (r : Request) : Bool :=
  !r.started && sealAllows s r && !heldByFence s tag r && !srcAsleep s r && alive s

/-- Every predecessor of a FENCE has posted its final completion (17 R376). A pool that is attached counts as complete. -/
def fenceDone (s : State) (tag : Nat) (h : FenceHold) : Bool :=
  h.bounds.all (fun b =>
    (!sqOn s b.1 || reached (sqOf s b.1).fetch b.2) &&
    s.requests.all (fun p => p.1 == tag || p.2.attached || match ringOf p.2 with
      | some (rk, i) => rk != b.1 || reached i b.2
      | none => true))

/-- One action that is due: a held request starts or fails its header check, or a judged FENCE completes. -/
inductive Due where
  | start (tag : Nat) | fenceOk (tag : Nat)
  deriving DecidableEq, Repr

/-- The first action due. -/
def nextDue (s : State) : Option Due :=
  s.requests.findSome? (fun p =>
    if mayStart s p.1 p.2 then some (.start p.1)
    else match p.2.fence with
      | some h => if p.2.started && h.judged && !srcAsleep s p.2 && fenceDone s p.1 h then some (.fenceOk p.1) else none
      | none => none)

/-- Performs the actions due, at most n of them. -/
def settleN : Nat → State → State
  | 0, s => s
  | n + 1, s =>
    match nextDue s with
    | none => s
    | some (.fenceOk tag) => settleN n (endRequest s tag .ok [])
    | some (.start tag) =>
      match look s.requests tag with
      | none => s
      | some r =>
        match r.headFault with
        | some st => settleN n (endRequest s tag st [])
        | none => settleN n { s with requests := place s.requests tag { r with started := true } }

/-- Performs every action due: each request can start and complete once. -/
def settle (s : State) : State := settleN (2 * s.requests.length + 1) s

/-- Ends a request, then starts what waited for it (17 R376, R385). -/
def finish (s : State) (tag : Nat) (st : Status) (result : List Nat) : State := settle (endRequest s tag st result)

/-- Ends every request in flight with one status (02 R38, 03 Corners, 22 R496, 23 R519). -/
def endAll (s : State) (st : Status) : State :=
  (keysOf s.requests).foldl (fun s tag => endRequest s tag st []) s

/-- The request a tag names, started and of an opcode, when its meaning may run now. -/
def running (s : State) (tag opcode : Nat) : Option Request :=
  match look s.requests tag with
  | some r => if r.started && r.opcode == opcode && !srcAsleep s r && alive s then some r else none
  | none => none

/-- Replaces a request. -/
def setRequest (s : State) (tag : Nat) (r : Request) : State := { s with requests := place s.requests tag r }

end Sys2Proof.Machine
end

