-- ==== Sys2Proof/Machine/Crc.lean ====
section
/-! DEFINITION. Crc: CRC-32C (23 R513, 04 R85, 07 R145), the FCS of Ethernet (19 R408) and the Chain bus CRC-24 (21 R453), bit by bit. -/
namespace Sys2Proof.Machine

/-- One bit of a reflected CRC register of 32 bits. -/
def crcBit32 (c : BitVec 32) : BitVec 32 := if c.getLsbD 0 then (c >>> 1) ^^^ 0x82F63B78#32 else c >>> 1

/-- n bits of a reflected CRC register. -/
def crcBits32 : Nat → BitVec 32 → BitVec 32
  | 0, c => c
  | n + 1, c => crcBits32 n (crcBit32 c)

/-- One byte of CRC-32C: reflected polynomial 0x1EDC_6F41 (23 R513). -/
def crc32cByte (c : BitVec 32) (b : Byte) : BitVec 32 := crcBits32 8 (c ^^^ b.setWidth 32)

/-- CRC-32C of a byte string: initial value and final XOR 0xFFFF_FFFF (RFC 3720, 23 R513). -/
def crc32c (l : List Byte) : BitVec 32 := l.foldl crc32cByte 0xFFFFFFFF#32 ^^^ 0xFFFFFFFF#32

/-- CRC-32C of a blob with the four bytes at `off` taken as 0. -/
def crcBlanked (l : List Byte) (off : Nat) : BitVec 32 := crc32c (l.take off ++ [0#8, 0#8, 0#8, 0#8] ++ l.drop (off + 4))

/-- n bits of a reflected CRC register of polynomial 0x04C1_1DB7. -/
def fcsBits : Nat → BitVec 32 → BitVec 32
  | 0, c => c
  | n + 1, c => fcsBits n (if c.getLsbD 0 then (c >>> 1) ^^^ 0xEDB88320#32 else c >>> 1)

/-- The FCS of an Ethernet frame over the bytes before it (19 R408; IEEE 802.3). -/
def fcsOf (l : List Byte) : BitVec 32 :=
  l.foldl (fun c b => fcsBits 8 (c ^^^ b.setWidth 32)) 0xFFFFFFFF#32 ^^^ 0xFFFFFFFF#32

/-- One bit of the CRC-24 register: polynomial 0x86_4CFB, not reflected (21 R453). -/
def crcBit24 (c : BitVec 24) (b : Bool) : BitVec 24 :=
  if c.getLsbD 23 != b then (c <<< 1) ^^^ 0x864CFB#24 else c <<< 1

/-- CRC-24 of bits in wire order: the register starts at 0xB7_04CE, with no final XOR (21 R453). -/
def crc24 (bits : List Bool) : BitVec 24 := bits.foldl crcBit24 0xB704CE#24

/-- The n bits of a number, most significant first. -/
def msbFirst (n v : Nat) : List Bool := (upto n).map (fun i => nbit v (n - 1 - i))

end Sys2Proof.Machine
end

