-- ==== Sys2Proof/Machine/Signal.lean ====
section
/-! DEFINITION. Signal: how the Chain pair carries bits: ticks, samples and synchronisation of on-off keying, the GFSK symbols of the
data phase, and the bits of an asynchronous character (20 R433, R436 to R438, R446). Carrier is dominant and means 0. -/
namespace Sys2Proof.Machine

/-! ## On-off keying (R433) -/

/-- Majority of the three samples of a bit. -/
def majority (a b c : Bool) : Bool := (a && b) || (a && c) || (b && c)

/-- The bit receiver: whether a frame has started, the number that the next tick has in its bit, carrier at the end of the last tick,
the samples of the bit at ticks 7, 8 and 9, and the bits taken so far. -/
structure OokRx where
  started : Bool
  tick : Nat
  carrier : Bool
  s7 : Bool
  s8 : Bool
  s9 : Bool
  bits : List Bool
  deriving DecidableEq, Repr

/-- The bit receiver on an idle bus. -/
def ookIdle : OokRx := ⟨false, 0, false, false, false, false, []⟩

/-- The sample of a tick: it sees the carrier before an edge of the same tick (coincidence). -/
def ookSample (r : OokRx) : OokRx :=
  match r.tick with
  | 7 => { r with s7 := r.carrier }
  | 8 => { r with s8 := r.carrier }
  | 9 => { r with s9 := r.carrier }
  | _ => r

/-- The number that a tick takes when an edge is detected in it (resynchronisation): the nearer tick 0, of this bit or (16) of the
next, moves onto an edge within 2 ticks and by 2 ticks toward any other; DEDUCED (log 159): at 8 ticks from both, this bit's. -/
def ookResync (t : Nat) : Nat := if t ≤ 8 then t - 2 else if 14 ≤ t then 16 else t + 2

/-- The bit under way ends: carrier in the majority of its samples is 0. -/
def ookClose (r : OokRx) : OokRx := { r with bits := r.bits ++ [!majority r.s7 r.s8 r.s9] }

/-- One tick, at whose end carrier is detected or not. The first edge after bus idle starts a frame (hard synchronisation). -/
def ookTick (r : OokRx) (carrier : Bool) : OokRx :=
  let edge := !r.carrier && carrier
  if !r.started then (if edge then { r with started := true, tick := 1, carrier := true } else { r with carrier := carrier })
  else
    let r := ookSample r
    let t := if edge then ookResync r.tick else r.tick
    let r := { r with carrier := carrier }
    if t = 16 then { ookClose r with tick := 1 }
    else if t = 15 then { ookClose r with tick := 0 }
    else { r with tick := t + 1 }

/-- The bits of a frame's OOK part from its start-of-frame bit on, read from carrier detect tick by tick. -/
def ookBits (ticks : List Bool) : List Bool := (ticks.foldl ookTick ookIdle).bits

/-- Bits as their sender keys them: 16 ticks each, with carrier for 0. -/
def ookTicks (bits : List Bool) : List Bool := bits.flatMap (fun b => List.replicate 16 (!b))

/-- The sample of a tick of a trace whose first element is tick 0: carrier at the end of the tick before. -/
def sampleAt (ticks : List Bool) (n : Nat) : Bool := ticks.getD (n - 1) false

/-- The bit of 16 ticks from tick k of a trace on, with no resynchronisation. -/
def bitAt (ticks : List Bool) (k : Nat) : Bool :=
  !majority (sampleAt ticks (k + 7)) (sampleAt ticks (k + 8)) (sampleAt ticks (k + 9))

/-- A sender of bits that hears others lost arbitration: it sent a 1 and sampled a 0 (21 R457). -/
def lostArb (sent heard : List Bool) : Bool := (sent.zip heard).any (fun p => p.1 && !p.2)

/-! ## The data phase (R436, R437) -/

/-- Offset of a 2-GFSK symbol from 6.000 MHz, in kHz. -/
def gfsk2 (b : Bool) : Int := if b then 250 else -250

/-- Offset of a 4-GFSK symbol from 6.000 MHz, in kHz; the first bit is the more significant. -/
def gfsk4 : Bool → Bool → Int
  | false, true => 375
  | false, false => 125
  | true, false => -125
  | true, true => -375

/-- Offsets of the symbols that carry bits pair by pair. -/
def pairSymbols : List Bool → List Int
  | a :: b :: r => gfsk4 a b :: pairSymbols r
  | _ => []

/-- Offsets of the symbols that carry data bits, in 4-GFSK or in 2-GFSK. -/
def symbols (rate4 : Bool) (bits : List Bool) : List Int := if rate4 then pairSymbols bits else bits.map gfsk2

/-- The preamble: 16 bits that alternate, from 1. -/
def preamble : List Bool := (upto 16).map (fun i => i % 2 == 0)

/-- The sync word that announces the rate of the data bits. -/
def syncWord (rate4 : Bool) : Nat := if rate4 then 0x6C4A else 0x93B5

/-- The data phase as it is sent: preamble and sync word in 2-GFSK, the data bits at their rate, and a tail that repeats the final
data symbol twice. -/
def dataPhase (rate4 : Bool) (bits : List Bool) : List Int :=
  let d := symbols rate4 bits
  (preamble ++ msbFirst 16 (syncWord rate4)).map gfsk2 ++ d ++ List.replicate 2 (d.getLastD 0)

/-- The rate that a sync word announces: of the pattern from which at most 1 of its bits differs; none is accepted otherwise. -/
def syncRate (w : BitVec 16) : Option Bool :=
  let off := fun (r : Bool) => popN 16 (w ^^^ BitVec.ofNat 16 (syncWord r)).toNat
  if off false ≤ 1 then some false else if off true ≤ 1 then some true else none

/-- The bit of a 2-GFSK symbol. -/
def readSym2 (f : Int) : Option Bool := if f = 250 then some true else if f = -250 then some false else none

/-- The two bits of a 4-GFSK symbol. -/
def readSym4 (f : Int) : Option (Bool × Bool) :=
  if f = 375 then some (false, true) else if f = 125 then some (false, false)
  else if f = -125 then some (true, false) else if f = -375 then some (true, true) else none

/-- The data bits of demodulated symbols; none where an offset is not of the mode's table. -/
def readSymbols (rate4 : Bool) : List Int → Option (List Bool)
  | [] => some []
  | f :: r =>
    match readSymbols rate4 r with
    | none => none
    | some bits =>
      if rate4 then (readSym4 f).map (fun p => p.1 :: p.2 :: bits) else (readSym2 f).map (fun b => b :: bits)

/-- Value of bits, most significant first. -/
def bitsNat (l : List Bool) : Nat := l.foldl (fun v b => 2 * v + (if b then 1 else 0)) 0

/-- Bytes of n octets of bits, each most significant bit first. -/
def octets : Nat → List Bool → List Byte
  | 0, _ => []
  | n + 1, l => BitVec.ofNat 8 (bitsNat (l.take 8)) :: octets n (l.drop 8)

/-! ## Characters (R446, R447) -/

/-- The majority of a character's start bit is 0. -/
def startZero (c : CharSeen) : Bool := !bitAt c.ticks 0

/-- The data bits of a character, least significant first. -/
def charData (c : CharSeen) : Byte :=
  BitVec.ofNat 8 (bitsNat ((upto 8).map (fun i => bitAt c.ticks (16 * (8 - i)))))

/-- Tick of the stop bit at which a carrier onset is detected, the first if several. -/
def charOnset (c : CharSeen) : Option Nat :=
  (upto 16).find? (fun k => !sampleAt c.ticks (144 + k) && sampleAt c.ticks (145 + k))

/-- The stop bit's sample at one of its ticks is 1. -/
def stopOne (c : CharSeen) (k : Nat) : Bool := !sampleAt c.ticks (144 + k)

end Sys2Proof.Machine
end

