-- ==== Sys2Proof/Machine/Chain.lean ====
section
/-! DEFINITION. Chain: the Chain tap's registers, its queue of pending frames, arbitration outcomes and the enumeration chain
(20 R441, R444; 21 R455 to R468), shared by every meaning that touches the bus. -/
namespace Sys2Proof.Machine

/-- The state with the tap replaced. -/
def setChain (s : State) (c : Chain) : State := { s with chain := c }

/-- Key of a chain register. -/
def cKey (off : Nat) : Nat := aKey (0xD0000 + off)
/-- Key of the control word of transmit buffer b. -/
def txbKey (b : Nat) : Nat := cKey (0x100 + 128 * b)
/-- Key of the CFG word of receive buffer b; buffer 16 is the foreign buffer. -/
def rxbKey (b : Nat) : Nat := cKey (0x800 + 128 * b)
/-- The package's Chain address; 0 means unassigned (R455). -/
def chainAddr (s : State) : Nat := regFld s (cKey 0x20) 0 7
/-- ENUM_IN as filtered (R466). -/
def enumIn (s : State) : Bool := bitOf (regGet s (cKey 0x20)) 17
/-- MODE of the last ENUM_START taken is contention (R467). -/
def contention (s : State) : Bool := bitOf (regGet s (cKey 0x20)) 8
/-- The transmitter is cut (R464). -/
def txCut (s : State) : Bool := bitOf (regGet s (cKey 0x24)) 31
/-- An event of the Chain block to the owner. -/
def chainEvent (s : State) (c : EventCode) (detail : Nat) : State := raise s 0 c 0xD (activeFacet s) 0xFF detail

/-- The level that ENUM_OUT must have (R466, 02 R54): a dead package passes ENUM_IN on. -/
def enumLevel (s : State) : Bool :=
  if !s.supply.powerGood || s.supply.thermtrip then false
  else if s.assay.dead.isSome then enumIn s
  else s.assay.ready && decide (chainAddr s ≠ 0) && enumIn s

/-- Drives ENUM_OUT. -/
def driveEnum (s : State) : State :=
  let v := enumLevel s
  if bitOf (regGet s (cKey 0x20)) 16 = v then s
  else emit (regSetFld s (cKey 0x20) 16 1 (if v then 1 else 0)) (.enumOut v)

/-! ## Pending frames (R460 to R463, R471, R472) -/

/-- Identifier of a pending frame as its next attempt forms it (R451, R472). -/
def identOf (s : State) (u : ChainUse) : Nat :=
  match u with
  | .owner b => regFld s (txbKey b) 24 3 * 2 ^ 13 + regFld s (txbKey b) 16 6 * 2 ^ 7 + chainAddr s
  | .claim => 2 * 2 ^ 13 + 2 * 2 ^ 7
  | .depart _ => 1 * 2 ^ 13 + 5 * 2 ^ 7 + chainAddr s

/-- The n bytes that sixteen payload words hold from a key on. -/
def payloadAt (s : State) (key n : Nat) : List Byte := ((upto 16).flatMap (fun w => leBytes 4 (regGet s (key + 4 * w)).toNat)).take n

/-- Payload of a pending frame. -/
def framePayload (s : State) (u : ChainUse) : List Byte :=
  match u with
  | .owner b => payloadAt s (txbKey b + 0x40) (regFld s (txbKey b) 0 7)
  | .claim => []
  | .depart st => [BitVec.ofNat 8 (regFld s 0x70020 0 6), BitVec.ofNat 8 st, 0#8, 0#8, 0#8, 0#8, 0#8, 0#8]

/-- Serial of a pending frame: a CLAIM's only. -/
def frameSerial (s : State) (u : ChainUse) : Option Nat :=
  match u with | .claim => some s.mfg.serial.toNat | _ => none

/-- Length code of a payload length (R452); 15 where no code gives the length. -/
def lengthCode (n : Nat) : Nat :=
  if n ≤ 8 then n
  else match n with | 12 => 9 | 16 => 10 | 24 => 11 | 32 => 12 | 48 => 13 | 64 => 14 | _ => 15

/-- Payload length of a length code; 15 gives none (R452). -/
def codeLength (c : Nat) : Option Nat :=
  if c ≤ 8 then some c
  else match c with | 9 => some 12 | 10 => some 16 | 11 => some 24 | 12 => some 32 | 13 => some 48 | 14 => some 64 | _ => none

/-- The bits of a frame before its switch bit: start of frame, identifier and claim serial (R451). -/
def headBits (ident : Nat) (serial : Option Nat) : List Bool :=
  false :: (msbFirst 16 ident ++ (match serial with | some v => msbFirst 64 v | none => []))

/-- The data bits of a frame: length code, payload and CRC-24 (R451). -/
def dataBits (payload : List Byte) (crc : BitVec 24) : List Bool :=
  msbFirst 4 (lengthCode payload.length) ++ payload.flatMap (fun b => msbFirst 8 b.toNat) ++ msbFirst 24 crc.toNat

/-- CRC-24 of a frame: identifier, claim serial, length code and payload in wire order (R453). -/
def frameCrc (ident : Nat) (serial : Option Nat) (payload : List Byte) : BitVec 24 :=
  crc24 (msbFirst 16 ident ++ (match serial with | some v => msbFirst 64 v | none => []) ++ msbFirst 4 (lengthCode payload.length) ++
    payload.flatMap (fun b => msbFirst 8 b.toNat))

/-- The CRC-24 that a pending frame carries. -/
def pendingCrc (s : State) (u : ChainUse) : BitVec 24 := frameCrc (identOf s u) (frameSerial s u) (framePayload s u)

/-- The bits that a pending frame sends before its switch bit. -/
def pendingHead (s : State) (u : ChainUse) : List Bool := headBits (identOf s u) (frameSerial s u)

/-- A pending frame as it leaves (R451): its fields, its OOK part up to the switch bit's carrier as ticks (20 R433, R435), and its data
phase as symbol offsets (20 R436, R437) at the rate of RATE4 (20 R439). -/
def wireFrame (s : State) (u : ChainUse) : Out :=
  .chainFrame (identOf s u) (frameSerial s u) (lengthCode (framePayload s u).length) (framePayload s u) (pendingCrc s u)
    (ookTicks (pendingHead s u ++ [false])) (dataPhase (bitOf (regGet s (cKey 0)) 0) (dataBits (framePayload s u) (pendingCrc s u)))

/-- A pending frame is offered now (R455, R471): a CLAIM always, any other only while SEALED with an address. -/
def offered (s : State) (u : ChainUse) : Bool :=
  match u with | .claim => true | _ => isSealedNow s && decide (chainAddr s ≠ 0)

/-- The frame to send (R461): the lowest identifier offered, the earliest of equal ones. -/
def bestPending (s : State) : Option ChainPending :=
  (s.chain.queue.filter (fun p => offered s p.use)).foldl (fun best p => match best with
    | none => some p
    | some q => if identOf s p.use < identOf s q.use then some p else some q) none

/-- STATE of a transmit buffer shows where its frame stands; frames of the package itself have none. -/
def showTx (s : State) (u : ChainUse) (st : Nat) : State :=
  match u with | .owner b => regSetFld s (txbKey b) 8 4 st | _ => s

/-- The state with one pending frame replaced. -/
def setPending (s : State) (p : ChainPending) : State :=
  setChain s { s.chain with queue := s.chain.queue.map (fun q => if q.use = p.use then p else q) }
/-- The state with a pending frame gone. -/
def dropPending (s : State) (u : ChainUse) : State :=
  setChain s { s.chain with queue := s.chain.queue.filter (fun q => q.use != u) }
/-- A frame becomes pending; one that was to go after its attempt stays. -/
def addPending (s : State) (u : ChainUse) : State :=
  if s.chain.queue.any (fun q => q.use == u) then
    setChain s { s.chain with queue := s.chain.queue.map (fun q => if q.use = u then { q with drop := false } else q) }
  else showTx (setChain s { s.chain with queue := s.chain.queue ++ [⟨u, 0, 0, false, false⟩] }) u 1

/-- A pending frame is withdrawn (R462): at once, or once the attempt under way fails. -/
def withdraw (s : State) (u : ChainUse) : State :=
  match s.chain.queue.find? (fun q => q.use == u) with
  | none => s
  | some p =>
    if s.chain.sending = some u then setPending s { p with drop := true }
    else showTx (dropPending s u) u 4

/-- The attempt under way failed (R460, R462, R463). `won` tells that it won arbitration and went unacknowledged. -/
def attemptFailed (s : State) (won : Bool) : State :=
  match s.chain.sending with
  | none => s
  | some u =>
    let s := setChain s { s.chain with sending := none }
    match s.chain.queue.find? (fun q => q.use == u) with
    | none => s
    | some p =>
      let n := if won then p.unacked + 1 else 0
      let stall := decide (16 ≤ n) && !p.stalled
      let s := if stall then chainEvent s .chainTxStall (identOf s u) else s
      if p.drop then showTx (dropPending s u) u 4
      else showTx (setPending s { p with unacked := n, stalled := p.stalled || stall }) u 1

/-- The attempt under way is abandoned (20 Corners): the frame stays pending. -/
def attemptAbandoned (s : State) : State := attemptFailed s false

/-! ## Claiming (R465 to R468) -/

/-- An unassigned package claims (R467): an ENUM_START is obeyed and, in chain mode, ENUM_IN is high. -/
def claims (s : State) : Bool := s.chain.claiming && decide (chainAddr s = 0) && (contention s || enumIn s)

/-- Starts or withdraws a CLAIM as the package claims or not; a CLAIM that succeeded waits for its ASSIGN. -/
def settleClaim (s : State) : State :=
  if claims s then (if s.chain.claimWait then s else addPending s .claim) else withdraw s .claim

/-- A new address (R465, R468). -/
def setAddress (s : State) (a : Nat) : State :=
  let s := regSetFld (regSetFld s (cKey 0x20) 0 7 a) (cKey 0x20) 31 1 (if a = 0 then 0 else 1)
  driveEnum s

end Sys2Proof.Machine
end

