-- ==== Sys2Proof/Machine/Coherence.lean ====
section
/-! DEFINITION. Coherence: the homes and the partition data caches (05 R94 to R111), as shared operations. A line is named by
its number, address div 128. Messages from one sender to one receiver about lines of one home travel in order (04 R73);
messages of different pairs have no order (03 R60). -/
namespace Sys2Proof.Machine

/-- Replaces the coherence part of the state. -/
def setCoh (s : State) (c : Coherence) : State := { s with coh := c }

/-- Address of a line. -/
def lineAddr (l : Nat) : Nat := l * 128

/-- Home of a line (05 Model): 2 f for the HBM home of facet f, 2 f + 1 for its LPDDR home; none when not cacheable. -/
def homeOf (l : Nat) : Option Nat :=
  match locOf (lineAddr l) with
  | .hbm f _ => some (2 * f) | .lpddr f _ => some (2 * f + 1) | _ => none

/-- Directory entry of a line. -/
def dirOf (s : State) (l : Nat) : Dir := mapGet (fun _ => Dir.invalid) s.coh.dir l

/-- Sets the directory entry of a line. -/
def setDir (s : State) (l : Nat) (d : Dir) : State :=
  setCoh s { s.coh with dir := mapSet (fun _ => Dir.invalid) s.coh.dir l d }

/-- An empty data cache. -/
def cacheReset : Cache := ⟨[], [], []⟩

/-- A partition's data cache. -/
def cacheOf (s : State) (p : Nat) : Cache := mapGet (fun _ => cacheReset) s.coh.caches p

/-- Replaces a partition's data cache. -/
def setCache (s : State) (p : Nat) (c : Cache) : State :=
  setCoh s { s.coh with caches := mapSet (fun _ => cacheReset) s.coh.caches p c }

/-- Sends a coherence message. -/
def cohSend (s : State) (m : CohMsg) : State := setCoh s { s.coh with net := s.coh.net ++ [m] }

/-- Line of a message, and the cache it goes to, if it goes to a cache. -/
def toCache : CohMsg → Option (Nat × Nat)
  | .grant _ l t _ _ => some (l, t.part) | .fwdS l p _ => some (l, p) | .fwdO l p _ => some (l, p)
  | .inv l p _ => some (l, p) | .wbAck l t => some (l, t.part) | _ => none

/-- Line of a message, and the cache it comes from, if it goes to a home. -/
def fromCache : CohMsg → Option (Nat × Nat)
  | .fwdData l p _ _ _ _ => some (l, p) | .ackInv l p _ => some (l, p) | _ => none

/-- Takes the first message of a list that satisfies `sel`, if it also satisfies `want`. -/
def takeFirst (sel want : CohMsg → Bool) : List CohMsg → Option (CohMsg × List CohMsg)
  | [] => none
  | m :: ms =>
    if sel m then (if want m then some (m, ms) else none)
    else match takeFirst sel want ms with
      | some (x, r) => some (x, m :: r)
      | none => none

/-- Delivers to partition p the next message of the home of line l, if it is the wanted one. -/
def recvCache (s : State) (l p : Nat) (want : CohMsg → Bool) : Option (CohMsg × State) :=
  let sel := fun m => match toCache m with | some (k, q) => q == p && homeOf k == homeOf l | none => false
  match takeFirst sel want s.coh.net with
  | some (m, net) => some (m, setCoh s { s.coh with net := net })
  | none => none

/-- Delivers to the home of line l the next answer of partition p, if it is the wanted one. -/
def recvHome (s : State) (l p : Nat) (want : CohMsg → Bool) : Option (CohMsg × State) :=
  let sel := fun m => match fromCache m with | some (k, q) => q == p && homeOf k == homeOf l | none => false
  match takeFirst sel want s.coh.net with
  | some (m, net) => some (m, setCoh s { s.coh with net := net })
  | none => none

/-- A line as memory holds it, with its poison. -/
def lineOfMem (s : State) (l : Nat) : List Byte × Option Origin :=
  (memRead s (lineAddr l) 128, memPoison s (lineAddr l) 128)

/-- Writes a line to memory. -/
def lineToMem (s : State) (l : Nat) (d : List Byte × Option Origin) : State := memWriteP s (lineAddr l) d.1 d.2

/-- One discard under R106 at the home of a line. -/
def countStale (s : State) (l : Nat) : State :=
  match homeOf l with
  | some h => bump s (fKey (h / 2) 0x20F00) (if h % 2 = 0 then 0 else 16) 16 1
  | none => s

/-- Bytes of `d` with `n` written at offset `off`. -/
def mergeAt (d : List Byte) (off : Nat) (n : List Byte) : List Byte := d.take off ++ n ++ d.drop (off + n.length)

/-- Result of an I/O read. -/
def ioResult (s : State) (id : Nat) (d : List Byte × Option Origin) : State :=
  setCoh s { s.coh with ioDone := s.coh.ioDone ++ [(id, d.1, d.2)] }

/-- The tenant that holds a partition (18 R391): the first whose mask in force names it. -/
def partTenant (s : State) (p : Nat) : Option Nat := (upto 65).find? (fun t => (partsOf s t).testBit p)

/-- The tenant a request to a home acts for. -/
def reqTenant (s : State) : LineReq → Nat
  | .rdS t => (partTenant s t.part).getD 0 | .rdO t => (partTenant s t.part).getD 0 | .upg t => (partTenant s t.part).getD 0
  | .io _ t _ => t | .post t _ _ => t
  | .nsFill p _ => (partTenant s p).getD 0 | .nsDrain p _ => (partTenant s p).getD 0

/-- What a request reads from memory, and the errors such a read meets are counted (06 R122, 08 R174). -/
def noteLine (s : State) (l : Nat) (req : LineReq) : State :=
  let t := reqTenant s req
  match req with
  | .upg _ => s
  | .io _ _ (.write off n) => noteParts s t (lineAddr l + off) (n.take (128 - off)).length
  | .post _ off n => noteParts s t (lineAddr l + off) (n.take (128 - off)).length
  | .nsDrain p near => noteRead s t (p * 0x400000 + near) 128
  | _ => noteRead s t (lineAddr l) 128

/-- A request when no cache stands in its way and the line's data is `d` (05 R98, R108, R109): the grant, the I/O result, or
the write. `keeps` is the owner that stays in S. -/
def grantReq (s : State) (l : Nat) (req : LineReq) (d : List Byte × Option Origin) (keeps : Option Nat) : State :=
  let kept : Nat := match keeps with | some p => 2 ^ p | none => 0
  match req with
  | .rdS tid =>
    match dirOf s l, keeps with
    | .invalid, none => cohSend (setDir s l (.owned tid.part)) (.grant .dataE l tid d.1 d.2)
    | .shared v, none => cohSend (setDir s l (.shared (setBit v tid.part true))) (.grant .dataS l tid d.1 d.2)
    | _, _ => cohSend (setDir s l (.shared (setBit (BitVec.ofNat 64 kept) tid.part true))) (.grant .dataS l tid d.1 d.2)
  | .rdO tid => cohSend (setDir s l (.owned tid.part)) (.grant .dataM l tid d.1 d.2)
  | .upg tid => cohSend (setDir s l (.owned tid.part)) (.grant .grantM l tid [] none)
  | .io id _ .read =>
    let s := match keeps with | some p => setDir s l (.shared (BitVec.ofNat 64 (2 ^ p))) | none => s
    ioResult s id d
  | .io id _ (.write off n) =>
    let s := memWrite s (lineAddr l + off) (n.take (128 - off))
    ioResult (setDir s l .invalid) id ([], none)
  | .post _ off n => setDir (memWrite s (lineAddr l + off) (n.take (128 - off))) l .invalid
  | .nsFill part near =>
    let s := match keeps with | some p => setDir s l (.shared (BitVec.ofNat 64 (2 ^ p))) | none => s
    memWriteP s (part * 0x400000 + near) d.1 d.2
  | .nsDrain part near =>
    let a := part * 0x400000 + near
    setDir (memWriteP s (lineAddr l) (memRead s a 128) (memPoison s a 128)) l .invalid

/-- The partitions a sharer vector names. -/
def sharersOf (v : DWord) : List Nat := onesOf 64 v.toNat

/-- Starts a transaction that waits for answers of `ps`. -/
def awaitFrom (s : State) (l : Nat) (req : LineReq) (ps : List Nat) : State :=
  setCoh s { s.coh with txn := place s.coh.txn l ⟨req, ps, none, none⟩ }

/-- TID a forward or INV of a request carries. -/
def reqTid : LineReq → Tid
  | .rdS t => t | .rdO t => t | .upg t => t | .io _ _ _ => ⟨0, 0⟩ | .post _ _ _ => ⟨0, 0⟩
  | .nsFill p _ => ⟨p, 0⟩ | .nsDrain p _ => ⟨p, 0⟩

/-- A request that only reads asks an owner to keep the line in S. -/
def readsOnly : LineReq → Bool
  | .rdS _ => true | .io _ _ .read => true | .nsFill _ _ => true | _ => false

/-- A line that an owner supplied goes to memory before a read is answered, and before an I/O write merges into it (05 R98, R108). -/
def toMemFirst : LineReq → Bool
  | .io _ _ _ => true | .post _ _ _ => true | r => readsOnly r

/-- A request is answered from memory. -/
def grantMem (s : State) (l : Nat) (req : LineReq) : State := grantReq (noteLine s l req) l req (lineOfMem s l) none

/-- The request that a partition's array works for. -/
def partTag (s : State) (p : Nat) : Option Nat :=
  (s.mtx.find? (fun j => match j.2.run with | some r => (look r.busy p).isSome | none => false)).map (·.1)

/-- An access of partition code fails (05 R109; 06 R121, R127): it is listed with its status, and the request that the partition works for
fails with it. -/
def partFault (s : State) (p : Nat) (st : Status) : State :=
  let s := setCoh s { s.coh with nsFaults := s.coh.nsFaults ++ [(p, st)] }
  match partTag s p with
  | some tag =>
    match look s.requests tag with
    | some r => match r.pipe with
      | some q => setRequest s tag { r with pipe := some { q with done := some ([], st) } }
      | none => finish s tag st []
    | none => s
  | none => s

/-- A request that waited at its home when its unit was fenced fails with TIER_FENCED, and no byte moves (06 R121). -/
def failReq (s : State) (req : LineReq) : State :=
  let miss := fun (t : Tid) =>
    partFault (setCache s t.part { cacheOf s t.part with misses := remove (cacheOf s t.part).misses t.entry }) t.part .tierFenced
  match req with
  | .rdS t => miss t
  | .rdO t => miss t
  | .upg t => miss t
  | .io id _ _ => setCoh s { s.coh with ioFaults := s.coh.ioFaults ++ [(id, .tierFenced)] }
  | .nsFill p _ => partFault s p .tierFenced
  | .nsDrain p _ => partFault s p .tierFenced
  | .post _ _ _ => s

/-- The home takes a request for a line with no transaction in progress (05 R98, R108). An UPG of a cache that is no longer
a sharer is treated as RD_O. A fenced partition holds no line: one that it owned is poisoned and answered from memory (05
Corners). -/
def startReq (s : State) (l : Nat) (req : LineReq) : State :=
  let req := match req, dirOf s l with
    | .upg t, .shared v => if bitOf v t.part then req else .rdO t
    | .upg t, _ => .rdO t
    | _, _ => req
  let mine : Option Nat := match req with | .rdO t => some t.part | .upg t => some t.part | _ => none
  match dirOf s l with
  | .invalid => grantMem s l req
  | .shared v =>
    let others := (sharersOf v).filter (fun p => mine != some p && partLive s p)
    if readsOnly req || others.isEmpty then grantMem s l req
    else (others.foldl (fun s p => cohSend s (.inv l p (reqTid req))) (awaitFrom s l req others))
  | .owned p =>
    if !partLive s p then grantMem (setDir (poisonRange s (lineAddr l) 128 .memory) l .invalid) l req
    else cohSend (awaitFrom s l req [p]) (if readsOnly req then .fwdS l p (reqTid req) else .fwdO l p (reqTid req))

/-- Requests waiting at a home. -/
def queuedAt (s : State) (h : Nat) : Nat :=
  ((s.coh.queue.filter (fun q => homeOf q.1 == some h)).map (fun q => q.2.length)).sum

/-- A request joins the line's queue when a transaction is in progress or others wait; otherwise it starts (05 R101). -/
def submitReq (s : State) (l : Nat) (req : LineReq) : State :=
  match homeOf l with
  | none => s
  | some h =>
    let q := mapGet (fun _ => []) s.coh.queue l
    if (look s.coh.txn l).isSome || !q.isEmpty then
      let s := setCoh s { s.coh with queue := mapSet (fun _ => []) s.coh.queue l (q ++ [req]) }
      peak s (fKey (h / 2) 0x20F04) (if h % 2 = 0 then 0 else 16) 13 (queuedAt s h)
    else startReq s l req

/-- The home starts a request that waited, unless the line's unit was fenced meanwhile (06 R121). -/
def startQueued (s : State) (l : Nat) (req : LineReq) : State :=
  if rangeLive s (lineAddr l) 128 then startReq s l req else failReq s req

/-- Starts waiting requests of a line until one must wait for answers, at most n of them. -/
def serveQueue : Nat → State → Nat → State
  | 0, s, _ => s
  | n + 1, s, l =>
    if (look s.coh.txn l).isSome then s
    else match mapGet (fun _ => []) s.coh.queue l with
      | [] => s
      | r :: rs =>
        serveQueue n (startQueued (setCoh s { s.coh with queue := mapSet (fun _ => []) s.coh.queue l rs }) l r) l

/-- What a partition issued is still to be accepted or performed (03 R61, 05 R111): near-store transfers, writebacks, its answers to
forwards and INVs on their way, and stores that wait for a grant in its miss registers. -/
def nsPending (s : State) (p : Nat) : Bool :=
  let mine := fun (r : LineReq) => match r with
    | .nsFill q _ => q == p | .nsDrain q _ => q == p | _ => false
  s.coh.txn.any (fun t => mine t.2.req) || s.coh.queue.any (fun q => q.2.any mine) || s.coh.waits.any (fun w => mine w.2) ||
  !(cacheOf s p).wbs.isEmpty || (cacheOf s p).misses.any (fun m => m.2.store.isSome) ||
  s.coh.net.any (fun m => match fromCache m with | some (_, q) => q == p | none => false)

/-- A request that takes one of the home's 2,048 I/O credits (05 R102, R109). -/
def takesCredit : LineReq → Bool
  | .io _ _ _ => true | .nsFill _ _ => true | .nsDrain _ _ => true | .post _ _ _ => true | _ => false

/-- Credits of a home in use (05 R102). -/
def ioAt (s : State) (h : Nat) : Nat :=
  (s.coh.txn.filter (fun t => homeOf t.1 == some h && takesCredit t.2.req)).length +
  ((s.coh.queue.filter (fun q => homeOf q.1 == some h)).map (fun q => (q.2.filter takesCredit).length)).sum

/-- A line of a near-store transfer or a posted write goes to its home under a credit, after those that wait there already; without
a credit it waits (05 R102). -/
def submitIo (s : State) (l : Nat) (req : LineReq) : State :=
  match homeOf l with
  | none => s
  | some h =>
    if 2048 ≤ ioAt s h ∨ s.coh.waits.any (fun w => homeOf w.1 == some h) then
      setCoh s { s.coh with waits := s.coh.waits ++ [(l, req)] }
    else submitReq s l req

/-- Lines that wait take the credits that are free, in order, at most n of them. -/
def admitWaits : Nat → State → State
  | 0, s => s
  | n + 1, s =>
    match s.coh.waits.find? (fun w => match homeOf w.1 with | some h => decide (ioAt s h < 2048) | none => true) with
    | none => s
    | some w => admitWaits n (submitReq (setCoh s { s.coh with waits := s.coh.waits.erase w }) w.1 w.2)

/-- Completes the fence instructions whose partitions have nothing outstanding (05 R111). -/
def settleFences (s : State) : State :=
  let done := s.coh.fencing.filter (fun p => !nsPending s p)
  setCoh s { s.coh with
    fencing := s.coh.fencing.filter (fun p => nsPending s p)
    fenced := done.foldl (fun m p => mapSet (fun _ => 0) m p (mapGet (fun _ => 0) m p + 1)) s.coh.fenced }

/-- Ends the transaction of a line once nothing is awaited (05 R98, R108), then serves the line's queue. -/
def tryFinish (s : State) (l : Nat) : State :=
  match look s.coh.txn l with
  | none => s
  | some t =>
    if !t.await.isEmpty then s
    else
      let d := match t.supplied with | some d => d | none => lineOfMem s l
      let s := setCoh s { s.coh with txn := remove s.coh.txn l }
      let s := match t.supplied with | some d => if toMemFirst t.req then lineToMem s l d else s | none => noteLine s l t.req
      let gone := match dirOf s l, t.keeps with | .owned _, none => true | _, _ => false
      let s := match t.req with
        | .rdS _ => s
        | _ => if readsOnly t.req && gone then setDir s l .invalid else s
      let s := if readsOnly t.req then grantReq s l t.req d t.keeps
        else grantReq s l t.req d none
      let s := serveQueue (mapGet (fun _ => []) s.coh.queue l).length s l
      settleFences (admitWaits s.coh.waits.length s)

/-- One answer of partition p for the transaction of line l: `d` is the line when the answer carries it. -/
def answerTxn (s : State) (l p : Nat) (d : Option (List Byte × Option Origin)) (keeps : Bool) : State :=
  match look s.coh.txn l with
  | none => s
  | some t =>
    if !t.await.contains p then s
    else
      let t' : LineTxn := { t with
        await := t.await.filter (fun q => q != p)
        supplied := match d with | some d => some d | none => t.supplied
        keeps := if keeps then some p else t.keeps }
      tryFinish (setCoh s { s.coh with txn := place s.coh.txn l t' }) l

/-- A forward to partition p is outstanding on line l (05 R106). -/
def forwardOut (s : State) (l p : Nat) : Bool :=
  match look s.coh.txn l, dirOf s l with
  | some t, .owned q => q == p && t.await.contains p
  | _, _ => false

/-- Record number of a writeback TID. -/
def tidNo (t : Tid) : Nat := t.part * 256 + t.entry

/-- What the home does with a WB (05 R106, R107); none: a protocol fault. -/
def takeWb (s : State) (l : Nat) (tid : Tid) (d : List Byte × Option Origin) : Option State :=
  let k := (tidNo tid, l)
  if s.coh.stale.contains k then
    let s := setCoh s { s.coh with stale := s.coh.stale.erase k }
    some (cohSend (countStale s l) (.wbAck l tid))
  else if forwardOut s l tid.part then
    let s := lineToMem s l d
    let s := setCoh s { s.coh with consumed := s.coh.consumed ++ [k] }
    some (answerTxn (cohSend s (.wbAck l tid)) l tid.part (some d) false)
  else if dirOf s l = .owned tid.part then
    some (cohSend (setDir (lineToMem s l d) l .invalid) (.wbAck l tid))
  else none

/-- Lines of a cache's set (05 Model: 128 sets of 16 ways). -/
def inSet (c : Cache) (l : Nat) : Nat := (c.lines.filter (fun p => p.1 % 128 == l % 128)).length

/-- Age of the next entry of a writeback buffer. -/
def nextAge (c : Cache) : Nat := (c.wbs.map (fun e => e.2.age + 1)).foldl max 0

/-- Evicts a line: M goes to a free entry of the 16 of the writeback buffer, E and S are dropped (05 R97, R105). -/
def evictLine (c : Cache) (l entry : Nat) : Cache :=
  match look c.lines l with
  | none => c
  | some h =>
    let c' : Cache := { c with lines := remove c.lines l }
    if h.state ≠ .modified then c'
    else if 16 ≤ entry ∨ (look c.wbs entry).isSome then c
    else { c' with wbs := place c'.wbs entry ⟨l, h.data, h.poison, nextAge c⟩ }

/-- Words of a line that n bytes at `off` of it cover whole. -/
def wordsCovered (off n : Nat) : List Nat := (upto 16).filter (fun w => decide (off ≤ 8 * w) && decide (8 * w + 8 ≤ off + n))

/-- The line as a store leaves it: in M; its poison has gone once every 64-bit word of it has been written anew (08 R169, Corners). -/
def storedLine (h : Held) (off : Nat) (n : List Byte) : Held :=
  let fresh := (upto 16).filter (fun w => h.fresh.contains w || (wordsCovered off n.length).contains w)
  let clean := h.poison.isNone || decide (fresh.length = 16)
  ⟨.modified, (mergeAt h.data off n).take 128, if clean then none else h.poison, if clean then [] else fresh⟩

/-- The line as a grant installs it, the pending store performed (05 R99). -/
def installed (k : GrantKind) (old : Option Held) (d : List Byte) (p : Option Origin) (st : Option (Nat × List Byte)) : Held :=
  let base : Held := match k, old with
    | .grantM, some h => { h with state := .modified }
    | .grantM, none => ⟨.modified, d, p, []⟩
    | .dataM, _ => ⟨.modified, d, p, []⟩
    | .dataE, _ => ⟨.exclusive, d, p, []⟩
    | .dataS, _ => ⟨.shared, d, p, []⟩
  match st with
  | some (off, n) => if base.state = .shared then base else storedLine base off n
  | none => base

/-- The entry of a cache's writeback buffer that holds a line: the youngest, when the line was evicted again before the first entry's
WB_ACK (05 R105). -/
def wbFor (c : Cache) (l : Nat) : Option (Nat × WbEntry) :=
  let held := c.wbs.filter (fun e => e.2.line == l)
  held.find? (fun e => held.all (fun x => decide (x.2.age ≤ e.2.age)))

/-- What a cache answers to a forward (05 R105): its line, or the entry of its writeback buffer with WBB 1; a line already
dropped is answered by its EVICT. -/
def answerFwd (s : State) (l p : Nat) (tid : Tid) (keep : Bool) : State :=
  let c := cacheOf s p
  match look c.lines l, wbFor c l with
  | some h, _ =>
    let c' : Cache := { c with lines := if keep then place c.lines l { h with state := .shared } else remove c.lines l }
    cohSend (setCache s p c') (.fwdData l p tid h.data h.poison none)
  | none, some (e, w) => cohSend s (.fwdData l p tid w.data w.poison (some e))
  | none, none => s

/-- An answer of partition p about line l is on its way to the home. -/
def answerComes (s : State) (l p : Nat) : Bool :=
  s.coh.net.any (fun m => match fromCache m with | some (k, q) => k == l && q == p | none => false)

/-- A fenced partition loses its cache (05 Corners): lines it owned are poisoned in memory, it leaves every sharer vector, and answers
awaited from it are taken as given. What it wrote into a crossing before is delivered, and what was on its way to it is discarded
(03 R57, Corners): answers under way still come, and lines in its writeback buffer stay its own until their WB is taken. -/
def dropCache (s : State) (p : Nat) : State :=
  let sent := (cacheOf s p).wbs
  let owned := ((s.coh.dir.filter (fun d => d.2 == Dir.owned p)).map (·.1)).filter (fun l =>
    !answerComes s l p && !sent.any (fun e => e.2.line == l))
  let s := setCache s p { cacheReset with wbs := sent }
  let s := setCoh s { s.coh with
    net := s.coh.net.filter (fun m => match toCache m with | some (_, q) => q != p | none => true)
    fencing := s.coh.fencing.filter (fun q => q != p)
    waits := s.coh.waits.filter (fun w => match w.2 with | .nsFill q _ => q != p | .nsDrain q _ => q != p | _ => true) }
  let s := owned.foldl (fun s l => poisonRange s (lineAddr l) 128 .memory) s
  let waiting := (s.coh.txn.filter (fun t => t.2.await.contains p && !answerComes s t.1 p)).map (·.1)
  let s := waiting.foldl (fun s l => answerTxn s l p none false) s
  let s := owned.foldl (fun s l => if dirOf s l = .owned p then setDir s l .invalid else s) s
  (s.coh.dir.map (·.1)).foldl (fun s l => match dirOf s l with
    | .shared v => let v' := setBit v p false
      setDir s l (if v' = 0#64 then .invalid else .shared v')
    | _ => s) s

/-! ## Accesses of the engines and interfaces (05 R94, R108) -/

/-- A line lies in the n bytes at a. -/
def lineIn (a n l : Nat) : Bool := decide (n ≠ 0) && decide (a / 128 ≤ l) && decide (l * 128 < a + n)

/-- Some line of a range is in a transaction, queued, or named by a message under way: an access of it waits its turn at the home (05
R101). -/
def cohBusy (s : State) (a n : Nat) : Bool :=
  s.coh.txn.any (fun t => lineIn a n t.1) || s.coh.queue.any (fun q => lineIn a n q.1) || s.coh.waits.any (fun w => lineIn a n w.1) ||
  s.coh.net.any (fun m => match toCache m, fromCache m with
    | some (l, _), _ => lineIn a n l | none, some (l, _) => lineIn a n l | none, none => false)

/-- The home collects one line from its holders (05 R108): an owner's bytes go to memory, from its cache or its writeback buffer, whose
TID is then stale; a read leaves the owner in S, a write leaves every holder in I. -/
def collectLine (s : State) (l : Nat) (keep : Bool) : State :=
  match dirOf s l with
  | .invalid => s
  | .shared v =>
    if keep then s
    else setDir ((sharersOf v).foldl (fun s p => setCache s p { cacheOf s p with lines := remove (cacheOf s p).lines l }) s) l .invalid
  | .owned p =>
    if !partLive s p then setDir (poisonRange s (lineAddr l) 128 .memory) l .invalid
    else
      let c := cacheOf s p
      match look c.lines l, wbFor c l with
      | some h, _ =>
        let s := lineToMem s l (h.data, h.poison)
        if keep then setDir (setCache s p { c with lines := place c.lines l { h with state := .shared } }) l (.shared (BitVec.ofNat 64 (2 ^ p)))
        else setDir (setCache s p { c with lines := remove c.lines l }) l .invalid
      | none, some (e, w) =>
        let s := lineToMem s l (w.data, w.poison)
        setDir (setCoh s { s.coh with stale := s.coh.stale ++ [(tidNo ⟨p, e⟩, l)] }) l .invalid
      | none, none => setDir s l .invalid

/-- The home collects every line of a range that caches hold (05 R108; a step of an engine is one moment at each home, note 144). -/
def collect (s : State) (a n : Nat) (keep : Bool) : State :=
  ((keysOf s.coh.dir).filter (lineIn a n)).foldl (fun s l => collectLine s l keep) s

/-- What a read of an engine does at the homes and to the counts (05 R108; 06 R122; 08 R174). -/
def engRead (s : State) (t a n : Nat) : State := noteRead (collect s a n true) t a n

/-- The parts of n bytes at a, line by line, as (line, offset in it, bytes). -/
def linePieces (a : Nat) (d : List Byte) : List (Nat × Nat × List Byte) :=
  if d.isEmpty then []
  else (rangeFrom (a / 128) ((a + d.length - 1) / 128 - a / 128 + 1)).map (fun l =>
    let lo := max a (l * 128)
    (l, lo - l * 128, slice d (lo - a) (min (a + d.length) (l * 128 + 128) - lo)))

/-- A write of an engine or interface for a tenant (05 R94, R108): the home takes it at once, every holder losing the line; where a
line of it is in a transaction, its bytes wait their turn there (note 144). -/
def engWrite (s : State) (t a : Nat) (d : List Byte) : State :=
  if cohBusy s a d.length then (linePieces a d).foldl (fun s x => submitIo s x.1 (.post t x.2.1 x.2.2)) s
  else
    let s := collect s a d.length false
    memWrite (noteParts s t a d.length) a d

end Sys2Proof.Machine
end

