-- ==== Sys2Proof/Machine/Reserve.lean ====
section
/-! DEFINITION. Reserve: bandwidth reservations, deliverable bandwidth and grants (06 R128 to R135). Bandwidths are exact:
rated figures are in megabytes per second times 16,384, capacities in gigabytes per second times `resvUnit`. -/
namespace Sys2Proof.Machine

/-- One gigabyte per second, in the units of a capacity. -/
def resvUnit : Nat := 16384000000

/-- HBM pin rate in Mb/s by MEM_HBM_CFG.RATE (06). -/
def hbmPin (code : Nat) : Nat := match code with | 1 => 6400 | 2 => 8000 | 3 => 9600 | _ => 0

/-- LPDDR rate in MT/s by MEM_LP_CFG.RATE (06). -/
def lpMts (code : Nat) : Nat := match code with | 1 => 6400 | 2 => 7500 | 3 => 8533 | _ => 0

/-- ONFI rate in MT/s by FLS_CH_CFG.RATE (07 Table - Interface rates). -/
def onfiMts (code : Nat) : Nat :=
  match code with | 1 => 800 | 2 => 1200 | 3 => 1600 | 4 => 2400 | 5 => 3200 | 6 => 3600 | _ => 0

/-- Rated bandwidth R of a tier on a facet, from the units live now (06 Table - Rated bandwidth). -/
def rated (s : State) (f : Nat) : Tier → Nat
  | .sram => ((upto 16).filter (fun i => sliceLive s (16 * f + i))).length * 512000 * 16384
  | .hbm => if hbmLive s f then 128 * hbmPin (regFld s (fKey f 0x20000) 4 4) * 16384 else 0
  | .lpddr =>
    ((upto 8).map (fun c => if lpLive s (8 * f + c) then
        2 * lpMts (regFld s (fKey f 0x20004) 4 4) * (16384 - regFld s (fKey f (0x20040 + 4 * c)) 0 13) else 0)).sum
  | .nand =>
    ((upto 4).map (fun c => if onfiLive s (4 * f + c) then onfiMts (regFld s (fKey f (0x30000 + 4 * c)) 12 4) * 16384
        else 0)).sum

/-- Admission limit of R129 in whole GB/s: 0.8 R rounded down. -/
def admission (s : State) (f : Nat) (t : Tier) : Nat := rated s f t * 4 / (5 * 16384 * 1000)

/-- Thermal factor in tenths (06 R131): HBM only. -/
def thermal (s : State) (f : Nat) : Tier → Nat
  | .hbm => let c := regFld s (fKey f 0xE0000) 0 8; if 95 < c then 5 else if 85 < c then 9 else 10
  | _ => 10

/-- Memory power factor p of a facet in twentieths (06 R131, 22 PWR_MEMF). -/
def memFactor (s : State) (f : Nat) : Nat := regFld s (fKey f 0xE0004) 0 5

/-- Reservation capacity C = 0.8 D (06 R131), in units of `resvUnit`. -/
def capacity (s : State) (f : Nat) (t : Tier) : Nat := rated s f t * memFactor s f * thermal s f t * 4

/-- The tiers in order. -/
def tiers : List Tier := [.sram, .hbm, .lpddr, .nand]

/-- Index of a TEN_RESV entry. -/
def resvIndex (t f : Nat) (tier : Tier) : Nat := 32 * t + 4 * f + tierCode tier

/-- A reservation word in force. -/
def resvWord (s : State) (i : Nat) : Word := forceGet s (0x40000 + 4 * i)

/-- Grants of one facet and tier (06 R132), from class `cls` down, in 1/16 GB/s, as (tenant, grant). -/
def grantClasses (ws : List (Nat × Word)) : Nat → Nat → Nat → List (Nat × Nat)
  | 0, _, _ => []
  | n + 1, cls, avail =>
    let mine := ws.filter (fun p => fld p.2 16 2 == cls)
    let sum := (mine.map (fun p => fld p.2 0 16)).sum
    if sum * resvUnit ≤ avail then
      mine.map (fun p => (p.1, fld p.2 0 16 * 16)) ++ grantClasses ws n (cls + 1) (avail - sum * resvUnit)
    else
      mine.map (fun p => (p.1, fld p.2 0 16 * avail * 16 / (sum * resvUnit))) ++ grantClasses ws n (cls + 1) 0

/-- The reservations of one facet and tier, tenant by tenant, as they stand or stood at the last evaluation (an entry that
is 0 in both has grant 0 and stays so). -/
def resvList (s : State) (f : Nat) (tier : Tier) : List (Nat × Word) :=
  ((upto 65).map (fun t => (t, resvWord s (resvIndex t f tier)))).filter
    (fun p => p.2 ≠ 0#32 || mapGet (fun _ => 0#32) s.mem.lastResv (resvIndex p.1 f tier) ≠ 0#32)

/-- Key of a grant in TEN_GRANT. -/
def grantKey (i : Nat) : Nat := 0x44000 + 4 * i

/-- Evaluations kept for R133: those of the last 1 ms, one per 100 microseconds, both ends included (note 6). -/
def historyLen : Nat := 11

/-- The values kept once one more is evaluated (06 R133): a periodic evaluation begins a new 100 microseconds; an evaluation at once
falls into the present ones, of which the lowest value counts. -/
def keepValue (periodic : Bool) (v : Nat) (kept : List Nat) : List Nat :=
  match periodic, kept with
  | false, x :: xs => min v x :: xs
  | _, xs => (v :: xs).take historyLen

/-- One evaluated value of one reservation taking effect (06 R133, R134). -/
def grantValue (periodic : Bool) (s : State) (f : Nat) (tier : Tier) (t v : Nat) : State :=
  let i := resvIndex t f tier
  let w := resvWord s i
  let old := mapGet (fun _ => 0#32) s.mem.lastResv i
  let cur := regFld s (grantKey i) 0 20
  let hist := if w = old then keepValue periodic v (mapGet (fun _ => []) s.mem.history i) else [v]
  let low := hist.foldl min v
  let g := if w ≠ old then v
    else if v ≤ cur then v
    else if hist.length = historyLen ∧ cur < low then low else cur
  let s := { s with mem := { s.mem with history := mapSet (fun _ => []) s.mem.history i hist,
                                        lastResv := mapSet (fun _ => 0#32) s.mem.lastResv i w } }
  let created := decide (w ≠ old) && decide (fld old 0 16 = 0) && decide (fld w 0 16 ≠ 0)
  let s := regSetFld s (grantKey i) 0 20 g
  if g ≠ cur ∨ created then
    let d := tierCode tier + fld w 16 2 * 4 + fld w 0 16 * 16 + g * 2 ^ 20
    let s := raise s 0 .resvDegraded 0xE f t d
    if t = 0 then s else raise s t .resvDegraded 0xE f t d
  else s

/-- One value of a periodic evaluation taking effect. -/
def applyGrant (s : State) (f : Nat) (tier : Tier) (t v : Nat) : State := grantValue true s f tier t v

/-- Evaluation of one facet and tier (06 R131, R132): the capacity is reported and the grants follow. -/
def evalTier (periodic : Bool) (s : State) (f : Nat) (tier : Tier) : State :=
  let c := capacity s f tier
  let s := regSetFld s (fKey f (0x20030 + 4 * tierCode tier)) 0 20 (c * 16 / resvUnit)
  (grantClasses (resvList s f tier) 4 0 c).foldl (fun s p => grantValue periodic s f tier p.1 p.2) s

/-- The evaluation of every facet and tier that comes each 100 microseconds (06 R131). -/
def evalGrants (s : State) : State :=
  (upto 8).foldl (fun s f => tiers.foldl (fun s t => evalTier true s f t) s) s

/-- An evaluation at once: at a fence, a change of PWRBRAKE#, a CAP or a seal (06 R131). -/
def evalNow (s : State) : State :=
  (upto 8).foldl (fun s f => tiers.foldl (fun s t => evalTier false s f t) s) s

end Sys2Proof.Machine
end

