-- ==== Sys2Proof/Machine/Nand.lean ====
section
/-! DEFINITION. Nand: flash addresses, geometry, and the queues of the flash controllers (07 R136 to R143, R154 to R157). -/
namespace Sys2Proof.Machine

/-! ## Flash addresses (07 R143) -/

/-- Channel of an FCA. -/
def fcaChannel (a : Nat) : Nat := nfld a 43 5
/-- Chip enable of an FCA. -/
def fcaCe (a : Nat) : Nat := nfld a 40 3
/-- LUN number of an FCA: 32 * channel + 4 * chip enable + LUN. -/
def fcaLun (a : Nat) : Nat := nfld a 38 10
/-- Block number of an FCA, over the package. -/
def fcaBlock (a : Nat) : Nat := nfld a 22 26
/-- Page number of an FCA, over the package. -/
def fcaPage (a : Nat) : Nat := nfld a 10 38

/-- FLS_CH_CFG of a channel. -/
def chCfg (s : State) (c : Nat) : Word := regGet s (fKey (c / 4) (0x30000 + 4 * (c % 4)))
/-- FLS_CH_GEOM of a channel. -/
def chGeom (s : State) (c : Nat) : Word := regGet s (fKey (c / 4) (0x30010 + 4 * (c % 4)))
/-- Codewords in a page of a channel: four in 16 KiB, eight in 32 KiB. -/
def cwPer (s : State) (c : Nat) : Nat := if bitOf (chCfg s c) 7 then 8 else 4
/-- Blocks of a LUN of a channel; 0 stands for 65,536. -/
def chBlocks (s : State) (c : Nat) : Nat := if fld (chGeom s c) 16 16 = 0 then 65536 else fld (chGeom s c) 16 16
/-- Pages of a block of a channel. -/
def chPages (s : State) (c : Nat) : Nat := fld (chGeom s c) 0 16

/-- The FCA names something that is present (07 R143). -/
def fcaValid (s : State) (a : Nat) : Bool :=
  let c := fcaChannel a
  decide (a < 2 ^ 48) && bitOf (chCfg s c) (24 + fcaCe a) && decide (nfld a 38 2 ≤ fld (chCfg s c) 10 2) &&
  decide (nfld a 22 16 < chBlocks s c) && decide (nfld a 10 12 < chPages s c) && decide (nfld a 3 7 = 0) &&
  decide (nfld a 0 3 < cwPer s c)

/-- The target was taken offline (07 R142). -/
def targetOff (s : State) (tgt : Nat) : Bool := bitOf (regGet s (fKey (tgt / 32) 0x30020)) (tgt % 32)

/-- A channel and the target of a LUN can be accessed. -/
def lunLive (s : State) (lun : Nat) : Bool := onfiLive s (lun / 32) && !targetOff s (lun / 4)

/-- LUN that an operation runs on. -/
def NandOp.lun : NandOp → Nat
  | .read p _ _ => p / 2 ^ 28 | .program p => p / 2 ^ 28 | .erase b => b / 2 ^ 16
/-- Block that an operation touches. -/
def NandOp.block : NandOp → Nat
  | .read p _ _ => p / 2 ^ 12 | .program p => p / 2 ^ 12 | .erase b => b
/-- A program or an erase. -/
def NandOp.isUpdate : NandOp → Bool
  | .read _ _ _ => false | .program _ => true | .erase _ => true
/-- Two operations can be parts of one multi-plane operation, planes aside (07 R139): reads at one level, programs, or erases. -/
def NandOp.sameKind : NandOp → NandOp → Bool
  | .read _ l a, .read _ m b => l == m && a == b
  | .program _, .program _ => true
  | .erase _, .erase _ => true
  | _, _ => false
/-- The read-retry level at which an operation runs, as 3 * level + side (07 R151). -/
def NandOp.levelCode : NandOp → Nat
  | .read _ l a => 3 * l + a | .program _ => 0 | .erase _ => 0
/-- An operation in flight is a program or an erase. -/
def NandFlight.isUpdate (f : NandFlight) : Bool := f.parts.any (fun c => c.op.isUpdate)

/-! ## Queues -/

/-- The pages of a program or erase that did not end well are undefined. -/
def nandBroken (m : KMap PageData) (op : NandOp) : KMap PageData :=
  match op with
  | .program page => place m page .undef
  | .erase block => m.map (fun p => if p.1 / 4096 = block then (p.1, .undef) else p)
  | .read _ _ _ => m

/-- Waiting commands of a LUN, in the order accepted. -/
def lunQueue (s : State) (lun : Nat) : List NandCmd := mapGet (fun _ => []) s.flash.waiting lun
/-- The state with a LUN's waiting commands replaced. -/
def setQueue (s : State) (lun : Nat) (q : List NandCmd) : State :=
  { s with flash := { s.flash with waiting := mapSet (fun _ => []) s.flash.waiting lun q } }
/-- The state with a LUN's operation in flight replaced. -/
def setFlight (s : State) (lun : Nat) (c : Option NandFlight) : State :=
  { s with flash := { s.flash with inFlight := match c with | some c => place s.flash.inFlight lun c | none => remove s.flash.inFlight lun } }
/-- The state with an extent read replaced. -/
def placeRead (s : State) (id : Nat) (r : ExtentRead) : State := { s with flash := { s.flash with reads := place s.flash.reads id r } }
/-- One command joins the end of its LUN's queue, under the next number (07 R157). -/
def enqueue (s : State) (op : NandOp) (cls : NandClass) (tenant : Nat) (data : List Byte) : State :=
  let s := setQueue s op.lun (lunQueue s op.lun ++ [⟨s.flash.nextCmd, op, cls, tenant, data⟩])
  { s with flash := { s.flash with nextCmd := s.flash.nextCmd + 1 } }

/-- FCA of the codeword a read is at. -/
def ExtentRead.fca (s : State) (r : ExtentRead) : Nat :=
  let n := cwPer s (r.block / 2 ^ 21)
  r.block * 2 ^ 22 + r.cw / n * 2 ^ 10 + r.cw % n
/-- The page read a read waits for. -/
def ExtentRead.op (s : State) (r : ExtentRead) : NandOp := .read (fcaPage (r.fca s)) r.level r.soft

/-- The read-retry level of a LUN is set, through SET FEATURES, when it is another (07 R151). -/
def setLevel (s : State) (lun code : Nat) : State :=
  if mapGet (fun _ => 0) s.flash.level lun = code then s
  else emit { s with flash := { s.flash with level := mapSet (fun _ => 0) s.flash.level lun code } }
    (.nandSetup (lun / 4) (.retryLevel (code / 3) (code % 3)))

/-- CHANGE READ COLUMN ENHANCED selects the codeword to transfer out (07 R139). -/
def selectCw (s : State) (lun fca : Nat) : State := emit s (.nandColumn lun fca)

/-- A read joins a command that reads its page, waiting or in flight, when no update of the block was accepted after it (07 R154,
R157): the number of that command. -/
def queuedRead (s : State) (op : NandOp) : Option Nat :=
  match (lunQueue s op.lun).reverse.find? (fun c => c.op == op || (c.op.isUpdate && c.op.block == op.block)) with
  | some c => if c.op == op then some c.num else none
  | none => match look s.flash.inFlight op.lun with
    | some f => (f.parts.find? (fun c => c.op == op)).map (·.num)
    | none => none

/-- The command of a number is in flight on a LUN and its data may transfer. -/
def transfers (s : State) (lun num : Nat) : Bool :=
  match look s.flash.inFlight lun with | some f => f.done && f.parts.any (fun c => c.num == num) | none => false

/-- A page read that a read waits for, once for every reader of the page (07 R154, Corners): a re-read goes to the front. -/
def ensureRead (s : State) (id : Nat) (r : ExtentRead) : State :=
  let op := r.op s
  match queuedRead s op with
  | some n =>
    let s := placeRead s id { r with waits := n }
    if transfers s op.lun n then selectCw s op.lun (r.fca s) else s
  | none =>
    let n := s.flash.nextCmd
    let s := placeRead s id { r with waits := n }
    if r.level = 0 ∧ r.soft = 0 then enqueue s op r.cls r.tenant []
    else
      let s := setQueue s op.lun (⟨n, op, .reRead, r.tenant, []⟩ :: lunQueue s op.lun)
      { s with flash := { s.flash with nextCmd := n + 1 } }

/-- A page read whose data no read wants any more leaves its LUN. -/
def releaseLun (s : State) (lun : Nat) : State :=
  match look s.flash.inFlight lun with
  | none => s
  | some f =>
    if f.done && !s.flash.reads.any (fun p => f.parts.any (fun c => c.num == p.2.waits)) then setFlight s lun none else s

/-! ## Flash jobs (07 R158, R162) -/

/-- The reader that stands for the flash job of a facet. -/
def jobReader (f : Nat) : Nat := 65537 + f

/-- Some program or erase of a facet is in flight. -/
def updatesFly (s : State) (f : Nat) : Bool := s.flash.inFlight.any (fun p => decide (p.1 / 128 = f) && p.2.isUpdate)

/-- Some program or erase of a facet waits. -/
def updatesWait (s : State) (f : Nat) : Bool :=
  s.flash.waiting.any (fun p => decide (p.1 / 128 = f) && p.2.any (fun c => c.op.isUpdate))

/-- FLS_JOB_STATUS of a facet. -/
def jobStatus (s : State) (f st reason entry : Nat) : State :=
  regSet s (fKey f 0x30110) (BitVec.ofNat 32 (st * 2 ^ 28 + reason * 2 ^ 24 + entry % 2 ^ 16))

/-- The state with a facet's job replaced. -/
def setJob (s : State) (f : Nat) (j : FlashJob) : State := { s with flash := { s.flash with jobs := place s.flash.jobs f j } }

/-- Reads of a facet's job lose their reader. -/
def orphanJob (s : State) (f : Nat) : State :=
  { s with flash := { s.flash with
      reads := s.flash.reads.map (fun p => if p.2.reader = jobReader f then (p.1, { p.2 with reader := 65536 }) else p) } }

/-- A job ends with its reason: ENTRY names the first entry not completed, and a job with none left is done (07 R162; note 146). -/
def jobStopped (s : State) (f : Nat) (j : FlashJob) : State :=
  let e := if j.cut then j.entry else j.entry + 1
  let s := orphanJob { s with flash := { s.flash with jobs := remove s.flash.jobs f } } f
  if e < j.count then jobStatus s f 3 j.after e else jobStatus s f 2 0 e

/-- A job waits for its next list entry: the read of its 32 bytes leaves, while the port that started it carries traffic (07 R158). -/
def jobAsk (s : State) (f : Nat) : State :=
  match look s.flash.jobs f with
  | some j =>
    let fn : FnId := ⟨j.port, 0⟩
    if j.work = .fetch ∧ dmaOpen s fn = true then hostAsk s fn (j.addr + 32 * j.entry) 32 else s
  | none => s

/-- The job of a facet has ended its entry: it stops for the reason kept, or goes to the next entry, or is done. -/
def entryDone (s : State) (f : Nat) : State :=
  match look s.flash.jobs f with
  | none => s
  | some j =>
    if j.after ≠ 0 then jobStopped s f j
    else if j.entry + 1 < j.count then jobAsk (jobStatus (setJob s f { j with entry := j.entry + 1, work := .fetch }) f 1 0 (j.entry + 1)) f
    else jobStatus (orphanJob { s with flash := { s.flash with jobs := remove s.flash.jobs f } } f) f 2 0 (j.entry + 1)

/-- Bytes of a job that wait for the host leave when the port that started it carries traffic (07 R159; 16 R350). -/
def jobFlush (s : State) (f : Nat) : State :=
  match look s.flash.jobs f with
  | some j => match j.work with
    | .write a d =>
      let fn : FnId := ⟨j.port, 0⟩
      if dmaOpen s fn then entryDone (hostSend s fn a d) f else s
    | _ => s
  | none => s

/-- Waiting programs and erases of a facet are given up. -/
def dropUpdates (s : State) (f : Nat) : State :=
  { s with flash := { s.flash with waiting := s.flash.waiting.filterMap (fun p =>
      if p.1 / 128 = f then
        let q := p.2.filter (fun c => !c.op.isUpdate)
        if q.isEmpty then none else some (p.1, q)
      else some p) } }

/-- Stops the flash job of a facet with a reason code: no further program or erase is issued, operations issued to a LUN run to their
end, and the job stops then (07 R162). The first reason stays. -/
def stopJob (s : State) (f reason : Nat) : State :=
  match look s.flash.jobs f with
  | none => s
  | some j =>
    let j := { j with after := if j.after = 0 then reason else j.after,
                      cut := j.cut || updatesWait s f || !(decide (j.work = .updates)) }
    let s := dropUpdates s f
    if updatesFly s f then setJob s f j else jobStopped s f j

/-- Stops every flash job (07 R162: HELD is reason 6). -/
def stopJobs (s : State) (reason : Nat) : State := (upto 8).foldl (fun s f => stopJob s f reason) s

/-- Ends every flash job at once, whatever is in flight: the package is dead (07 R162). -/
def killJobs (s : State) : State :=
  (upto 8).foldl (fun s f => match look s.flash.jobs f with
    | some j => jobStopped (dropUpdates s f) f { j with after := if j.after = 0 then 6 else j.after, cut := true }
    | none => s) s

/-- The bytes of a job READ, poisoned ones as zeros (07 R159). -/
def jobBytes (d : List Byte) (bad : List (Nat × Nat × Origin)) : List Byte :=
  (upto d.length).map (fun i => if bad.any (fun b => decide (b.1 ≤ i) && decide (i < b.1 + b.2.1)) then 0#8 else d.getD i 0#8)

/-- The read of a flash job has ended (07 R159): its bytes go to the host; an erased page ends the job, for which the spec gives no reason
code, so REASON is a free value; a lost unit ends it with TIER_FENCED. -/
def jobReadEnds (s : State) (f : Nat) (r : ExtentRead) (st : Option Status) : State :=
  match look s.flash.jobs f with
  | none => s
  | some j => match j.work with
    | .reading a => match st with
      | none => jobFlush (setJob s f { j with work := .write a (jobBytes r.data r.bad) }) f
      | some .tierFenced => stopJob s f 8
      | some _ => let (v, s) := draw s; stopJob s f (v.toNat % 16)
    | _ => s

/-- Ends a read: a request finds what came; a job goes on. -/
def endRead (s : State) (id : Nat) (r : ExtentRead) (st : Option Status) : State :=
  let s := { s with flash := { s.flash with
      reads := remove s.flash.reads id,
      finished := if 65536 ≤ r.reader then s.flash.finished
        else s.flash.finished ++ [⟨r.reader, r.extent, r.data, r.bad, st⟩] } }
  if 65537 ≤ r.reader then jobReadEnds s (r.reader - 65537) r st else s

/-- Reads and commands on LUNs that can no longer be accessed: the reads fail with TIER_FENCED, the commands go (07 R142,
Corners). -/
def dropDead (s : State) : State :=
  let s := s.flash.reads.foldl (fun s p => if lunLive s (p.2.block / 2 ^ 16) then s else endRead s p.1 p.2 (some .tierFenced)) s
  let f := s.flash
  { s with flash := { f with waiting := f.waiting.filter (fun p => lunLive s p.1),
                             inFlight := f.inFlight.filter (fun p => lunLive s p.1) } }

/-- A job's entry has operations on LUNs that can no longer be accessed. -/
def jobOnDead (s : State) (f : Nat) : Bool :=
  s.flash.waiting.any (fun p => decide (p.1 / 128 = f) && !lunLive s p.1 && p.2.any (fun c => c.op.isUpdate)) ||
  s.flash.inFlight.any (fun p => decide (p.1 / 128 = f) && !lunLive s p.1 && p.2.isUpdate) ||
  (match look s.flash.jobs f with
    | some j => match j.work with | .scan ps _ _ _ => ps.any (fun p => !lunLive s (p / 2 ^ 28)) | _ => false
    | none => false)

/-- Reads and jobs of a facet after one of its channels or targets is lost (07 Corners): a job whose entry has operations there
stops with TIER_FENCED. -/
def flashLost (s : State) (f : Nat) : State :=
  let dead := jobOnDead s f
  let s := dropDead s
  if dead then match look s.flash.jobs f with
    | some j => stopJob (setJob s f { j with cut := true }) f 8
    | none => s
  else s

end Sys2Proof.Machine
end

