-- ==== Sys2Proof/Machine/Wire.lean ====
section
/-! DEFINITION. Wire: the cable plan in force, strand lanes, LLDP, and the frames of flows: sending, acknowledging, receiving
(19 R407 to R426, 22 R476 to R481). What a delivered message does is given where its flow is used. -/
namespace Sys2Proof.Machine

/-! ## Package number and plan in force (22 R476, R478, R481) -/

/-- The package number, when RACK_SLOT is 31 or less. -/
def pkgNo (s : State) : Option Nat :=
  let r := s.supply.straps.rackSlot.toNat
  if r ≤ 31 then some (2 * r + (if s.supply.straps.trayPos then 1 else 0)) else none

/-- Number of entries of a plan. -/
def planCount (b : List Byte) : Nat := rdLe b 6 2
/-- Offset of entry i. -/
def planEntry (i : Nat) : Nat := 64 + 32 * i
/-- PACKAGES of a plan. -/
def planPackages (b : List Byte) : Nat := rdLe b 24 8
/-- RACK_SERIAL of a plan. -/
def planSerial (b : List Byte) : Nat := rdLe b 16 8

/-- Entry of lane l of package n in a plan: the expected Port ID. -/
def planPort (b : List Byte) (n l : Nat) : Option (List Byte) :=
  ((upto (planCount b)).find? (fun i => rdB b (planEntry i) == n && rdB b (planEntry i + 1) == l)).map
    (fun i => slice b (planEntry i + 4) (rdB b (planEntry i + 2)))

/-- Package n is named by the plan in force; without one only the package itself is (22 R481). -/
def planNames (s : State) (n : Nat) : Bool :=
  match s.plan.inForce with
  | some b => decide (n < 64) && nbit (planPackages b) n
  | none => pkgNo s == some n

/-- The Port ID that the plan in force expects on an own lane (22 R481). -/
def laneExpects (s : State) (l : Nat) : Option (List Byte) :=
  match s.plan.inForce, pkgNo s with
  | some b, some n => planPort b n l
  | _, _ => none

/-! ## Text of identities (19 R411, 22 R477) -/

/-- A decimal digit. -/
def digit (n : Nat) : Byte := BitVec.ofNat 8 (48 + n % 10)
/-- Decimal without leading zeros, of a number below 1,000. -/
def decimal (n : Nat) : List Byte :=
  if n < 10 then [digit n] else if n < 100 then [digit (n / 10), digit n] else [digit (n / 100), digit (n / 10), digit n]
/-- An uppercase hexadecimal digit. -/
def hexDigit (n : Nat) : Byte := BitVec.ofNat 8 (if n % 16 < 10 then 48 + n % 16 else 55 + n % 16)
/-- 16 uppercase hexadecimal digits. -/
def hex16 (v : Nat) : List Byte := (upto 16).map (fun i => hexDigit (v / 16 ^ (15 - i)))
/-- Bytes of a number, most significant first. -/
def beBytes (n v : Nat) : List Byte := (leBytes n v).reverse

/-- An LLDP TLV. -/
def tlv (typ : Nat) (v : List Byte) : List Byte := beBytes 2 (typ * 512 + v.length) ++ v

/-- The lane MAC (19 R408). -/
def laneMac (pkg lane : Nat) : List Byte := [0x0A#8, 0xF8#8, 0#8, 0#8, BitVec.ofNat 8 pkg, BitVec.ofNat 8 lane]

/-- An untagged Ethernet II frame: the payload padded to at least 46 bytes, and its FCS, first byte least significant (19 R408). -/
def ethernet (dst src : List Byte) (typ : Nat) (payload : List Byte) : List Byte :=
  let b := dst ++ src ++ beBytes 2 typ ++ payload ++ List.replicate (46 - payload.length) 0#8
  b ++ leBytes 4 (fcsOf b).toNat

/-- Bytes of "F8R strand lane ". -/
def laneText : List Byte := [70, 56, 82, 32, 115, 116, 114, 97, 110, 100, 32, 108, 97, 110, 101, 32].map (BitVec.ofNat 8)

/-- RACK_SERIAL as STR_PLAN_SERIAL shows it. -/
def serialInForce (s : State) : Nat := pair (regGet s) 0x70024

/-- An LLDPDU of a lane with a Time To Live, as its frame (19 R408, R411). -/
def lldpdu (s : State) (l ttl : Nat) : List Byte :=
  let port := decimal s.supply.straps.rackSlot.toNat ++ [46#8] ++ [digit (if s.supply.straps.trayPos then 1 else 0)] ++ [46#8] ++ decimal l
  ethernet [0x01#8, 0x80#8, 0xC2#8, 0#8, 0#8, 0x0E#8] (laneMac ((pkgNo s).getD 0) l) 0x88CC
    (tlv 1 (7#8 :: hex16 (serialInForce s)) ++ tlv 2 (7#8 :: port) ++ tlv 3 (beBytes 2 ttl) ++
      (if ttl = 0 then [] else tlv 4 (laneText ++ decimal l)) ++ tlv 0 [])

/-! ## Lanes (19 R407, R413 to R415) -/

/-- Key of a register of lane l: local lane registers lie `step` apart. -/
def laneKey (l off step : Nat) : Nat := fKey (l / 2) (off + step * (l % 2))
/-- STATE of a lane: 0 DOWN, 1 IDENTIFYING, 2 UP, 3 QUARANTINED, 4 UNPLANNED. -/
def laneState (s : State) (l : Nat) : Nat := regFld s (laneKey l 0xB0008 4) 0 3
/-- The state with a lane's STATE set. -/
def setLane (s : State) (l st : Nat) : State := regSetFld s (laneKey l 0xB0008 4) 0 3 st
/-- A lane is enabled, live, on a live facet. -/
def laneUsable (s : State) (l : Nat) : Bool :=
  decide (l < 16) && bitOf (regGet s (laneKey l 0xB0000 4)) 0 && laneLive s l && fabricLive s (l / 2)
/-- Sends an LLDPDU. -/
def sendLldp (s : State) (l ttl : Nat) : State := emit s (.lldp l (lldpdu s l ttl))

/-- A lane goes DOWN (19 R411, R413, R414): it counts, loses its rate and acknowledgement, and sends a shutdown LLDPDU when the
link still allows it. -/
def laneDown (s : State) (l : Nat) (linkHolds : Bool) : State :=
  if laneState s l = 0 then s
  else
    let s := if linkHolds then sendLldp s l 0 else s
    let k := laneKey l 0xB0008 4
    bump (regSetFld (regSetFld (setLane s l 0) k 4 2 0) k 8 1 0) k 16 16 1

/-- Where a lane that is not DOWN stands when identification begins anew (19 R413 to R415). -/
def identify (s : State) (l : Nat) : State :=
  if laneState s l = 0 then s
  else if isSealedNow s && (laneExpects s l).isNone then setLane s l 4 else setLane s l 1

/-- Every lane begins identification anew at a seal, and ACKED clears (19 R414, R415). -/
def identifyAll (s : State) : State :=
  (upto 16).foldl (fun s l => identify (regSetFld s (laneKey l 0xB0008 4) 8 1 0) l) s

/-- Leaving SEALED: lanes that are not DOWN stay in IDENTIFYING, and every flow ends without RESET (19 R415, Corners). -/
def strandStop (s : State) : State :=
  let s := (upto 16).foldl (fun s l => if laneState s l = 0 then s else setLane s l 1) s
  { s with strand := ⟨[], [], [], [], []⟩ }

/-- A count of a lane's transport errors. -/
def laneCount (s : State) (l off : Nat) : State := bump s (laneKey l (0xB0020 + off) 16) 0 32 1
/-- Counts a discarded frame in STR_FOREIGN. -/
def foreign (s : State) (l : Nat) : State := bump s (fKey (l / 2) 0xB0044) 0 32 1

/-! ## Sending frames (19 R416, R422 to R425) -/

/-- Number of a flow. -/
def flowKey (mine : Bool) (peer num : Nat) : Nat := if mine then num else 4096 * (1 + peer) + num
/-- A flow's own number. -/
def Flow.key (f : Flow) : Nat := flowKey f.mine f.peer f.num
/-- The state with a flow replaced. -/
def setFlow (s : State) (f : Flow) : State := { s with strand := { s.strand with flows := place s.strand.flows f.key f } }
/-- Lanes of a pair that are UP. -/
def upLanes (s : State) (p : Nat) : List Nat := [2 * p, 2 * p + 1].filter (fun l => laneState s l == 2)
/-- The first pair from p on, wrapping, that has an UP lane; p when none has. -/
def nextPair (s : State) (p : Nat) : Nat :=
  (((rangeFrom p 8).map (· % 8)).find? (fun q => !(upLanes s q).isEmpty)).getD (p % 8)

/-- SACK of a flow (19 R416): bit i for frame ACK + 1 + i. -/
def sackBits (f : Flow) : Nat := ((keysOf f.early).map (fun k => if f.expect < k ∧ k ≤ f.expect + 63 then 2 ^ (k - f.expect - 1) else 0)).sum

/-- The 32-byte header and payload of a frame, without its CRC (19 Table - Transport header). -/
def rawFrame (self : Nat) (f : Flow) (fr : FlowFrame) (seq : Nat) : List Byte :=
  let b1 := (if f.accepted ∨ !f.mine then 8 else 0) + (if fr.last then 4 else 0) + (if fr.first then 2 else 0) + (if f.mine then 1 else 0)
  [BitVec.ofNat 8 (16 + fr.typ), BitVec.ofNat 8 b1, BitVec.ofNat 8 self, BitVec.ofNat 8 f.peer] ++
  leBytes 2 (f.num + (if fr.typ = 1 then f.kind * 4096 else 0)) ++ leBytes 2 fr.payload.length ++ leBytes 4 seq ++
  leBytes 4 f.expect ++ leBytes 8 (sackBits f) ++ leBytes 4 0 ++ leBytes 4 0 ++ fr.payload

/-- A frame with its CRC in place. -/
def sealFrame (raw : List Byte) : List Byte := raw.take 24 ++ leBytes 4 (crc32c raw).toNat ++ raw.drop 28

/-- Ethernet around a transport frame (19 R408). -/
def onLane (self peer lane : Nat) (b : List Byte) : List Byte := ethernet (laneMac peer lane) (laneMac self lane) 0x88B5 b

/-- Sends one frame of a flow on the next UP lane of its pair (19 R424); with none it is not sent. ACK_VALID frames carry what
is owed (19 Corners). -/
def putFrame (s : State) (f : Flow) (fr : FlowFrame) (seq : Nat) : State × Flow :=
  match upLanes s f.pair, pkgNo s with
  | [], _ => (s, f)
  | ls, some self =>
    let l := ls.getD (f.alt % ls.length) 0
    let b := sealFrame (rawFrame self f fr seq)
    (emit s (.strand l (onLane self f.peer l b)), { f with alt := f.alt + 1, ackOwed := if f.accepted ∨ !f.mine then false else f.ackOwed })
  | _, none => (s, f)

/-- A control frame: ACCEPT, REFUSE, ACK, KEEPALIVE or RESET; it takes no SEQ. -/
def control (s : State) (f : Flow) (typ : Nat) (payload : List Byte) : State :=
  let (s, f) := putFrame s f ⟨typ, decide (payload ≠ []), decide (payload ≠ []), payload⟩ 0
  if (look s.strand.flows f.key).isSome then setFlow s f else s

/-- Number of frames of a flow's first message still to be sent before ACCEPT. -/
def mayPump (f : Flow) : Bool :=
  f.accepted || (match f.queue with | fr :: _ => fr.typ == 1 || !fr.first && fr.typ == 4 | [] => false)

/-- Class of a flow's frames (19 R425): SHARD, then KV_SHIP, then WEIGHT. -/
def flowClass (kind : Nat) : Nat := match kind with | 2 => 1 | 1 => 2 | _ => 3

/-- A flow has a frame that its window and its peer's ACCEPT let go (19 R420, R422). -/
def flowReady (s : State) (f : Flow) : Bool := isSealedNow s && !f.queue.isEmpty && mayPump f && decide (f.next < f.una + 64)

/-- Flows of a pair, in the order of their numbers, that have a frame of a class ready; FIN is of class 0 (19 R425). -/
def readyOf (s : State) (p c : Nat) : List Flow :=
  (s.strand.flows.map (·.2)).filter (fun f => f.pair == p && flowReady s f &&
    (if (match f.queue with | fr :: _ => fr.typ == 6 | [] => false) then c == 0 else c == flowClass f.kind))

/-- Turns of a pair. -/
def turnOf (s : State) (p : Nat) : Turn := mapGet (fun _ => ⟨0, 0, 0, 0⟩) s.strand.turns p

/-- A flow of a class has sent a frame: its class goes on behind it, and class 2 frames in a row count while class 3 waits (19 R425). -/
def noteTurn (s : State) (f : Flow) (c : Nat) : State :=
  let t := turnOf s f.pair
  let t := match c with
    | 1 => { t with shard := f.key }
    | 2 => { t with ship := f.key, run := if (readyOf s f.pair 3).isEmpty then 0 else t.run + 1 }
    | 3 => { t with weight := f.key, run := 0 }
    | _ => t
  { s with strand := { s.strand with turns := mapSet (fun _ => ⟨0, 0, 0, 0⟩) s.strand.turns f.pair t } }

/-- The first frame of a flow's queue leaves (19 R422 to R425). -/
def sendHead (s : State) (f : Flow) : State :=
  match f.queue with
  | [] => s
  | fr :: rest =>
    let (s, f) := putFrame s f fr f.next
    let f := { f with queue := rest, sent := place f.sent f.next ⟨fr, false, 0⟩, next := f.next + 1, finSent := f.finSent || fr.typ == 6 }
    let s := setFlow s f
    noteTurn (peak s (fKey f.pair 0xB0048) 0 12 (pairHolds s f.pair)) f (if fr.typ = 6 then 0 else flowClass f.kind)

/-- A pair takes one more transfer (19 R423, R424). -/
def pairOpen (s : State) (p : Nat) : Bool := decide (pairHolds s p < 2048) && !(upLanes s p).isEmpty

/-- Sends queued frames of a flow while the window, the pair and the peer's ACCEPT allow it, at most n (19 R420, R422, R423). -/
def pumpN : Nat → State → Nat → State
  | 0, s, _ => s
  | n + 1, s, k =>
    match look s.strand.flows k with
    | none => s
    | some f => if flowReady s f && pairOpen s f.pair then pumpN n (sendHead s f) k else s

/-- Whose turn it is among the ready flows of a class (19 R425): the flow served last while its message lasts, else the next by number. -/
def turnIn (fs : List Flow) (last : Nat) : Option Flow :=
  match fs.find? (fun f => f.key == last && (match f.queue with | fr :: _ => !fr.first | [] => false)) with
  | some f => some f
  | none => match fs.find? (fun f => decide (last < f.key)) with | some f => some f | none => fs.head?

/-- The flow that sends next on a pair (19 R425): class 0, then class 1, then three class 2 frames to one class 3 frame. -/
def nextFlow (s : State) (p : Nat) : Option Flow :=
  let t := turnOf s p
  let c2 := turnIn (readyOf s p 2) t.ship
  let c3 := turnIn (readyOf s p 3) t.weight
  ((readyOf s p 0).head?.or (turnIn (readyOf s p 1) t.shard)).or (if t.run < 3 then c2.or c3 else c3.or c2)

/-- Sends what a pair may send, at most n frames. -/
def pumpPair : Nat → State → Nat → State
  | 0, s, _ => s
  | n + 1, s, p =>
    if pairOpen s p then
      match nextFlow s p with
      | some f => pumpPair n (sendHead s f) p
      | none => s
    else s

/-- Sends what may be sent on every pair (19 R425). -/
def pumpAll (s : State) : State :=
  (upto 8).foldl (fun s p => pumpPair (s.strand.flows.map (fun x => if x.2.pair = p then x.2.queue.length else 0)).sum s p) s

/-- Cuts a message into frames of 8,960 payload bytes (19 R419); `typ` is the type of the first. -/
def cutFrames (typ : Nat) (m : List Byte) : List FlowFrame :=
  let n := max 1 ((m.length + 8959) / 8960)
  (upto n).map (fun i => ⟨if i = 0 then typ else 4, decide (i = 0), decide (i + 1 = n), slice m (8960 * i) 8960⟩)

/-- A message: its 16-byte header and body (19 R419). -/
def message (typ tag : Nat) (body : List Byte) : List Byte :=
  leBytes 1 typ ++ leBytes 3 0 ++ leBytes 4 (16 + body.length) ++ leBytes 8 tag ++ body

/-- A STATUS message (19 Table - Message bodies). -/
def statusMsg (st detail tag : Nat) : List Byte := message 0x30 tag (leBytes 1 st ++ leBytes 7 0 ++ leBytes 8 detail)

/-- Queues a message on a flow. -/
def sendMessage (s : State) (k : Nat) (m : List Byte) : State :=
  match look s.strand.flows k with
  | none => s
  | some f => pumpN 64 (setFlow s { f with queue := f.queue ++ cutFrames 4 m }) k

/-- Queues FIN once (19 R420). -/
def sendFin (s : State) (k : Nat) : State :=
  match look s.strand.flows k with
  | none => s
  | some f =>
    if f.finSent || f.queue.any (fun fr => fr.typ == 6) then s
    else pumpN 64 (setFlow s { f with queue := f.queue ++ [⟨6, false, false, []⟩] }) k

/-- A flow leaves this end. -/
def dropFlow (s : State) (k : Nat) : State := { s with strand := { s.strand with flows := remove s.strand.flows k } }

/-- A package abandons a flow (19 R420): RESET with one STATUS message, and the flow is forgotten. -/
def abandonFlow (s : State) (k st : Nat) : State :=
  match look s.strand.flows k with
  | none => s
  | some f => dropFlow (control s f 8 (statusMsg st 0 0)) k

/-- A fresh flow with its first message queued behind OPEN. -/
def newFlow (s : State) (peer num kind : Nat) (use : FlowUse) (m : List Byte) : Flow :=
  ⟨true, peer, num, kind, use, nextPair s ((num + peer) % 8), 0, false, false, cutFrames 1 m, [], 0, 0, false, 0, [], [], false, false,
   false, false, 0⟩

/-- A flow that this package opened still has a user: the prefill, search shard or load it serves is under way. -/
def hasUser (s : State) (u : FlowUse) : Bool :=
  match u with
  | .prefill tag => (look s.prefills tag).isSome
  | .shardOut tag num => (match look s.searches tag with | some j => j.shards.any (fun h => h.num == num) | none => false)
  | .load n => (match (troyOf s n).load with | some _ => true | none => false)
  | _ => true

/-- Flows whose user has gone get their FIN: no message follows (19 R420). -/
def finOrphans (s : State) : State :=
  (s.strand.flows.filter (fun p => p.2.mine && !hasUser s p.2.use)).foldl (fun s p =>
    match look s.strand.flows p.1 with
    | some f => sendFin (setFlow s { f with use := .fresh }) p.1
    | none => s) s

/-- EJECT# is taken as asserted, or its quiesce runs (22 PWR_EJECT). -/
def ejecting (s : State) : Bool := bitOf (regGet s (aKey 0xE0114)) 31 || decide (regFld s (aKey 0xE0114) 0 2 = 1)

/-- The status with which every new flow is refused: DEPARTING while the package quiesces (22 R496), REOPENED during a drain (23 R519). -/
def flowBar (s : State) : Option Status :=
  if ejecting s then some .departing else if s.hmk.draining then some .reopened else none

/-- Opens a flow with its first message (19 R420, R421, R424); with no flow number free the open waits. -/
def openFlow (s : State) (peer kind : Nat) (use : FlowUse) (m : List Byte) : State × Option Nat :=
  let s := finOrphans s
  match freeKey s.strand.flows 0 4096 with
  | none => ({ s with strand := { s.strand with waiting := s.strand.waiting ++ [⟨peer, kind, use, m⟩] } }, none)
  | some num => (pumpN 64 (setFlow s (newFlow s peer num kind use m)) num, some num)

/-- Opens that waited take the numbers that have become free, at most n. -/
def retryWaiting : Nat → State → State
  | 0, s => s
  | n + 1, s =>
    match s.strand.waiting with
    | [] => s
    | w :: rest =>
      if (freeKey s.strand.flows 0 4096).isNone then s
      else retryWaiting n (openFlow { s with strand := { s.strand with waiting := rest } } w.peer w.kind w.use w.msg).1

/-- A flow has closed in both directions with everything acknowledged (19 R420). -/
def flowClosed (f : Flow) : Bool := f.finSent && f.finGot && f.queue.isEmpty && f.sent.isEmpty

/-! ## Receiving frames (19 R416 to R422) -/

/-- A transport header as received. -/
structure Hdr where
  typ : Nat
  ackValid : Bool
  last : Bool
  first : Bool
  opener : Bool
  src : Nat
  kind : Nat
  flow : Nat
  len : Nat
  seq : Nat
  ack : Nat
  sack : Nat
  deriving DecidableEq, Repr

/-- The header of a frame. -/
def hdrOf (b : List Byte) : Hdr :=
  ⟨rdB b 0 % 16, nbit (rdB b 1) 3, nbit (rdB b 1) 2, nbit (rdB b 1) 1, nbit (rdB b 1) 0, rdB b 2, rdLe b 4 2 / 4096, rdLe b 4 2 % 4096,
   rdLe b 6 2, rdLe b 8 4, rdLe b 12 4, rdLe b 16 8⟩

/-- Payload of a frame. -/
def payloadOf (b : List Byte) : List Byte := slice b 32 (rdLe b 6 2)

/-- A frame is foreign (19 R417). -/
def frameForeign (s : State) (b : List Byte) : Bool :=
  decide (rdB b 0 / 16 ≠ 1) || decide (16 ≤ rdB b 1) || decide (64 ≤ rdB b 2) || decide (64 ≤ rdB b 3) || !zeroAt b 28 4 ||
  nbit (rdLe b 16 8) 63 || pkgNo s != some (rdB b 3) || !planNames s (rdB b 2)

/-- The CRC of a frame matches. -/
def frameCrcOk (b : List Byte) : Bool :=
  decide (32 + rdLe b 6 2 ≤ b.length) && (crcBlanked (b.take (32 + rdLe b 6 2)) 24 == BitVec.ofNat 32 (rdLe b 24 4))

/-- What an arriving frame gives to the unit that uses its flow. -/
inductive FlowEvent where
  | message (k : Nat) (m : List Byte)
  | refused (k : Nat) (use : FlowUse) (st : Nat)
  | closed (k : Nat) (use : FlowUse) (st : Nat)
  | acked (k : Nat)
  | finished (k : Nat)
  | done (use : FlowUse)
  deriving DecidableEq, Repr

/-- Number of the flow a frame belongs to: its OPENER bit tells who opened it. -/
def hdrKey (h : Hdr) : Nat := flowKey (!h.opener) h.src h.flow

/-- Progress from a peer (19 R424, R426): its flows' timeouts count anew. -/
def progressFrom (s : State) (peer : Nat) : State :=
  { s with strand := { s.strand with flows := s.strand.flows.map (fun p =>
      if p.2.peer = peer then (p.1, { p.2 with sent := p.2.sent.map (fun q => (q.1, { q.2 with timeouts := 0 })) }) else p) } }

/-- The acknowledgement that a frame carries (19 R422): cumulative and selective. -/
def takeAck (s : State) (k : Nat) (h : Hdr) : State × List FlowEvent :=
  match look s.strand.flows k with
  | none => (s, [])
  | some f =>
    if !h.ackValid ∨ f.next < h.ack then (s, [])
    else
      let kept := (f.sent.filter (fun p => decide (h.ack ≤ p.1))).map (fun p =>
        (p.1, if h.ack < p.1 ∧ nbit h.sack (p.1 - h.ack - 1) then { p.2 with sacked := true } else p.2))
      let news := decide (kept.length < f.sent.length) ||
        decide ((f.sent.filter (fun p => p.2.sacked)).length < (kept.filter (fun p => p.2.sacked)).length)
      let s := setFlow s { f with sent := kept, una := max f.una h.ack }
      ((if news then progressFrom s f.peer else s), [.acked k])

/-- A message of a flow kind and direction has an allowed TYPE (19 Table - Flow kinds). -/
def typeAllowed (kind : Nat) (fromOpener : Bool) (t : Nat) : Bool :=
  match kind, fromOpener with
  | 1, true => t == 1 || t == 2
  | 1, false => t == 0x30
  | 2, true => t == 0x10
  | 2, false => t == 0x11 || t == 0x30
  | 3, true => t == 0x20
  | 3, false => t == 0x21 || t == 0x30
  | _, _ => false

/-- One frame in its turn (19 R419): none when it breaks the cutting of messages. -/
def takeFrame (f : Flow) (fr : FlowFrame) : Option (Flow × List (List Byte)) :=
  if fr.typ = 6 then (if f.inMsg then none else some ({ f with finGot := true, expect := f.expect + 1 }, []))
  else if fr.first == f.inMsg then none
  else if !fr.last && decide (fr.payload.length ≠ 8960) then none
  else
    let m := f.part ++ fr.payload
    if fr.last then
      if rdLe m 4 4 ≠ m.length ∨ !typeAllowed f.kind (!f.mine) (rdB m 0) ∨ !zeroAt m 1 3 then none
      else some ({ f with part := [], inMsg := false, expect := f.expect + 1 }, [m])
    else some ({ f with part := m, inMsg := true, expect := f.expect + 1 }, [])

/-- Frames in order from `expect`, at most n, with the messages they complete. -/
def drain : Nat → Flow → Option (Flow × List (List Byte))
  | 0, f => some (f, [])
  | n + 1, f =>
    match look f.early f.expect with
    | none => some (f, [])
    | some fr =>
      match takeFrame { f with early := remove f.early f.expect } fr with
      | none => none
      | some (f, ms) => (drain n f).map (fun r => (r.1, ms ++ r.2))

/-- A numbered frame of a flow arrives (19 R422): kept in the window, in order or early; a duplicate and a frame outside it are
discarded. An early frame or a duplicate is acknowledged at once. -/
def takeNumbered (s : State) (k : Nat) (h : Hdr) (fr : FlowFrame) : State × List FlowEvent :=
  match look s.strand.flows k with
  | none => (s, [])
  | some f =>
    if h.seq < f.expect ∨ (look f.early h.seq).isSome then (control s f 5 [], [])
    else if f.expect + 64 ≤ h.seq then (s, [])
    else
      let s := progressFrom s f.peer
      let inTurn := decide (h.seq = f.expect)
      let f := { (look s.strand.flows k).getD f with early := place f.early h.seq fr }
      match drain 64 f with
      | none => (abandonFlow s k 0x21, [.closed k f.use 0x21])
      | some (f', ms) =>
        let f' := { f' with ackOwed := true }
        let s := setFlow s f'
        let s := if inTurn then s else control s f' 5 []
        (s, ms.map (.message k) ++ (if f'.finGot && !f.finGot then [.finished k] else []))

/-- A flow that this end does not hold is answered with RESET carrying PEER_LOST (19 R420). -/
def resetUnknown (s : State) (l : Nat) (h : Hdr) : State :=
  let f : Flow := ⟨!h.opener, h.src, h.flow, 0, .fresh, l / 2, 0, true, false, [], [], 0, 0, false, 0, [], [], false, false, false, false, 0⟩
  control s f 8 (statusMsg 0x60 0 0)


/-- Flows that this package has accepted. -/
def acceptedCount (s : State) : Nat := (s.strand.flows.filter (fun p => !p.2.mine)).length

/-- A new flow at its acceptor: the OPEN frame is taken; a REFUSE answers while every new flow is refused (22 R496, 23 R519). -/
def takeOpen (s : State) (l : Nat) (h : Hdr) (b : List Byte) : State × List FlowEvent :=
  let f : Flow := ⟨false, h.src, h.flow, h.kind, .fresh, l / 2, 0, false, false, [], [], 0, 0, false, 0, [], [], false, false, false, true,
    rdLe b 24 4⟩
  match flowBar s with
  | some st => (control s f 3 (statusMsg (statusCode st) 0 0), [])
  | none => takeNumbered (setFlow s f) (hdrKey h) h ⟨1, h.first, h.last, payloadOf b⟩

/-- An OPEN arrives (19 R420, R421, Corners): for a flow still held it is a duplicate of its own OPEN, or is answered with RESET;
beyond 4,096 accepted flows it is held. -/
def openArrives (s : State) (l : Nat) (h : Hdr) (b : List Byte) : State × List FlowEvent :=
  match look s.strand.flows (hdrKey h) with
  | some f => if f.openCrc = rdLe b 24 4 then (control s f 5 [], []) else (resetUnknown s l h, [])
  | none =>
    if s.strand.heldOpens.any (fun p => hdrKey (hdrOf p.2) == hdrKey h) then (s, [])
    else if 4096 ≤ acceptedCount s then ({ s with strand := { s.strand with heldOpens := s.strand.heldOpens ++ [(l, b)] } }, [])
    else takeOpen s l h b

/-- STATUS of the STATUS message in a payload. -/
def statusOf (m : List Byte) : Nat := rdB m 16

/-- The acceptor replies on the pair of the opener's latest frame (19 R424). -/
def followPair (s : State) (k l : Nat) : State :=
  match look s.strand.flows k with
  | some f => if f.mine then s else setFlow s { f with pair := l / 2 }
  | none => s

/-- The bit of a peer in STR_PEER_LOST. -/
def setLost (s : State) (peer : Nat) (v : Bool) : State :=
  regSetFld s (aKey (0xB0200 + 4 * (peer / 32))) (peer % 32) 1 (if v then 1 else 0)

/-- A frame that R409 and R417 accept does its work (19 R420, R422, R426). -/
def frameWork (s : State) (l : Nat) (h : Hdr) (b : List Byte) : State × List FlowEvent :=
  let k := hdrKey h
  if h.typ = 1 then openArrives s l h b
  else match look s.strand.flows k with
    | none => if h.typ = 4 ∨ h.typ = 5 ∨ h.typ = 6 then (resetUnknown s l h, []) else (s, [])
    | some f =>
      let s := followPair s k l
      match h.typ with
      | 2 =>
        if !f.mine then (s, [])
        else
          let s := progressFrom (setLost s f.peer false) f.peer
          let (s, es) := takeAck (setFlow s { (look s.strand.flows k).getD f with accepted := true, retry := false }) k h
          (s, es)
      | 3 => if !f.mine then (s, []) else (dropFlow (progressFrom s f.peer) k, [.refused k f.use (statusOf (payloadOf b))])
      | 5 => takeAck s k h
      | 7 => (progressFrom s f.peer, [])
      | 8 =>
        let st := statusOf (payloadOf b)
        if f.mine ∧ !f.accepted ∧ st = 0x60 then (setFlow s { f with retry := true }, [])
        else (dropFlow s k, [.closed k f.use (if st = 0x21 then 0x21 else 0x60)])
      | 4 | 6 =>
        let (s, e1) := takeAck s k h
        let (s, e2) := takeNumbered s k h ⟨h.typ, h.first, h.last, payloadOf b⟩
        (s, e1 ++ e2)
      | _ => (foreign s l, [])

/-- Flows that have closed go, with word of it to their users. -/
def reapFlows (s : State) : State × List FlowEvent :=
  let gone := s.strand.flows.filter (fun p => flowClosed p.2)
  (gone.foldl (fun s p => dropFlow s p.1) s, gone.map (fun p => .done p.2.use))

/-- A frame arrives on a lane (19 R409, R415, R417). `fits` tells whether the frame is the one the command names. -/
def frameArrives (s : State) (l : Nat) (b : List Byte) (fits : Hdr → Bool) : State × List FlowEvent :=
  if !alive s ∨ 16 ≤ l ∨ laneState s l = 0 ∨ !fits (hdrOf b) then (s, [])
  else if !isSealedNow s ∨ laneState s l ≠ 2 then (foreign s l, [])
  else if frameForeign s b then (foreign s l, [])
  else if !frameCrcOk b then (laneCount s l 0xC, [])
  else
    let (s, es) := frameWork s l (hdrOf b) b
    let s := pumpAll s
    let (s, ds) := reapFlows s
    (retryWaiting s.strand.waiting.length s, es ++ ds)

/-- TYPE of the message that a frame ends, as far as this end holds it: its own first byte, or that of the message under way. -/
def endsMessage (s : State) (b : List Byte) : Option Nat :=
  let h := hdrOf b
  if !h.last then none
  else if h.first then some (rdB b 32)
  else (look s.strand.flows (hdrKey h)).bind (fun f => (f.part.head?).map (·.toNat))

/-! ## Ends of flows by their use -/

/-- Numbers of the flows with a use. -/
def flowsOf (s : State) (p : FlowUse → Bool) : List Nat := (s.strand.flows.filter (fun x => p x.2.use)).map (·.1)

/-- The use of a flow is set once its first message is admitted, and the opener is told (19 R420). -/
def admitFlow (s : State) (k : Nat) (use : FlowUse) : State :=
  match look s.strand.flows k with
  | none => s
  | some f =>
    let f := { f with use := use, accepted := true, works := false }
    let s := setLost (setFlow s f) f.peer false
    control s f 2 []

/-- A first message is not admitted: REFUSE ends the flow at both ends (19 R420). -/
def refuseFlow (s : State) (k st : Nat) : State :=
  match look s.strand.flows k with
  | none => s
  | some f => dropFlow (control s f 3 (statusMsg st 0 0)) k

/-- Whether the peer of a flow waits for work of this package (19 R427). -/
def setWorks (s : State) (k : Nat) (v : Bool) : State :=
  match look s.strand.flows k with | some f => setFlow s { f with works := v } | none => s

end Sys2Proof.Machine
end

