-- ==== Sys2Proof/Machine/Stop.lean ====
section
/-! DEFINITION. Stop: leaving SEALED, and what stops with it (23 R518, R521). -/
namespace Sys2Proof.Machine

/-- Sends HMK_CHANGED with the present state, reason and GEN_LAST (23 R514). -/
def hmkEvent (s : State) : State :=
  raise s 0 .hmkChanged 0x10 0 0xFF (hmkCode s.hmk.state + s.hmk.reason * 2 ^ 8 + s.hmk.genLast.toNat * 2 ^ 16)

/-- Every request in flight ends with a status, the work of the engines for them with it, and every flow without RESET
(19 R415, Corners). -/
def endWork (s : State) (st : Status) : State := strandStop (endAll s st)

/-- The hallmark enters HELD (23 R518): requests complete with the status of the cause, flash jobs stop, a check or drain is
abandoned, HMK_CHANGED is sent. HMK_WHERE is given no value by the spec here: it reads 0 (note 7). -/
def enterHeld (s : State) (st : Status) (reason : Nat) : State :=
  let s := endWork s st
  let s := stopJobs s 6
  let s := regSet s 0x100C 0#32
  hmkEvent { s with hmk := { s.hmk with state := .held, draining := false, check := none, reason := reason } }

end Sys2Proof.Machine
end

