-- ==== Sys2Proof/Machine/Operands.lean ====
section
/-! DEFINITION. Operands: every operand form of a descriptor: host and device locations, names, groups, expert extensions, and
how a running request ends. -/
namespace Sys2Proof.Machine

/-- What reading an operand gives: its value, a wait for data that has not come yet, or a failure. -/
inductive Got (α : Type) where
  | ok (v : α) | wait | fail (st : Status)
  deriving DecidableEq, Repr

/-- A read that may count poisonings on its way. -/
abbrev Reading (α : Type) := State × Got α

/-- Continues a reading. -/
def Got.andThen {α β : Type} (x : Reading α) (f : State → α → Reading β) : Reading β :=
  match x.2 with
  | .ok v => f x.1 v
  | .wait => (x.1, .wait)
  | .fail st => (x.1, .fail st)

/-- n bytes of host memory for a request (08 R166, R171; 16 R353): all of them must have come; the first bad one, in address
order, fails the request. -/
def hostRead (r : Request) (a n : Nat) : Got (List Byte) :=
  let bs := (rangeFrom a n).map (hostByte r.hostIn)
  if bs.any Option.isNone then
    if bs.any (fun b => match b with | some (_, .xlate) => true | _ => false) then .fail .xlateFault else .wait
  else match bs.findSome? (fun b => match b with
      | some (_, .poisoned) => some Status.poisonHost | some (_, .xlate) => some Status.xlateFault | _ => none) with
    | some st => .fail st
    | none => .ok (bs.map (fun b => match b with | some (v, _) => v | none => 0#8))

/-- n bytes of device memory for a tenant (06 R121, R127; 08 R171): the home gives what it holds, an owner's bytes first (05 R108); a
line in a transaction is waited for (05 R101). -/
def devRead (s : State) (t a n : Nat) : Reading (List Byte) :=
  match checkAccess s t a n with
  | some st => (s, .fail st)
  | none =>
    if cohBusy s a n then (s, .wait)
    else
    let s := engRead s t a n
    match memPoison s a n with
    | some o => (s, .fail (poisonStatus o))
    | none => (s, .ok (memRead s a n))

/-- Reads of n bytes of host memory that a request lacks join those of its port, once each (16 R343, R347): a wait keeps them
(`keepReads`). A request of a peer reads no host memory. -/
def wantReads (s : State) (r : Request) (a n : Nat) : State :=
  match r.source with
  | .peer _ => s
  | .ring fn _ _ _ _ =>
    let q := portOf s fn.port
    let new := (asksFor s fn r.tag a n).filter (fun x => !askHere r x && !(q.reads ++ q.held).contains x)
    setPort s fn.port { q with held := q.held ++ new }

/-- n bytes of host memory for a request, read where they have not come yet. -/
def hostGet (s : State) (r : Request) (a n : Nat) : Reading (List Byte) :=
  match hostRead r a n with
  | .wait => (wantReads s r a n, .wait)
  | g => (s, g)

/-- Work that waits leaves the state as it was (note 13), but for the reads it asked for, which leave as their ports let them. -/
def keepReads (s t : State) : State :=
  if t.ports = s.ports then s else joinReads (joinReads { s with ports := t.ports } 0 []) 1 []

/-- n bytes named by an address and its address space: 0 host, 1 device. -/
def readAt (s : State) (r : Request) (dev : Bool) (a n : Nat) : Reading (List Byte) :=
  if dev then devRead s r.tenant a n else hostGet s r a n

/-- The check of an output location before anything is written: regions and units in device memory (18 R395); in host memory, a
translation known to give no access to any of its bytes (16 R353). -/
def outCheck (s : State) (r : Request) (dev : Bool) (a n : Nat) : Option Status :=
  if dev then checkAccess s r.tenant a n else if noAccess r a n then some .xlateFault else none

/-- Writes an output (16 R347): a host write on the request's own port and function, which a fenced port does not
carry (02 R46), or device memory. -/
def writeOut (s : State) (r : Request) (dev : Bool) (a : Nat) (d : List Byte) : State :=
  if d.isEmpty then s
  else if dev then engWrite s r.tenant a d
  else match r.source with
    | .ring fn _ _ _ _ => if hostLive s (portFacet fn.port) then hostSend s fn a d else s
    | .peer _ => s

/-- An area that a unit uses as it likes holds values that the spec does not give (notes 27, 127). -/
def spoilArea (s : State) (a n : Nat) : State :=
  { memWrite s a ((upto n).map (fun i => (Config.freeValue (s.freeCount + i)).setWidth 8)) with freeCount := s.freeCount + n }

/-- An area that a unit keeps data in at places the spec does not give: its bytes hold free values, its poison stays (note 69). -/
def spoilBytes (s : State) (a n : Nat) : State :=
  { s with
    mem := { s.mem with bytes := putBytes s.mem.bytes a ((upto n).map (fun i => (Config.freeValue (s.freeCount + i)).setWidth 8)) }
    freeCount := s.freeCount + n }

/-- The end of one request's work: its result words and status. -/
abbrev Ended := Reading (List Nat × Status)

/-- No partition of the package is live: register-only service (02 R51). -/
def noService (s : State) : Bool := (upto 64).all (fun p => !(partLive s p && fabricLive s (p / 8)))

/-- The status of a failure under register-only service (02 R51): checks of the request itself and TIER_FENCED keep theirs. -/
def serviceStatus (s : State) (st : Status) : Status :=
  if noService s ∧ 0x40 ≤ statusCode st ∧ st ≠ .tierFenced then .noPartition else st

/-- Ends a request by what its work gave: a wait sends its reads, a failure posts zeros (24 R528); under register-only
service no work is done (02 R51). -/
def conclude (s : State) (tag : Nat) (e : Ended) : State :=
  match e.2 with
  | .wait => keepReads s e.1
  | .fail st => finish e.1 tag (serviceStatus s st) []
  | .ok (res, st) => if noService s then finish s tag .noPartition [] else finish e.1 tag st res

/-- Work of a request ends after steps of its own: in a pipeline the stage waits to be taken, alone the request completes. -/
def finishStage (s : State) (tag : Nat) (words : List Nat) (st : Status) : State :=
  match look s.requests tag with
  | none => s
  | some r =>
    match r.pipe with
    | some p => setRequest s tag { r with pipe := some { p with done := some (words, st) } }
    | none => finish s tag st (if isFailure st then [] else words)

/-- Runs a request's work when it may run now. -/
def runOp (s : State) (tag opcode : Nat) (f : State → Request → Ended) : State :=
  match running s tag opcode with
  | some r => conclude s tag (f s r)
  | none => s

/-- A field of the 48-byte body by its descriptor byte offset (16 to 63). -/
def bodyLe (r : Request) (off n : Nat) : Nat := rdLe r.body (off - 16) n

/-- A byte of the body by its descriptor byte offset. -/
def bodyB (r : Request) (off : Nat) : Nat := rdB r.body (off - 16)

/-- All body bytes from `off`, n of them, are 0. -/
def bodyZero (r : Request) (off n : Nat) : Bool := zeroAt r.body (off - 16) n

/-- The extension, 64 zero bytes when the descriptor has none. -/
def extOf (r : Request) : List Byte := r.ext.getD (List.replicate 64 0#8)

/-- An _X extension field as it acts (00 R13, 18 R399): the tenant's mask bit at fetch decides, the owner's always acts. -/
def extField (r : Request) (group : Nat) (value dflt : Nat) : Nat :=
  if r.expert.testBit group then value else dflt

/-- TENANT of an assignment word covers tenant t (09 R182): the owner always, the tenant named, or all. -/
def assignedTo (w : Word) (t : Nat) : Bool :=
  let v := fld w 0 8
  decide (t = 0) || decide (v = t) || decide (v = 0xFF)

/-- Whether a name that a request gives resolves: pinned while the request was in flight (09 R181, 18 R403), or loaded, not
being unloaded, and assigned to the tenant in force. -/
def resolves (s : State) (r : Request) (nm : SlotName) (unloading : Bool) (assignKey : Nat) : Bool :=
  r.names.contains nm || (!unloading && assignedTo (forceGet s assignKey) r.tenant)

/-- A unit of a facet's engine kind serves a request: the one the command names when it is live, none when no facet has one
(09 Corners). `none`: the named unit cannot be the one chosen. -/
def engineFor (s : State) (kind f : Nat) : Option (Option Status) :=
  if !someEngine s kind then some (some .noEngine)
  else if f < 8 ∧ engineLive s f kind ∧ fabricLive s f then some none
  else none

end Sys2Proof.Machine
end

