-- ==== Sys2Proof/Machine/Troy.lean ====
section
/-! DEFINITION. Troy: troy images as data: header, segments, operations, reading the payload, and resolving a troy handle
(15 R318 to R323). -/
namespace Sys2Proof.Machine

/-! ## Header fields (15 Table - Troy header) -/

/-- KIND: 0 encoder, 1 cross-encoder, 2 generator. -/
def tyKind (m : List Byte) : Nat := rdB m 6
/-- EXEC: 1 STREAMED. -/
def tyExec (m : List Byte) : Nat := rdB m 7
/-- IMAGE_ID. -/
def tyId (m : List Byte) : Nat := rdLe m 8 8
/-- IMAGE_LEN. -/
def tyLen (m : List Byte) : Nat := rdLe m 16 8
/-- META_LEN. -/
def tyMeta (m : List Byte) : Nat := rdLe m 28 4
/-- LAYERS. -/
def tyLayers (m : List Byte) : Nat := rdLe m 32 2
/-- UNITS. -/
def tyUnits (m : List Byte) : Nat := rdB m 34
/-- SEG_COUNT. -/
def tySegs (m : List Byte) : Nat := rdLe m 36 4
/-- OP_COUNT. -/
def tyOps (m : List Byte) : Nat := rdLe m 44 4
/-- HIDDEN. -/
def tyHidden (m : List Byte) : Nat := rdLe m 52 4
/-- VOCAB_SIZE. -/
def tyVocab (m : List Byte) : Nat := rdLe m 56 4
/-- MAX_CONTEXT, or the largest sequence length. -/
def tyContext (m : List Byte) : Nat := rdLe m 60 4
/-- KV_HEADS. -/
def tyHeads (m : List Byte) : Nat := rdB m 64
/-- CACHE_FMT. -/
def tyCache (m : List Byte) : Nat := rdB m 65
/-- HEAD_DIM. -/
def tyHeadDim (m : List Byte) : Nat := rdLe m 66 2
/-- EMB_FMT. -/
def tyEmb (m : List Byte) : Nat := rdB m 68
/-- FIX_OFFSET. -/
def tyFix (m : List Byte) : Nat := rdLe m 72 4
/-- FIX_COUNT. -/
def tyFixCount (m : List Byte) : Nat := rdLe m 76 4

/-- Fixed tokens of a cross-encoder: those before the query, between, and after the passage. -/
def fixedTokens (m : List Byte) : List Nat × List Nat × List Nat :=
  let o := tyFix m
  let all := (upto (tyFixCount m)).map (fun i => rdLe m (o + 8 + 4 * i) 4)
  let pre := rdLe m o 2
  let mid := rdLe m (o + 2) 2
  (all.take pre, slice all pre mid, all.drop (pre + mid))

/-- A segment (15 Table - Troy segment). -/
structure Seg where
  layer : Nat
  unit : Nat
  hbm : Bool
  facet : Nat
  rsv : Bool
  off : Nat
  dest : Nat
  len : Nat
  deriving DecidableEq, Repr

/-- Segment i. -/
def segOf (m : List Byte) (i : Nat) : Seg :=
  let o := rdLe m 40 4 + 32 * i
  ⟨rdLe m o 2, rdB m (o + 2), nbit (rdB m (o + 3)) 3, rdB m (o + 3) % 8, decide (rdB m (o + 3) / 16 ≠ 0) || !zeroAt m (o + 4) 4,
   rdLe m (o + 8) 8, rdLe m (o + 16) 8, rdLe m (o + 24) 8⟩

/-- Every segment. -/
def segsOf (m : List Byte) : List Seg := (upto (tySegs m)).map (segOf m)

/-- An operation (15 Table - Troy operation): layer, unit, format, K, N, and its pinned array. -/
structure TroyOp where
  layer : Nat
  unit : Nat
  fmt : Nat
  k : Nat
  n : Nat
  pin : Option Nat
  rsv : Bool
  deriving DecidableEq, Repr

/-- Operation i. -/
def opOf (m : List Byte) (i : Nat) : TroyOp :=
  let o := rdLe m 48 4 + 16 * i
  ⟨rdLe m o 2, rdB m (o + 2), rdB m (o + 3), rdLe m (o + 4) 4, rdLe m (o + 8) 4,
   if nbit (rdB m (o + 12)) 7 then some (rdB m (o + 12) % 64) else none,
   nbit (rdB m (o + 12)) 6 || !zeroAt m (o + 13) 3 || (!nbit (rdB m (o + 12)) 7 && decide (rdB m (o + 12) % 64 ≠ 0))⟩

/-- Every operation. -/
def opsOf (m : List Byte) : List TroyOp := (upto (tyOps m)).map (opOf m)

/-! ## The image in memory -/

/-- Base and length of a facet's placement for a tier (15 R325). -/
def placeOf (block : List Byte) (hbm : Bool) (f : Nat) : Nat × Nat :=
  let o := 32 * f + (if hbm then 16 else 0)
  (rdLe block o 8, rdLe block (o + 8) 8)

/-- Address of a segment's bytes under a placement. -/
def segAddr (im : Image) (g : Seg) : Nat := (placeOf im.block g.hbm g.facet).1 + g.dest

/-- Bytes of an image as loaded: its metadata and its segments, in image order (15 R340). Bytes between segments are held
nowhere: free values of the image and the place (note 45). -/
def imageBytes (s : State) (im : Image) : List Byte :=
  (segsOf im.md).foldl (fun acc g =>
      acc ++ (rangeFrom acc.length (g.off - acc.length)).map (Config.gapByte im.md im.block) ++ memRead s (segAddr im g) g.len)
    (im.md.take (tyMeta im.md))

/-- Layers and units of an image, in order (15 R331). -/
def unitsOf (m : List Byte) : List (Nat × Nat) := (upto (tyLayers m)).flatMap (fun l => (upto (tyUnits m)).map (fun u => (l, u)))

/-- Bytes of one unit's segments on a facet. -/
def unitBytes (m : List Byte) (x : Nat × Nat) (f : Nat) : Nat :=
  (((segsOf m).filter (fun g => g.layer == x.1 && g.unit == x.2 && g.facet == f)).map (·.len)).sum

/-- W_f of 15 R330. -/
def windowHalf (m : List Byte) (f : Nat) : Nat := ((unitsOf m).map (fun x => unitBytes m x f)).foldl max 0

/-- Segments of unit number k. -/
def unitSegs (im : Image) (k : Nat) : List Seg :=
  let x := (unitsOf im.md).getD k (0, 0)
  (segsOf im.md).filter (fun g => g.layer == x.1 && g.unit == x.2)

/-- Where unit number k lies in the window of a facet: from the start of its half (15 R330, R331; note 127). -/
def windowRange (im : Image) (k f : Nat) : Nat × Nat :=
  ((placeOf im.block false f).1 + k % 2 * windowHalf im.md f, unitBytes im.md ((unitsOf im.md).getD k (0, 0)) f)

/-- The first fence, or poison as `bad` tells it, in the window bytes of unit number k (15 R338; 06 R121). -/
def windowFault (s : State) (im : Image) (k : Nat) (bad : Nat → Nat → Option Origin) : Option Status :=
  (upto 8).findSome? (fun f =>
    let w := windowRange im k f
    if w.2 = 0 then none
    else if !rangeLive s w.1 w.2 then some .tierFenced
    else (bad w.1 w.2).map poisonStatus)

/-- Number of an operation's unit in the order in which a streamed image's units run; data outside the layers have none (15 R331). -/
def opUnit (m : List Byte) (o : TroyOp) : Option Nat := if o.layer = 0xFFFF then none else some (o.layer * tyUnits m + o.unit)

/-- The first fence or poison that reads of some segments meet (15 R338; 08 R171). -/
def segsFault (s : State) (im : Image) (gs : List Seg) : Option Status :=
  gs.findSome? (fun g =>
    if !rangeLive s (segAddr im g) g.len then some .tierFenced
    else (memPoison s (segAddr im g) g.len).map poisonStatus)

/-- The first fence or poison that a run through the whole image meets. -/
def imageFault (s : State) (im : Image) : Option Status := segsFault s im (segsOf im.md)

/-- What reading some segments for a tenant does at the homes and to the counts (08 R174). -/
def segsRead (s : State) (t : Nat) (im : Image) (gs : List Seg) : State :=
  gs.foldl (fun s g => if rangeLive s (segAddr im g) g.len then engRead s t (segAddr im g) g.len else s) s

/-- The segments that layer l of a run is read from: its own where the image is resident, and the data outside the layers that its ends
need. -/
def layerSegs (im : Image) (l : Nat) : List Seg :=
  (segsOf im.md).filter (fun g => (decide (tyExec im.md ≠ 1) && g.layer == l) || (g.layer == 0xFFFF && (l == 0 || l + 1 == tyLayers im.md)))

/-- The first fence or poison that layer l of a run meets: in its own segments, and in the data outside the layers, which the first layer's
input and the last layer's output need (15 R338; note 155). A streamed image's layers are read through its window. -/
def layerFault (s : State) (im : Image) (l : Nat) : Option Status := segsFault s im (layerSegs im l)

/-! ## Slots and handles (15 R318 to R320, R334, R337) -/

/-- Code of a slot's state (15 Table - WGT_TROY fields). -/
def troyCode : TroyState → Nat
  | .empty => 0 | .loading => 1 | .ready => 2 | .lost => 3

/-- Metadata that a slot shows: its image, else the metadata accepted by its load. -/
def shownMeta (t : TroySlot) : List Byte :=
  match t.image with | some im => im.md | none => (match t.load with | some l => l.metaOk.getD [] | none => [])

/-- WGT_TROY of a slot (15 Table - WGT_TROY fields). -/
def troyWord (s : State) (n : Nat) : Word :=
  let t := troyOf s n
  let md := shownMeta t
  if t.state = .empty then 0#32
  else BitVec.ofNat 32 (troyCode t.state * 2 ^ 30 + tyKind md % 4 * 2 ^ 28 + tyExec md % 2 * 2 ^ 27 + tyLayers md % 256)

/-- WGT_TROY_ID of a slot. -/
def troyIdOf (s : State) (n : Nat) : Nat := if (troyOf s n).state = .empty then 0 else tyId (shownMeta (troyOf s n))

/-- The image that a request names through a troy handle (15 R318, R320, R334; 18 R403). -/
def imageFor (s : State) (r : Request) (n : Nat) : Except Status Image :=
  let t := troyOf s n
  match r.names.findSome? (fun x => match x with | .troy k g => if k = n then some g else none | _ => none) with
  | some g =>
    match (if g = t.gen then t.image else look t.olds g) with
    | some im => if g = t.gen ∧ t.state = .lost then .error .tierFenced else .ok im
    | none => .error .notFound
  | none =>
    if 64 ≤ n ∨ !assignedTo (forceGet s (aKey (0xA0400 + 4 * n))) r.tenant ∨ t.unload.isSome then .error .notFound
    else match t.state, t.image with
      | .ready, some im => .ok im
      | .loading, _ => .error .imageBusy
      | .lost, _ => .error .tierFenced
      | _, _ => .error .notFound

/-! ## Partition groups (14 R292, R293; 02 R42, R49) -/

/-- Live partitions of a resolved group that the tenant still holds (02 R49, 18 R403). -/
def groupParts (s : State) (t : Nat) (mask : Nat) : List Nat :=
  (upto 64).filter (fun p => nbit mask p && nbit (partsOf s t) p && partLive s p && fabricLive s (p / 8))

/-- Arrays of a group that qualify for matrix work (02 R42). -/
def groupArrays (s : State) (t : Nat) (mask : Nat) : List Nat := (groupParts s t mask).filter (arrayUsable s)

/-- The group a descriptor names, as resolved at its fetch (14 R293). -/
def groupOf (r : Request) (g : Nat) : Nat := (r.groups.getD g 0#64).toNat

/-- The status of a group that cannot run: absent, without a live partition, or, for matrix work, without an array. -/
def groupFault (s : State) (r : Request) (g : Nat) (matrix : Bool) : Option Status :=
  let m := groupOf r g
  if m = 0 then some .notFound
  else if (groupParts s r.tenant m).isEmpty then some .noPartition
  else if matrix ∧ (groupArrays s r.tenant m).isEmpty then some .noArray
  else none

/-- Facet of a group's lowest partition. -/
def groupFacet (mask : Nat) : Nat := ((onesOf 64 mask).headD 0) / 8

/-! ## Ends of loads and lost images (15 R327, R328, R334, R338) -/

/-- Words of a load's completion (15 Table - LOAD_WEIGHTS completion fields). -/
def loadWords (l : TroyLoad) (pages source place : Nat) : List Nat :=
  [pages, source * 2 ^ 24 + l.failed * 2 ^ 20 + l.firstStatus, l.need, place]

/-- Pages written so far by a load. -/
def loadPages (l : TroyLoad) : Nat :=
  match l.metaOk with
  | none => 0
  | some m => ((l.done.map (fun i => (segOf m i).len)).sum + 4095) / 4096

/-- A segment lies wholly or partly on a slice (kind 3) or HBM stack (kind 4). -/
def segTouches (im : Image) (kind u : Nat) (g : Seg) : Bool :=
  if kind = 3 then
    !g.hbm && decide (segAddr im g < 0x40000000 + (u + 1) * 0x800000) && decide (0x40000000 + u * 0x800000 < segAddr im g + g.len)
  else g.hbm && decide (g.facet = u)

/-- An image has a byte on a unit. -/
def imageTouches (im : Image) (kind u : Nat) : Bool := (segsOf im.md).any (segTouches im kind u)

/-- A slot becomes LOST: the owner and the tenants it is assigned to are told (15 R338). -/
def slotLost (s : State) (n f : Nat) : State :=
  let s := setTroy s n { troyOf s n with state := .lost }
  let s := raise s 0 .imageLost 0xA f 0xFF n
  ((rangeFrom 1 64).filter (assignedTo (forceGet s (aKey (0xA0400 + 4 * n))))).foldl (fun s t => raise s t .imageLost 0xA f t n) s

/-- The facet of the first fenced unit that an image lies on. -/
def lostFacet (s : State) (im : Image) : Option Nat :=
  ((segsOf im.md).find? (fun g => !rangeLive s (segAddr im g) g.len)).map (·.facet)

/-- An in-place SWAP whose image was refused: the slot is as it was (15 R324), LOST when a unit of its image was fenced meanwhile. -/
def swapRefused (s : State) (n : Nat) (t : TroySlot) : State :=
  let s := setTroy s n { t with load := none, claim := none, state := .ready }
  match t.image.bind (lostFacet s) with
  | some f => slotLost s n f
  | none => s

/-- A load fails: its slot, its flow and its request end (15 R324, R328, R334). -/
def loadFail (s : State) (n : Nat) (st : Status) (place : Nat) : State :=
  let t := troyOf s n
  match t.load with
  | none => s
  | some l =>
    let s := match l.flow with | some k => abandonFlow s k 0x60 | none => s
    let s := if l.mode = .inPlace ∧ st = .badImage ∧ l.metaOk = none then swapRefused s n t else setTroy s n (afterFailure t l.mode)
    finish s l.tag st (loadWords l (loadPages l) 0xFF place)

/-- A slice or HBM stack has been fenced: READY images on it are lost, and loads onto it fail (15 R338, Corners). -/
def imagesLost (s : State) (kind u : Nat) : State :=
  if kind ≠ 3 ∧ kind ≠ 4 then s
  else
    let f := if kind = 3 then u / 16 else u
    (keysOf s.troy).foldl (fun s n =>
      let t := troyOf s n
      let s := match t.image with
        | some im => if t.state = .ready ∧ imageTouches im kind u then slotLost s n f else s
        | none => s
      match t.load with
      | some l => match l.metaOk with
        | some m => if imageTouches ⟨m, l.block⟩ kind u then loadFail s n .tierFenced 0 else s
        | none => s
      | none => s) s

end Sys2Proof.Machine
end

