-- ==== Sys2Proof/Machine/Fencing.lean ====
section
/-! DEFINITION. Fencing: fence bits, FENCE_CHANGED, the fabric cascade, isolation, and the loss of the active Assay
controller (02 R37, R38, R43 to R46; 24 R539). A unit is named by KIND and NUMBER of Table - Fence detail. -/
namespace Sys2Proof.Machine

/-- Facets a unit belongs to, lower first (24 Table - Fence detail). -/
def unitFacets (kind n : Nat) : List Nat :=
  match kind with
  | 1 => [n / 8] | 2 => [n / 8] | 3 => [n / 16] | 4 => [n] | 5 => [n / 8] | 6 => [n / 4] | 7 => [n / 8 / 4] | 8 => [n / 2]
  | 9 => [n / 8, n % 8] | 10 => [n / 8] | 11 => [4 * n] | 12 => [4 * n] | _ => [n]

/-- BLOCK of FENCE_CHANGED by KIND (24 Table - Event sources). -/
def unitBlock (kind n : Nat) : Nat :=
  match kind with
  | 1 => 4 | 2 => 4 | 3 => 2 | 4 => 2 | 5 => 2 | 6 => 3 | 7 => 3 | 8 => 0xB | 9 => 0 | 10 => 5 + n % 8 | 11 => 0xC
  | 12 => 0xF | _ => 0

/-- Direction from facet a to its neighbour b. -/
def dirTo (a b : Nat) : Nat := ((upto 4).find? (fun d => neighbour a d == some b)).getD 0

/-- Register keys and bits that record a unit's fence (02 ASY_FENCE_A, ASY_FENCE_B; 07 FLS_TGT_OFF). -/
def unitBits (kind n : Nat) : List (Nat × Nat) :=
  let a := fun f => fKey f 0xF0100
  let b := fun f => fKey f 0xF0104
  match kind with
  | 1 => [(a (n / 8), 8 + n % 8)] | 2 => [(a (n / 8), n % 8)] | 3 => [(a (n / 16), 16 + n % 16)] | 4 => [(b n, 17)]
  | 5 => [(b (n / 8), 24 + n % 8)] | 6 => [(b (n / 4), 20 + n % 4)] | 7 => [(fKey (n / 32) 0x30020, n % 32)]
  | 8 => [(b (n / 2), 18 + n % 2)]
  | 9 => [(b (n / 8), 15 - dirTo (n / 8) (n % 8)), (b (n % 8), 15 - dirTo (n % 8) (n / 8))]
  | 10 => [(b (n / 8), 11 - n % 8)] | 11 => [(b (4 * n), 5)] | 12 => [(b (4 * n), 4)] | _ => [(b n, 16)]

/-- The unit's fence bit is set. -/
def isFenced (s : State) (kind n : Nat) : Bool := (unitBits kind n).all (fun kb => bitOf (regGet s kb.1) kb.2)

/-- A memory region touches a range of device addresses. -/
def touches (g : Region) (lo hi : Nat) : Bool := g.valid && decide (g.kind = 0) && decide (g.base < hi) && decide (lo < g.base + g.len)

/-- A tenant holds a memory or flash unit: one of its valid regions lies wholly or partly on it (02 R44). -/
def holdsUnit (s : State) (t kind n : Nat) : Bool :=
  (upto 16).any (fun r => let g := regionOf s t r
    match kind with
    | 3 => touches g (0x40000000 + n * 0x800000) (0x40000000 + (n + 1) * 0x800000)
    | 4 => touches g (0x1000000000 + n * 0x1000000000) (0x1000000000 + (n + 1) * 0x1000000000)
    | 5 => touches g (0x10000000000 + n / 8 * 0x2000000000) (0x10000000000 + (n / 8 + 1) * 0x2000000000)
    | 6 => g.valid && decide (g.kind = 1) && decide (g.base / 2 ^ 21 = n)
    | 7 => g.valid && decide (g.kind = 1) && decide (g.base / 2 ^ 18 = n)
    | _ => false)

/-- Tenants told of a unit's fence (02 R44): those that hold it or a partition on its facet. -/
def tenantsTold (s : State) (kind n : Nat) : List Nat :=
  (rangeFrom 1 64).filter (fun t =>
    (unitFacets kind n).any (fun f => decide (partsOf s t / 2 ^ (8 * f) % 256 ≠ 0)) || holdsUnit s t kind n)

/-- DETAIL of FENCE_CHANGED (24 Table - Event codes). -/
def fenceDetail (kind n cause : Nat) : Nat := kind + n * 2 ^ 8 + cause * 2 ^ 24

/-- Sends FENCE_CHANGED to the owner and to each tenant concerned (02 R44). -/
def fenceEvents (s : State) (kind n cause : Nat) : State :=
  let f := (unitFacets kind n).headD 0
  let s := raise s 0 .fenceChanged (unitBlock kind n) f 0xFF (fenceDetail kind n cause)
  (tenantsTold s kind n).foldl (fun s t => raise s t .fenceChanged (unitBlock kind n) f t (fenceDetail kind n cause)) s

/-- Sets a unit's fence bit and reports it, with nothing that follows from it; FLS_CH_CFG.RATE of a fenced channel reads 0 (07). A bit already set changes
nothing. -/
def markFenced (s : State) (kind n cause : Nat) : State :=
  if isFenced s kind n then s
  else
    let s := (unitBits kind n).foldl (fun s kb => regSet s kb.1 (setBit (regGet s kb.1) kb.2 true)) s
    let s := if kind = 1 then dropCache s n else if kind = 6 then flashLost (regSetFld s (fKey (n / 4) (0x30000 + 4 * (n % 4))) 12 4 0) (n / 4) else if kind = 7 then flashLost s (n / 32)
      else if kind = 8 then laneDown s n false else s
    imagesLost (fenceEvents s kind n cause) kind n

/-- Every unit of a facet other than its fabric island, as (KIND, NUMBER) (02 R45). An array counts only when the fuse map
enables it; links are those that exist. -/
def facetUnits (s : State) (f : Nat) : List (Nat × Nat) :=
  (upto 8).map (fun i => (1, 8 * f + i)) ++
  ((upto 8).filter (fun i => bitOf s.mfg.fuse (8 * f + i))).map (fun i => (2, 8 * f + i)) ++
  (upto 16).map (fun i => (3, 16 * f + i)) ++ [(4, f)] ++ (upto 8).map (fun i => (5, 8 * f + i)) ++
  (upto 4).map (fun i => (6, 4 * f + i)) ++ (upto 2).map (fun i => (8, 2 * f + i)) ++
  (upto 4).filterMap (fun d => (neighbour f d).map (fun g => (9, 8 * min f g + max f g))) ++
  (upto 6).map (fun i => (10, 8 * f + i)) ++ (if f % 4 = 0 then [(11, f / 4), (12, f / 4)] else [])

/-- Fences a fabric island and, with cause CASCADE, every unit of its facet (02 R45). -/
def fenceIsland (s : State) (f cause : Nat) : State :=
  if isFenced s 13 f then s
  else (facetUnits s f).foldl (fun s u => markFenced s u.1 u.2 10) (markFenced s 13 f cause)

/-- A facet has its register-only set (02 R50): controller, port, fabric island, at least 4 live slices. -/
def meetsR50 (s : State) (x : Side) : Bool :=
  let f := sideFacet x
  assayLive s f && hostLive s f && fabricLive s f && decide (4 ≤ ((upto 16).filter (fun i => sliceLive s (16 * f + i))).length)

/-- Fences the facets that live links no longer join to a facet (02 R46: ISOLATED is cause 8). -/
def fenceIsolated (s : State) (home : Nat) : State :=
  let seen := spread s 8 [home]
  ((upto 8).filter (fun f => fabricLive s f && !seen.contains f)).foldl (fun s f => fenceIsland s f 8) s

/-- The package is dead from now on (02 R52, R54): no controller is active, requests in flight complete with ASSAY_LOST, flows and
flash jobs stop, a check or drain is abandoned, no Chain frame goes, and ENUM_OUT passes ENUM_IN on. -/
def goDead (s : State) (c : DeadCause) : State :=
  let s := killJobs (endWork s .assayLost)
  driveEnum { attemptAbandoned s with
    hmk := { s.hmk with draining := false, check := none }
    assay := { s.assay with dead := some c, active := none, updating := false, resetWaits := false } }

/-- The active controller is lost (02 R38): the standby takes over when its facet meets R50; otherwise the package is dead, with
NO_CONTROLLER when the standby is fenced (02 Corners), else NO_PAIR. `cause` is that of ASSAY_TAKEOVER: 1 fenced set, 3
heartbeat. -/
def controllerLost (s : State) (cause : Nat) : State :=
  match s.assay.active with
  | none => s
  | some x =>
    let y := otherSide x
    if meetsR50 s y then
      let s := { s with assay := { s.assay with limit40 := true } }
      let s := enterHeld s .assayLost 0x10
      let s := markFenced s 12 (sideFacet x / 4) 9
      let s := { attemptAbandoned s with assay := { s.assay with active := some y, takeover := true, limit40 := false } }
      let s := raise s 0 .assayTakeover 0xF (sideFacet y) 0xFF (sideFacet y / 4 + cause * 2)
      fenceIsolated s (sideFacet y)
    else goDead s (if assayLive s (sideFacet y) then .noPair else .noController)

/-- What follows a fence at run time (02 R46, R38; 06 R131): isolation judged from the active facet while its island is live,
then the loss of an active controller whose register-only set is broken, then an evaluation of the grants. -/
def afterFence (s : State) : State :=
  let s := match s.assay.active with
    | some x => if fabricLive s (sideFacet x) then fenceIsolated s (sideFacet x) else s
    | none => s
  let s := match s.assay.active with
    | some x => if meetsR50 s x then s else controllerLost s 1
    | none => s
  evalNow s

/-- Fences a unit at run time (24 R539). -/
def fenceUnit (s : State) (kind n cause : Nat) : State :=
  if isFenced s kind n then s
  else afterFence (if kind = 13 then fenceIsland s n cause else markFenced s kind n cause)

/-- A computation check of a unit (08 R167): a first mismatch is re-executed, a second fences the unit. -/
def unitCheck (s : State) (kind n mismatches : Nat) : State :=
  let k := fKey ((unitFacets kind n).headD 0) 0x00048
  match mismatches with
  | 0 => s
  | 1 => bump s k 16 16 1
  | _ => fenceUnit (bump s k 0 16 1) kind n 3

/-- KIND and NUMBER of a unit with a computation check. -/
def checkedNumber : CheckedUnit → Nat × Nat
  | .similarity f => (10, 8 * f)
  | .selection f => (10, 8 * f + 1)
  | .gather f => (10, 8 * f + 2)

/-- The mismatch that a command's checks met, on a unit that takes part: the state, and whether the request fails (08 R167). -/
def meetCheck (s : State) (takesPart : CheckedUnit → Bool) (check : Option Mismatch) : State × Bool :=
  match check with
  | some m =>
    if takesPart m.unit then (unitCheck s (checkedNumber m.unit).1 (checkedNumber m.unit).2 (if m.again then 2 else 1), m.again) else (s, false)
  | none => (s, false)

end Sys2Proof.Machine
end

