-- ==== Sys2Proof/Machine/Select.lean ====
section
/-! DEFINITION. Select: the order of entries, rows, SELECT and its merge (13 R278 to R291; 11 R238). -/
namespace Sys2Proof.Machine

/-- A score as a value. -/
def Entry.num (e : Entry) : Num := fp32.decode e.score

/-- a ranks before b (13 R278): by score in the request's direction with NaN last, then SOURCE, then passage ID. -/
def ranksBefore (ascending : Bool) (a b : Entry) : Bool :=
  let an := decide (a.num = .nan)
  let bn := decide (b.num = .nan)
  let lt := fun (x y : Num) => if ascending then x.lt y else y.lt x
  if an != bn then bn
  else if !an && lt a.num b.num then true
  else if !an && lt b.num a.num then false
  else if a.src ≠ b.src then decide (a.src < b.src)
  else decide (a.id < b.id)

/-- A row in order; entries equal on all keys keep their positions (13 R278). -/
def inOrder (ascending : Bool) (l : List Entry) : List Entry := l.mergeSort (fun a b => !ranksBefore ascending b a)

/-- The best K entries of a row (13 R279, R281). -/
def bestK (ascending : Bool) (k : Nat) (l : List Entry) : List Entry := (inOrder ascending l).take k

/-- The 16 bytes of an entry (11 R238). -/
def entryBytes (e : Entry) : List Byte := leBytes 8 e.id ++ leBytes 4 e.score ++ leBytes 1 e.src ++ leBytes 3 0

/-- The bytes of a list of entries. -/
def entriesBytes (l : List Entry) : List Byte := l.flatMap entryBytes

/-- The entry at offset `o` of a row, when its reserved bits are 0 (11 R238, 13 R288). -/
def entryAt (b : List Byte) (o : Nat) : Option Entry :=
  if rdLe b o 8 < 2 ^ 34 ∧ zeroAt b (o + 13) 3 then some ⟨rdLe b (o + 8) 4, rdB b (o + 12), rdLe b o 8⟩ else none

/-- n entries from the start of a row, or none when one is malformed. -/
def entriesFrom (b : List Byte) (n : Nat) : Option (List Entry) := (upto n).mapM (fun i => entryAt b (16 * i))

/-! ## Compaction (13 R283) -/

/-- The selection buffer of one unit for K above 4,096: entries held, the bound after the first compaction, compactions. -/
structure SelBuf where
  held : List Entry
  bound : Option Entry
  count : Nat
  deriving DecidableEq, Repr

/-- One entry reaches the buffer (13 R283). -/
def SelBuf.take (asc : Bool) (k : Nat) (b : SelBuf) (e : Entry) : SelBuf :=
  let inBound := match b.bound with | some x => ranksBefore asc e x | none => true
  if !inBound then b
  else
    let h := b.held ++ [e]
    if h.length = 2 * k then
      let best := bestK asc k h
      ⟨best, best.getLast?, b.count + 1⟩
    else { b with held := h }

/-- Compactions of a share of a row: none for K up to 4,096 (13 R282, R283). -/
def compactions (asc : Bool) (k : Nat) (share : List Entry) : Nat :=
  if k ≤ 4096 then 0 else (share.foldl (SelBuf.take asc k) ⟨[], none, 0⟩).count

/-- The share of unit i of U in a row of n (13 R285). -/
def shareOf (row : List Entry) (u i : Nat) : List Entry :=
  let c := (row.length + u - 1) / u
  slice row (i * c) (min c (row.length - i * c))

/-! ## SELECT (13 R287 to R291) -/

/-- SELECT's own check of its body and extension, apart from IN_COUNT (13 R287). -/
def selectBad (r : Request) : Bool :=
  let k := bodyLe r 28 4
  let n := bodyLe r 24 4
  let fmt := bodyB r 32 / 16 % 4
  decide (bodyLe r 16 8 % 16 ≠ 0) || decide (k = 0) || decide (16777216 < k) || decide (fmt = 3) || decide (bodyB r 32 % 8 ≠ 0) ||
  !bodyZero r 34 2 || decide (bodyLe r 40 8 % 16 ≠ 0) ||
  (if fmt = 0 then decide (bodyLe r 48 8 ≠ 0) else decide (2 ^ 34 < bodyLe r 48 8 + n) || decide (2 ^ 34 ≤ bodyLe r 48 8)) ||
  (if k ≤ 65536 then decide (bodyLe r 56 8 ≠ 0) else decide (bodyLe r 56 8 = 0) || decide (bodyLe r 56 8 % 64 ≠ 0)) ||
  !zeroAt (extOf r) 0 64

/-- A live engine of a kind on the lowest facet that holds a partition of the tenant, else on the lowest facet that has one
(note 26). -/
def tenantEngine (s : State) (t kind : Nat) : Option Nat :=
  let live := fun f => engineLive s f kind && fabricLive s f
  match (upto 8).find? (fun f => decide (partsOf s t / 2 ^ (8 * f) % 256 ≠ 0) && live f) with
  | some f => some f
  | none => (upto 8).find? live

/-- The units of a SELECT (13 FACETS, R289). -/
def selectUnits (s : State) (r : Request) : Except Status (List Nat) :=
  let m := bodyB r 33
  if m = 0 then match tenantEngine s r.tenant 1 with | some f => .ok [f] | none => .error .noEngine
  else if (onesOf 8 m).all (fun f => engineLive s f 1 && fabricLive s f) then .ok (onesOf 8 m) else .error .noEngine

/-- The row of a SELECT (13 R288). -/
def selectRow (r : Request) (b : List Byte) (n : Nat) : Option (List Entry) :=
  match bodyB r 32 / 16 % 4 with
  | 0 => entriesFrom b n
  | 1 => some ((upto n).map (fun p => ⟨rdLe b (4 * p) 4, 0, bodyLe r 48 8 + p⟩))
  | _ => some ((upto n).map (fun p => ⟨rdLe b (2 * p) 2 * 2 ^ 16, 0, bodyLe r 48 8 + p⟩))

/-- The scratch area of a SELECT with K above 65,536: one HBM or LPDDR region of the tenant (13 R288). -/
def scratchCheck (s : State) (r : Request) (u : Nat) : Option Status :=
  let k := bodyLe r 28 4
  if k ≤ 65536 then none
  else match checkAccess s r.tenant (bodyLe r 56 8) (u * 32 * k) with
    | some st => some st
    | none => match locOf (bodyLe r 56 8) with | .hbm _ _ => none | .lpddr _ _ => none | _ => some .badField

/-- The counts of the units that took shares (13 SEL_ELEMS, SEL_COMPACT). -/
def selectCounts (s : State) (units : List Nat) (row : List Entry) (asc : Bool) (k : Nat) : State :=
  ((upto units.length).zip units).foldl (fun s p =>
    let sh := shareOf row units.length p.1
    bump (bump s (fKey p.2 0x60000) 0 32 sh.length) (fKey p.2 0x60004) 0 32 (compactions asc k sh)) s

/-- Writes the best K entries and ends a SELECT (13 R281, R291). -/
def selectFinish (s : State) (r : Request) (units : List Nat) (row : List Entry) (comp : Nat) : Ended :=
  let k := bodyLe r 28 4
  let out := bestK (nbit (bodyB r 32) 3) k row
  let s := writeOut s r (nbit (bodyB r 32) 6) (bodyLe r 40 8) (entriesBytes out)
  let nans := min (out.filter (fun e => decide (e.num = .nan))).length 0xFFFF
  (s, .ok ([out.length, k - out.length, comp, units.length * 2 ^ 16 + nans], if out.length < k then .shortfall else .ok))

/-- Every check of a SELECT, its row and its units. -/
def selectInputs (s : State) (r : Request) : Reading (List Nat × List Entry) :=
  let n := bodyLe r 24 4
  if selectBad r then (s, .fail .badField)
  else if 16777216 < n then (s, .fail .rowTooLong)
  else if bodyLe r 36 4 < 16 * min (bodyLe r 28 4) n then (s, .fail .resultShort)
  else match selectUnits s r with
    | .error st => (s, .fail st)
    | .ok us =>
      match scratchCheck s r us.length with
      | some st => (s, .fail st)
      | none =>
        let esz := match bodyB r 32 / 16 % 4 with | 0 => 16 | 1 => 4 | _ => 2
        Got.andThen (readAt s r (nbit (bodyB r 32) 7) (bodyLe r 16 8) (n * esz)) (fun s b =>
          match selectRow r b n with
          | none => (s, .fail .badField)
          | some row =>
            match outCheck s r (nbit (bodyB r 32) 6) (bodyLe r 40 8) (16 * min (bodyLe r 28 4) n) with
            | some st => (s, .fail st)
            | none => (s, .ok (us, row)))

/-- A scratch area that the units used holds values the spec does not give (note 27). -/
def spoilScratch (s : State) (r : Request) (u : Nat) : State :=
  let k := bodyLe r 28 4
  if k ≤ 65536 then s
  else
    let n := u * 32 * k
    let d := (upto n).map (fun i => (Config.freeValue (s.freeCount + i)).setWidth 8)
    { engWrite s r.tenant (bodyLe r 56 8) d with freeCount := s.freeCount + n }

/-- Compactions over all shares (13 R291). -/
def allCompactions (asc : Bool) (k : Nat) (row : List Entry) (u : Nat) : Nat :=
  ((upto u).map (fun i => compactions asc k (shareOf row u i))).sum

/-- The units of a SELECT have their shares: they send them to the merging unit, or with one unit the request ends (13 R285). -/
def selectShares (s : State) (tag : Nat) (r : Request) (us : List Nat) (row : List Entry) : State :=
  let asc := nbit (bodyB r 32) 3
  let k := bodyLe r 28 4
  let s := spoilScratch (selectCounts s us row asc k) r us.length
  let comp := allCompactions asc k row us.length
  if us.eraseDups.length = 1 then conclude s tag (selectFinish s r us.eraseDups row comp)
  else { s with selects := place s.selects tag ⟨us, row, comp⟩ }

/-- A SELECT starts (13 R287; 08 R167). -/
def selectStart (s : State) (tag : Nat) (r : Request) (check : Option Mismatch) : State :=
  if (look s.selects tag).isSome then s
  else
    let x := selectInputs s r
    match x.2 with
    | .wait => keepReads s x.1
    | .fail st => finish x.1 tag (serviceStatus s st) []
    | .ok (us, row) =>
      if noService s then finish s tag .noPartition [] else
      let c := meetCheck x.1 (fun u => match u with | .selection f => us.contains f | _ => false) check
      if c.2 then finish c.1 tag .computeCheck [] else selectShares c.1 tag r us row

/-- SELECT (13 R287). -/
def execSelectRow (tag : Nat) (check : Option Mismatch) (s : State) : Result :=
  .next (match running s tag 0x16 with | some r => selectStart s tag r check | none => s)

/-- A unit of a SELECT was fenced: the selection starts again, its share with the lowest live unit of FACETS (13 Corners). -/
def selectAgain (s : State) (tag : Nat) (r : Request) (j : SelectJob) (live : Nat → Bool) : State :=
  let s := { s with selects := remove s.selects tag }
  match (j.units.filter live).min? with
  | none => finish s tag .noEngine []
  | some lo => selectShares s tag r (j.units.map (fun f => if live f then f else lo)) j.row

/-- The merging unit has every share (13 R285), with the mismatch that its check met in the merge (08 R167). -/
def selectMerge (s : State) (tag : Nat) (r : Request) (check : Option Mismatch) : State :=
  match look s.selects tag with
  | none => s
  | some j =>
    let live := fun f => engineLive s f 1 && fabricLive s f
    if !j.units.all live then selectAgain s tag r j live
    else
      let c := meetCheck s (fun u => match u with | .selection f => j.units.contains f | _ => false) check
      if c.2 then finish { c.1 with selects := remove c.1.selects tag } tag .computeCheck [] else
      let s := c.1
      conclude { s with selects := remove s.selects tag } tag
      (selectFinish { s with selects := remove s.selects tag } r j.units.eraseDups j.row j.compactions)

/-- SELECT_MERGE (13 R285). -/
def execSelectMerge (done : UnitDone) (s : State) : Result :=
  .next (match running s done.tag 0x16 with | some r => selectMerge s done.tag r done.check | none => s)

end Sys2Proof.Machine
end

