-- ==== Sys2Proof/Machine/Search.lean ====
section
/-! DEFINITION. Search: index blobs, scores, list choice, scan, filters and the phases of one search (12 R245 to R277, R568). -/
namespace Sys2Proof.Machine

/-! ## Index layout blob (12 R249, R250) -/

/-- METRIC 1: squared L2, which ranks ascending. -/
def ixL2 (b : List Byte) : Bool := rdB b 6 == 1
/-- Stripe facets, ascending. -/
def ixFacets (b : List Byte) : List Nat := onesOf 8 (rdB b 7)
/-- DIM. -/
def ixDim (b : List Byte) : Nat := rdLe b 8 2
/-- M_SUB. -/
def ixMsub (b : List Byte) : Nat := rdB b 10
/-- CENT_FMT. -/
def ixCent (b : List Byte) : Nat := rdB b 11 / 64
/-- VEC_FMT. -/
def ixVec (b : List Byte) : Nat := rdB b 11 / 16 % 4
/-- CB_FMT. -/
def ixCb (b : List Byte) : Nat := rdB b 11 / 4 % 4
/-- RESIDUAL. -/
def ixResidual (b : List Byte) : Bool := nbit (rdB b 11) 1
/-- NLIST. -/
def ixNlist (b : List Byte) : Nat := rdLe b 12 4
/-- PASSAGES. -/
def ixPassages (b : List Byte) : Nat := rdLe b 16 8
/-- DIR_ADDR. -/
def ixDir (b : List Byte) : Nat := rdLe b 32 8
/-- ATTR_BYTES. -/
def ixAttr (b : List Byte) : Nat := rdB b 49
/-- VEC_PER_EXT. -/
def ixVecPer (b : List Byte) : Nat := rdLe b 52 4
/-- Size in bytes of an element of a format code. -/
def fmtSize (c : Nat) : Nat := (fmtOf c).bytes
/-- Bytes of a full vector. -/
def ixVecBytes (b : List Byte) : Nat := ixDim b * fmtSize (ixVec b)
/-- Offset of the stripe entry of stripe facet number i. -/
def stripeEntry (i : Nat) : Nat := 128 + 32 * i

/-- Lists whose centroids sit on stripe facet number i of F (12 R251). -/
def centroidsOn (b : List Byte) (i : Nat) : Nat :=
  let f := (ixFacets b).length
  if ixNlist b ≤ i then 0 else (ixNlist b - i - 1) / f + 1

/-- A range lies in one of the owner's regions and in the tier wanted (12 R248, R250). -/
def ownerRange (s : State) (tier : Nat → Bool) (a n : Nat) : Bool :=
  inRegion s 0 a n && populated s a n && tier a
/-- In HBM or LPDDR. -/
def inDram (a : Nat) : Bool := match locOf a with | .hbm _ _ => true | .lpddr _ _ => true | _ => false
/-- On the slices of a facet. -/
def onSlices (f : Nat) (a : Nat) : Bool := match locOf a with | .slice k _ => decide (k / 16 = f) | _ => false
/-- On slices. -/
def anySlice (a : Nat) : Bool := match locOf a with | .slice _ _ => true | _ => false
/-- In a facet's own HBM window. -/
def hbmOf (f : Nat) (a : Nat) : Bool := match locOf a with | .hbm g _ => decide (g = f) | _ => false
/-- In a facet's own LPDDR window. -/
def lpOf (f : Nat) (a : Nat) : Bool := match locOf a with | .lpddr g _ => decide (g = f) | _ => false

/-- Header checks of an index blob in field order: offset of the first field out of range (12 R249, R250). -/
def ixHeaderBad (b : List Byte) (len : Nat) : Option Nat :=
  let f := (ixFacets b).length
  let dim := ixDim b
  if rdLe b 0 4 ≠ 0x58444E49 then some 0
  else if rdLe b 4 2 ≠ 1 then some 4
  else if 1 < rdB b 6 then some 6
  else if rdB b 7 = 0 then some 7
  else if dim = 0 ∨ 4096 < dim then some 8
  else if ixMsub b = 0 ∨ 128 < ixMsub b ∨ dim % ixMsub b ≠ 0 then some 10
  else if rdB b 11 % 2 ≠ 0 then some 11
  else if ixNlist b = 0 ∨ 1048576 < ixNlist b then some 12
  else if ixPassages b = 0 ∨ 8589934592 < ixPassages b then some 16
  else if rdLe b 24 4 ≠ len ∨ b.length ≠ len ∨ len ≠ 128 + 32 * f then some 24
  else if 8 < rdB b 48 then some 48
  else if rdB b 48 = 0 ∧ rdLe b 40 8 ≠ 0 then some 40
  else if ixAttr b ≠ 0 ∧ ixAttr b ≠ 8 ∧ ixAttr b ≠ 16 ∧ ixAttr b ≠ 32 ∧ ixAttr b ≠ 64 then some 49
  else if !zeroAt b 50 2 then some 50
  else if ixVecPer b = 0 ∨ 1048576 < ixVecPer b * ixVecBytes b then some 52
  else if ixAttr b = 0 ∧ rdLe b 72 8 ≠ 0 then some 72
  else if rdLe b 88 4 ≠ 0 ∧ (rdLe b 88 4 < 512 ∨ 65536 < rdLe b 88 4 ∨ rdLe b 88 4 % 512 ≠ 0) then some 88
  else if !zeroAt b 92 4 then some 92
  else if !zeroAt b 104 24 then some 104
  else ((upto f).find? (fun i => !zeroAt b (stripeEntry i + 24) 8)).map (fun i => stripeEntry i + 24)

/-- Vector-map extents of an index. -/
def vmapLen (b : List Byte) : Nat := (ixPassages b + ixVecPer b - 1) / ixVecPer b * 16

/-- Range checks of an index blob: offset of the first field whose range is not the owner's (12 R248, R250). Code ranges are
judged from the directory by `codesBad`. -/
def ixRangeBad (s : State) (b : List Byte) : Option Nat :=
  let fs := ixFacets b
  if !ownerRange s inDram (ixDir b) (16 * ixNlist b) then some 32
  else if rdB b 48 ≠ 0 ∧ !ownerRange s (fun _ => true) (rdLe b 40 8) (4 * ixNlist b * rdB b 48) then some 40
  else if !ownerRange s inDram (rdLe b 56 8) (vmapLen b) then some 56
  else if !ownerRange s inDram (rdLe b 64 8) (16 * ixPassages b) then some 64
  else if ixAttr b ≠ 0 ∧ !ownerRange s inDram (rdLe b 72 8) (ixPassages b * ixAttr b) then some 72
  else if !ownerRange s anySlice (rdLe b 80 8) (256 * ixDim b * fmtSize (ixCb b)) then some 80
  else ((upto fs.length).find? (fun i => decide (centroidsOn b i ≠ 0) &&
      !ownerRange s (onSlices (fs.getD i 0)) (rdLe b (stripeEntry i) 8) (centroidsOn b i * ixDim b * fmtSize (ixCent b)))).map stripeEntry

/-- A list directory entry (12 Table - List directory entry). -/
structure ListEnt where
  hot : Bool
  base : Nat
  count : Nat
  off : Nat
  deriving DecidableEq, Repr

/-- The entry in 16 bytes of directory. -/
def listFrom (d : List Byte) (o : Nat) : ListEnt :=
  ⟨nbit (rdB d (o + 7)) 7, rdLe d o 8 % 2 ^ 34, rdLe d (o + 8) 4, rdLe d (o + 12) 4⟩

/-- The directory entry of a list, read through the index. -/
def listOf (s : State) (b : List Byte) (l : Nat) : ListEnt := listFrom (memRead s (ixDir b + 16 * l) 16) 0

/-- A directory entry has a reserved bit set: a field out of its range, and none of the two conditions that DIRECTORY reports (12 R250). -/
def dirReserved (d : List Byte) (n : Nat) : Bool := (upto n).any (fun l => nfld (rdLe d (16 * l) 8) 34 29 != 0)

/-- First list whose ID_BASE does not follow the one before, or the last when the counts do not sum to PASSAGES (12 R250). -/
def dirBad (d : List Byte) (passages : Nat) : Nat → Nat → Nat → Option Nat
  | 0, i, sum => if sum = passages then none else some (i - 1)
  | n + 1, i, sum =>
    let e := listFrom d (16 * i)
    if e.base ≠ sum then some i else dirBad d passages n (i + 1) (sum + e.count)

/-- Positions of a stripe (12 R251): its number i of F, in a list of `count`, as (first position, how many). -/
def stripeSpan (count f i : Nat) : Nat × Nat :=
  let w := (count + f - 1) / f
  (min (i * w) count, min ((i + 1) * w) count - min (i * w) count)

/-- Address of the codes of stripe i of a list (12 R251). -/
def stripeAddr (b : List Byte) (e : ListEnt) (i : Nat) : Nat :=
  rdLe b (stripeEntry i + (if e.hot then 8 else 16)) 8 + e.off * ixMsub b

/-- A code stripe of stripe facet number i, of hot or of cold lists, lies outside the owner's regions or its own facet's tier. -/
def codesBadAt (s : State) (b d : List Byte) (hot : Bool) (i : Nat) : Bool :=
  let f := (ixFacets b).getD i 0
  (upto (ixNlist b)).any (fun l =>
    let e := listFrom d (16 * l)
    let n := (stripeSpan e.count (ixFacets b).length i).2
    (e.hot == hot) && decide (n ≠ 0) && !ownerRange s (if hot then hbmOf f else lpOf f) (stripeAddr b e i) (n * ixMsub b))

/-- The first HBM_CODE_BASE or LP_CODE_BASE, by its offset in the blob, whose ranges are not the owner's or not in their tier. -/
def codesBad (s : State) (b d : List Byte) : Option Nat :=
  (upto (ixFacets b).length).findSome? (fun i =>
    if codesBadAt s b d true i then some (stripeEntry i + 8) else if codesBadAt s b d false i then some (stripeEntry i + 16) else none)

/-- The check of an index blob at load (12 R250): (reason, where), or none. A reserved bit of the directory is reported as a bad field
that DIR_ADDR points at (note 151). -/
def indexCheck (s : State) (b : List Byte) (len : Nat) : Option (Nat × Nat) :=
  match ixHeaderBad b len with
  | some o => some (1, o)
  | none =>
    if crcBlanked b 28 ≠ BitVec.ofNat 32 (rdLe b 28 4) then some (2, 28)
    else match ixRangeBad s b with
      | some o => some (4, o)
      | none =>
        if (memPoison s (ixDir b) (16 * ixNlist b)).isSome then some (7, 32)
        else
          let d := memRead s (ixDir b) (16 * ixNlist b)
          if dirReserved d (ixNlist b) then some (1, 32)
          else match dirBad d (ixPassages b) (ixNlist b) 0 0 with
          | some l => some (6, l)
          | none => (codesBad s b d).map (fun o => (4, o))

/-! ## Scores (12 R253, R256, R568) -/

/-- Exact inner product. -/
def dotExact (a b : List Num) : Num := (List.zipWith Num.mul a b).foldl Num.add (.fin false 0 0)

/-- Exact squared L2 distance. -/
def l2Exact (a b : List Num) : Num :=
  (List.zipWith (fun x y => let d := x.add y.neg; d.mul d) a b).foldl Num.add (.fin false 0 0)

/-- The metric of an index between two vectors, rounded once to FP32 (12 R253, R568). -/
def metric32 (l2 : Bool) (a b : List Num) : Nat := fp32.writeSum (if l2 then l2Exact a b else dotExact a b)

/-- A read of index data through a handle: not checked against the tenant's regions (12 R248), but against the units. Its lines take their
turn at their homes (05 R94, R101, R108). -/
def handleRead (s : State) (t a n : Nat) : Reading (List Byte) :=
  if n = 0 then (s, .ok [])
  else if !rangeLive s a n then (s, .fail .tierFenced)
  else if cohBusy s a n then (s, .wait)
  else
    let s := engRead s t a n
    match memPoison s a n with
    | some o => (s, .fail (poisonStatus o))
    | none => (s, .ok (memRead s a n))

/-- Address of the centroid of a list (12 R251). -/
def centAddr (b : List Byte) (l : Nat) : Nat :=
  let f := (ixFacets b).length
  rdLe b (stripeEntry (l % f)) 8 + l / f * ixDim b * fmtSize (ixCent b)

/-- Centroid of a list. -/
def centroid (s : State) (b : List Byte) (l : Nat) : List Num :=
  (fmtOf (ixCent b)).elems (memRead s (centAddr b l) (ixDim b * fmtSize (ixCent b))) (ixDim b)

/-- The query as values. -/
def queryNums (b : List Byte) (q : SearchQ) : List Num := (fmtOf q.fmt).elems q.query (ixDim b)

/-- FP32 score of a list (12 R253). -/
def listScore (s : State) (b : List Byte) (q : SearchQ) (l : Nat) : Nat := metric32 (ixL2 b) (queryNums b q) (centroid s b l)

/-- The NPROBE best lists, best first, ties to the lower number (12 R254). -/
def chooseLists (s : State) (b : List Byte) (q : SearchQ) : List Nat :=
  (bestK (ixL2 b) q.nprobe ((upto (ixNlist b)).map (fun l => ⟨listScore s b q l, 0, l⟩))).map (·.id)

/-- Lookup table entry (j, v) for a target (12 R256). -/
def tableEntry (cb b : List Byte) (target : List Num) (j v : Nat) : Num :=
  let w := ixDim b / ixMsub b
  let e := (fmtOf (ixCb b)).elems (slice cb ((256 * j + v) * w * fmtSize (ixCb b)) (w * fmtSize (ixCb b))) w
  fp32.decode (metric32 (ixL2 b) (slice target (j * w) w) e)

/-- Target of the lookup tables for a list (12 Table - Lookup tables per request). -/
def lutTarget (s : State) (b : List Byte) (q : SearchQ) (l : Nat) : List Num :=
  if ixL2 b && ixResidual b then List.zipWith (fun x y => x.add (Num.neg y)) (queryNums b q) (centroid s b l) else queryNums b q

/-- Score of one code of a list, summed exactly and rounded once (12 R256). -/
def codeScore (s : State) (cb b : List Byte) (q : SearchQ) (l : Nat) (code : List Byte) : Nat :=
  let terms := (upto (ixMsub b)).map (fun j => tableEntry cb b (lutTarget s b q l) j (rdB code j))
  let base := if !ixL2 b && ixResidual b then fp32.decode (listScore s b q l) else .fin false 0 0
  fp32.writeSum (terms.foldl Num.add base)

/-! ## Scan and filters (12 R258 to R269) -/

/-- Bit of a passage in the pre-filter bitmap (12 R265). -/
def eligible (s : State) (q : SearchQ) (id : Nat) : Bool :=
  match q.bitmap with
  | none => true
  | some a => nbit (memByte s (a + id / 8)).toNat (id % 8)

/-- The live engine nearest a facet, the lower facet winning a tie (12 R259). -/
def nearestEngine (s : State) (kind f : Nat) : Option Nat :=
  let live := (upto 8).filter (fun g => engineLive s g kind && fabricLive s g)
  match live with
  | [] => none
  | _ => live.find? (fun g => live.all (fun h => decide (facetDist f g ≤ facetDist f h)))

/-- The chosen stripes in rank order, as (list, stripe number). -/
def chosenStripes (b : List Byte) (lists : List Nat) : List (Nat × Nat) :=
  lists.flatMap (fun l => (upto (ixFacets b).length).map (fun i => (l, i)))

/-- Where the scan reads the codes of stripe x.2 of list x.1: in the facet's list buffer when that holds them, else at their home (12 R258,
R262). -/
def codesAt (s : State) (b : List Byte) (copies : List ListCopy) (x : Nat × Nat) : Nat :=
  match copies.find? (fun c => c.list == x.1 && (ixFacets b)[x.2]? == some c.facet) with
  | some c => c.addr
  | none => stripeAddr b (listOf s b x.1) x.2

/-- The entries of one stripe that pass the bitmap, scored (12 R256, R265). -/
def stripeEntries (s : State) (cb b : List Byte) (q : SearchQ) (copies : List ListCopy) (x : Nat × Nat) : List Entry :=
  let e := listOf s b x.1
  let (p0, n) := stripeSpan e.count (ixFacets b).length x.2
  let codes := memRead s (codesAt s b copies x) (n * ixMsub b)
  ((upto n).filter (fun p => eligible s q (e.base + p0 + p))).map (fun p =>
    ⟨codeScore s cb b q x.1 (slice codes (p * ixMsub b) (ixMsub b)), 0, e.base + p0 + p⟩)

/-- Every read of a scan: codes, codebook, centroids of residual lists, bitmap ranges; the first failure, if any. -/
def scanReads (s : State) (t : Nat) (b : List Byte) (q : SearchQ) (copies : List ListCopy) (lists : List Nat) : Reading Unit :=
  let fs := (ixFacets b).length
  let reads := (rdLe b 80 8, 256 * ixDim b * fmtSize (ixCb b)) ::
    (chosenStripes b lists).flatMap (fun x =>
      let e := listOf s b x.1
      let (p0, n) := stripeSpan e.count fs x.2
      if n = 0 then [] else
        (codesAt s b copies x, n * ixMsub b) ::
        (match q.bitmap with
         | some a => [(a + (e.base + p0) / 8, (e.base + p0 + n - 1) / 8 - (e.base + p0) / 8 + 1)]
         | none => []))
  reads.foldl (fun x rd => Got.andThen x (fun s _ => Got.andThen (handleRead s t rd.1 rd.2) (fun s _ => (s, .ok ())))) (s, .ok ())

/-- Compactions of a selection unit that takes n scores of a scan: none below 2K entries, and from there a number that the order
of arrival decides, from 1 to n / K - 1 (13 R282 to R284; note 125). -/
def scanCompacts (s : State) (f k n : Nat) : State :=
  if k ≤ 4096 ∨ n < 2 * k then s
  else bump { s with freeCount := s.freeCount + 1 } (fKey f 0x60004) 0 32 (1 + (Config.freeValue s.freeCount).toNat % (n / k - 1))

/-- Scores that each selection unit takes in a scan, by facet. -/
def scanShares (s : State) (cb b : List Byte) (q : SearchQ) (copies : List ListCopy) (lists : List Nat) : List (Nat × Nat) :=
  (upto 8).map (fun f => (f, ((chosenStripes b lists).map (fun x =>
    let home := (ixFacets b).getD x.2 0
    if (nearestEngine s 1 home).getD home = f then (stripeEntries s cb b q copies x).length else 0)).sum))

/-- The counts of a scan on the facets whose engines scored and filtered (12 SRCH_CODES, SRCH_FILTERED; 13 SEL_ELEMS). -/
def scanCounts (s : State) (cb b : List Byte) (q : SearchQ) (copies : List ListCopy) (lists : List Nat) : State :=
  (chosenStripes b lists).foldl (fun s x =>
    let e := listOf s b x.1
    let n := (stripeSpan e.count (ixFacets b).length x.2).2
    let f := (ixFacets b).getD x.2 0
    let g := (nearestEngine s 0 f).getD f
    let kept := (stripeEntries s cb b q copies x).length
    bump (bump (bump s (fKey g 0x50020) 0 32 kept) (fKey g 0x50024) 0 32 (n - kept))
      (fKey ((nearestEngine s 1 f).getD f) 0x60000) 0 32 kept) s

/-- Entries in the row of a search: the sum of the chosen lists' counts (13 R280). -/
def rowLength (s : State) (b : List Byte) (lists : List Nat) : Nat := (lists.map (fun l => (listOf s b l).count)).sum

/-- One predicate term against an attribute record (12 Table - Predicate term). -/
def termHolds (pred rec : List Byte) (i : Nat) : Bool :=
  let o := 16 + 12 * i
  let w := rdB pred (o + 2)
  let v := rdLe rec (rdLe pred o 2) w
  let x := rdLe pred (o + 4) 8
  match rdB pred (o + 3) with
  | 0 => v == x | 1 => v != x | 2 => decide (v < x) | 3 => decide (v ≤ x) | 4 => decide (x < v) | 5 => decide (x ≤ v)
  | 6 => v &&& x != 0
  | _ => v &&& x == x

/-- A predicate holds of an attribute record (12 R266). -/
def predHolds (pred rec : List Byte) : Bool :=
  let ts := upto (rdB pred 0)
  if rdB pred 1 = 1 then ts.any (termHolds pred rec) else ts.all (termHolds pred rec)

/-- A predicate is well formed for an index's attribute size (12 R266). -/
def predOk (pred : List Byte) (attr : Nat) : Bool :=
  let n := rdB pred 0
  let term := fun i =>
    let o := 16 + 12 * i
    let w := rdB pred (o + 2)
    (w == 1 || w == 2 || w == 4 || w == 8) && decide (rdLe pred o 2 + w ≤ attr) && decide (rdB pred (o + 3) ≤ 7) &&
    zeroAt pred (o + 4 + w) (8 - w)
  decide (attr ≠ 0) && decide (1 ≤ n) && decide (n ≤ 8) && decide (rdB pred 1 ≤ 1) && zeroAt pred 2 14 &&
  (upto n).all term && (rangeFrom n (8 - n)).all (fun i => zeroAt pred (16 + 12 * i) 12) && zeroAt pred 112 16

/-- Applies the predicate to selected entries, in their order (12 R266). -/
def postFilter (s : State) (t : Nat) (b : List Byte) (q : SearchQ) (es : List Entry) : Reading (List Entry) :=
  match q.pred with
  | none => (s, .ok es)
  | some p =>
    es.foldl (fun x e => Got.andThen x (fun s acc =>
      Got.andThen (handleRead s t (rdLe b 72 8 + e.id * ixAttr b) (ixAttr b)) (fun s rec =>
        (s, .ok (if predHolds p rec then acc ++ [e] else acc))))) (s, .ok [])

/-- Selection of `keep` entries of the row, then the post-filter, then a cut to K (12 R267, R268). -/
def selectAndFilter (s : State) (t : Nat) (cb b : List Byte) (q : SearchQ) (copies : List ListCopy) (lists : List Nat) (keep : Nat) : Reading (List Entry) :=
  let row := (chosenStripes b lists).flatMap (stripeEntries s cb b q copies)
  Got.andThen (postFilter s t b q (bestK (ixL2 b) keep row)) (fun s es => (s, .ok (es.take q.k)))

/-- One scan of the chosen lists that keeps `keep` entries in selection (12 R258, R268). -/
def scanOnce (s : State) (t : Nat) (b : List Byte) (q : SearchQ) (copies : List ListCopy) (lists : List Nat) (keep : Nat) : Reading (List Entry) :=
  if !someEngine s 0 ∨ !someEngine s 1 then (s, .fail .noEngine)
  else
    Got.andThen (scanReads (collect s (ixDir b) (16 * ixNlist b) true) t b q copies lists) (fun s _ =>
      let cb := memRead s (rdLe b 80 8) (256 * ixDim b * fmtSize (ixCb b))
      let s' := (scanShares s cb b q copies lists).foldl (fun s p => scanCompacts s p.1 keep p.2) (scanCounts s cb b q copies lists)
      selectAndFilter s' t cb b q copies lists keep)

/-- K' of a widening re-run (12 R268). -/
def wideK (q : SearchQ) : Nat := min (q.k * 2 ^ q.widen) 65536

/-- n entries are too few, and the search may be re-run once (12 R268). -/
def mustWiden (q : SearchQ) (n : Nat) : Bool := q.pred.isSome && decide (q.widen ≠ 0) && decide (n < q.k)

/-- The scan of a search without shards and its one widening re-run (12 R258, R268): the entries, and whether it was widened. -/
def scanRun (s : State) (t : Nat) (b : List Byte) (q : SearchQ) (copies : List ListCopy) (lists : List Nat) : Reading (List Entry × Bool) :=
  Got.andThen (scanOnce s t b q copies lists q.k) (fun s es =>
    if mustWiden q es.length then Got.andThen (scanOnce s t b q copies lists (wideK q)) (fun s es => (s, .ok (es, true)))
    else (s, .ok (es, false)))

/-! ## A search's request (12 R274, R275) -/

/-- SEARCH's own check of its body and extension, apart from what depends on the index (12 R274). -/
def searchBad (r : Request) : Bool :=
  let np := bodyLe r 28 2
  let pf := bodyLe r 30 2
  let k := bodyLe r 32 4
  decide (bodyLe r 16 8 % 64 ≠ 0) || decide (np = 0) || decide (4096 < np) || (decide (4096 < pf) && decide (pf ≠ 65535)) ||
  decide (k = 0) || decide (65536 < k) || decide (bodyB r 36 % 4 ≠ 0) || decide (4 < bodyB r 37) || !bodyZero r 38 2 ||
  decide (bodyLe r 40 8 % 16 ≠ 0) || !bodyZero r 52 4 || decide (bodyLe r 56 8 % 64 ≠ 0) ||
  (decide (bodyLe r 56 8 = 0) && decide (64 ≤ bodyB r 36)) ||
  (decide (bodyB r 37 ≠ 0) && decide (128 ≤ bodyB r 36)) ||
  decide (4 ≤ rdB (extOf r) 0) || !zeroAt (extOf r) 1 3 || !zeroAt (extOf r) 8 56

/-- The index a request names (12 R245). -/
def indexOf (s : State) (r : Request) (n : Nat) : Option IdxSlot :=
  match look s.idx n with
  | some x => if n < 64 ∧ resolves s r (.index n) x.unloading (aKey (0x50200 + 4 * n)) then some x else none
  | none => none

/-- The scratch table of an auxiliary block, or none when an area is not the facet's own (12 R275). -/
def scratchTable (s : State) (t : Nat) (aux : List Byte) : Option (List (Nat × Nat)) :=
  let e := fun f => (rdLe aux (16 + 16 * f) 8, rdLe aux (24 + 16 * f) 4)
  if (upto 8).all (fun f => zeroAt aux (28 + 16 * f) 4 && decide ((e f).2 % 64 = 0) &&
      (decide ((e f).2 = 0) || (onSlices f (e f).1 && inRegion s t (e f).1 (e f).2 && populated s (e f).1 (e f).2))) then
    some ((upto 8).map e) else none

/-- A bitmap lies wholly in one region of the tenant (12 R265). -/
def bitmapOk (s : State) (t : Nat) (b : List Byte) (a : Nat) : Bool :=
  inRegion s t a ((ixPassages b + 7) / 8) && populated s a ((ixPassages b + 7) / 8)

/-- A shard set is assigned to a tenant (12 R270). -/
def shardSetOf (s : State) (t n : Nat) : Bool := assignedTo (forceGet s (aKey (0x50400 + 64 * (n - 1)))) t

/-- Valid members of a shard set in force, as (shard number, package, slot). -/
def shardMembers (s : State) (n : Nat) : List (Nat × Nat × Nat) :=
  (rangeFrom 1 15).filterMap (fun m =>
    let w := forceGet s (aKey (0x50400 + 64 * (n - 1) + 4 * m))
    if bitOf w 31 then some (m, fld w 24 6, fld w 0 6) else none)

/-- The auxiliary block of a SEARCH: bitmap, predicate and scratch areas (12 R275). -/
def readAuxBlock (s : State) (r : Request) (b : List Byte) : Reading (Option Nat × Option (List Byte) × List (Nat × Nat)) :=
  let a := bodyLe r 56 8
  let pre := nbit (bodyB r 36) 7
  let post := nbit (bodyB r 36) 6
  if a = 0 then (s, .ok (none, none, []))
  else match checkAccess s r.tenant a 272 with
    | some st => (s, .fail st)
    | none =>
      if !anySlice a then (s, .fail .badField)
      else Got.andThen (devRead s r.tenant a 272) (fun s aux =>
        match scratchTable s r.tenant aux with
        | none => (s, .fail .badField)
        | some sc =>
          if !zeroAt aux 8 8 ∨ (post ∧ !predOk (slice aux 144 128) (ixAttr b)) then (s, .fail .badField)
          else if pre ∧ !bitmapOk s r.tenant b (rdLe aux 0 8) then (s, .fail .outOfRegion)
          else (s, .ok (if pre then some (rdLe aux 0 8) else none, if post then some (slice aux 144 128) else none, sc)))

/-- Everything a SEARCH checks and reads before it starts (12 R274, R275). `query` gives the vector and its format. -/
def searchInputs (s : State) (r : Request) (query : State → List Byte → Reading (List Byte × Nat)) : Reading (SearchQ × List Byte) :=
  if searchBad r then (s, .fail .badField)
  else
    let x := extOf r
    match indexOf s r (bodyLe r 24 4) with
    | none => (s, .fail .notFound)
    | some ix =>
      let b := ix.blob
      if bodyB r 37 % 16 ≠ 0 ∧ !shardSetOf s r.tenant (bodyB r 37 % 16) then (s, .fail .notFound)
      else if ixNlist b < bodyLe r 28 2 then (s, .fail .badField)
      else Got.andThen (readAuxBlock s r b) (fun s aux =>
        Got.andThen (query s b) (fun s qv =>
          (s, .ok (⟨bodyLe r 24 4, qv.1, qv.2, bodyLe r 28 2, bodyLe r 32 4, aux.1, aux.2.1,
            extField r 4 (rdB x 0 % 4) 0, aux.2.2⟩, b))))

/-- The words and note of a finished search (12 R267, R273, R277). -/
def searchWords (j : SearchJob) (n nbUsed : Nat) : List Nat × Status :=
  let miss := j.shards.filter (fun h => h.entries.isNone)
  let bad := (miss.filter (fun h => h.bad.isSome && h.bad != some 0)).head?
  let w2 := (miss.map (fun h => 2 ^ (16 + h.num))).sum + min nbUsed 0xFFFF
  let w3 := (match bad with | some h => h.bad.getD 0 * 2 ^ 24 | none => 0) + (if j.widened then j.q.widen else 0)
  ([n, j.q.k - n, w2, w3], if n < j.q.k then .shortfall else if miss.isEmpty then .ok else .shardMissing)

/-- The merged order of shard 0's entries and the peers' (12 R272): the shard number is SOURCE. -/
def mergeShards (l2 : Bool) (j : SearchJob) : List Entry :=
  let mine := (j.entries.getD [])
  let peers := j.shards.flatMap (fun h => (h.entries.getD []).map (fun e => { e with src := h.num }))
  bestK l2 j.q.k (mine ++ peers)

/-- Cold stripes of the chosen lists that the list buffers hold (12 R262). -/
def nbUsed (b : List Byte) (j : SearchJob) : Nat :=
  (j.copies.filter (fun c => (j.lists.getD []).contains c.list && (ixFacets b).contains c.facet)).length

/-- A search has all it waits for: its own entries, and every shard's answer or the deadline (12 R273). -/
def searchReady (j : SearchJob) : Bool :=
  j.entries.isSome && (j.expired || j.shards.all (fun h => h.entries.isSome || h.bad.isSome))

end Sys2Proof.Machine
end

