-- ==== Sys2Proof/Machine/Passage.lean ====
section
/-! DEFINITION. Passage: full vectors and passage records of an index, read from flash by passage ID (12 R252; 07 R149; 08 R171).
An engine's extents arrive by EXTENT_READ and CODEWORD_DECODE; until one has ended its consumer waits. -/
namespace Sys2Proof.Machine

/-- A read of an extent, or of its first bytes, gives n bytes at `off` of it (12 R263, R264). -/
def readHolds (d : FlashDone) (e : List Byte) (off n : Nat) : Bool :=
  rdLe d.extent 0 8 == rdLe e 0 8 && decide (off + n ≤ rdLe d.extent 8 4)

/-- n bytes at `off` of an extent read for a request: a failed read gives its status, poisoned bytes that are consumed give
the status of the first one's origin (08 R171, Corners), and bytes beyond the extent give BAD_EXTENT (note 41). -/
def flashBytes (s : State) (tag : Nat) (e : List Byte) (off n : Nat) : Got (List Byte) :=
  if rdLe e 8 4 < off + n then .fail .badExtent
  else match s.flash.finished.find? (fun d => d.reader == tag && readHolds d e off n) with
    | none => .wait
    | some d =>
      match d.fail with
      | some st => .fail st
      | none =>
        match (d.bad.filter (fun b => decide (b.1 < off + n) && decide (off < b.1 + b.2.1))).foldl (fun m b =>
            match m with | some c => if b.1 < c.1 then some b else m | none => some b) none with
        | some b => .fail (poisonStatus b.2.2)
        | none => .ok (slice d.data off n)

/-- Full vector of a passage (12 R252). -/
def passageVector (s : State) (tag t : Nat) (b : List Byte) (id : Nat) : Reading (List Byte) :=
  Got.andThen (handleRead s t (rdLe b 56 8 + 16 * (id / ixVecPer b)) 16) (fun s e =>
    (s, flashBytes s tag e (id % ixVecPer b * ixVecBytes b) (ixVecBytes b)))

/-- The extent of a passage's record and its TOKENS; a bad record fails with BAD_RECORD (12 R252). -/
def recordHead (s : State) (tag t : Nat) (b : List Byte) (id : Nat) : Reading (List Byte × Nat) :=
  Got.andThen (handleRead s t (rdLe b 64 8 + 16 * id) 16) (fun s e =>
    if rdLe e 8 4 < 16 then (s, match flashBytes s tag e 0 (rdLe e 8 4) with | .ok _ => .fail .badRecord | .wait => .wait | .fail st => .fail st)
    else Got.andThen (s, flashBytes s tag e 0 16) (fun s h =>
      if 131072 < rdLe h 0 4 ∨ rdLe e 8 4 ≠ 16 + 4 * rdLe h 0 4 + rdLe h 4 4 ∨ rdLe h 8 8 ≠ rdLe b 96 8 then (s, .fail .badRecord)
      else (s, .ok (e, rdLe h 0 4))))

/-- The first n token IDs of a record. -/
def recordTokens (s : State) (tag : Nat) (e : List Byte) (n : Nat) : Got (List Nat) :=
  match flashBytes s tag e 16 (4 * n) with
  | .ok d => .ok ((upto n).map (fun i => rdLe d (4 * i) 4))
  | .wait => .wait
  | .fail st => .fail st

/-- Runs a reading over a list, in order, collecting what it gives. -/
def readEach {α β : Type} (f : State → α → Reading β) : State → List α → Reading (List β)
  | s, [] => (s, .ok [])
  | s, a :: as => Got.andThen (f s a) (fun s b => Got.andThen (readEach f s as) (fun s bs => (s, .ok (b :: bs))))

/-- Token IDs in bytes. -/
def idsOf (b : List Byte) : List Nat := (upto (b.length / 4)).map (fun i => rdLe b (4 * i) 4)

end Sys2Proof.Machine
end

