-- ==== Sys2Proof/Machine/Matrix.lean ====
section
/-! DEFINITION. Matrix: EMBED and RERANK (11 R236 to R244). What partition code makes of an image and its inputs is a free value of
them (note 40); Arrays.lean holds the tile passes its operations run. -/
namespace Sys2Proof.Machine

/-! ## Matrix work of a request -/

/-- Matrix work of a request that has not begun. -/
def mtxReset : MtxJob := ⟨0, 0, 0, 0, 0, 0, 0, 0, [], none⟩
/-- Matrix work of a request. -/
def mtxOf (s : State) (tag : Nat) : MtxJob := (look s.mtx tag).getD mtxReset
/-- The state with a request's matrix work replaced. -/
def setMtx (s : State) (tag : Nat) (j : MtxJob) : State := { s with mtx := place s.mtx tag j }

/-- The fence or poison that unit k of a streamed run meets in the window (15 R331, R338): what its copy met, or, while it lies there, what
its bytes are. -/
def unitBad (s : State) (tag : Nat) (im : Image) (k : Nat) : Option Status :=
  match look (mtxOf s tag).windowBad k with
  | some st => some st
  | none => if (mtxOf s tag).units ≤ k + 2 then windowFault s im k (memPoison s) else none

/-- The fence or poison that layer l of a run meets (15 R338; 08 R171). -/
def layerBad (s : State) (tag : Nat) (im : Image) (l : Nat) : Option Status :=
  match layerFault s im l with
  | some st => some st
  | none => if tyExec im.md = 1 then (upto (tyUnits im.md)).findSome? (fun u => unitBad s tag im (l * tyUnits im.md + u)) else none

/-- Opcodes whose work runs on arrays. -/
def isMatrixOp (op : Nat) : Bool := op == 0x14 || op == 0x17 || op == 0x19 || op == 0x1A || op == 0x20

/-! ## Completion words (R244) -/

/-- Words 1 to 3 of matrix work. -/
def mtxWords (j : MtxJob) : List Nat :=
  [min j.flushed 0xFFFFFFFF, min j.unchecked 0xFFFF * 2 ^ 16 + min j.recomputes 0xFFFF, min j.moved 0xFFFF * 2 ^ 16 + min j.range 0xFFFF]

/-- The lower of the notes that apply, or the failure that FLUSH_FAIL_X makes of flushed terms. -/
def mtxStatus (j : MtxJob) (flushFail : Bool) (note : Status) : Got Status :=
  if j.flushed = 0 then .ok note else if flushFail then .fail .bf16Inexact else .ok .bf16Flush

/-- MATRIX bits of an extension as they act. -/
def mtxExpert (r : Request) : Nat := extField r 3 (rdB (extOf r) 0) 0

/-- Other bits of an extension of EMBED or RERANK are 0. -/
def mtxExtBad (r : Request) (bits : Nat) : Bool := decide (2 ^ bits ≤ rdB (extOf r) 0) || !zeroAt (extOf r) 1 63

/-! ## EMBED (R236, R237) -/

/-- What a stage gives: its output bytes, completion words and status. -/
abbrev StageEnd := Reading (List Byte × List Nat × Status)

/-- EMBED's check of its own body and extension; inside a pipeline its link fields do not act (01 R19). -/
def embedBad (r : Request) (linked : Bool) : Bool :=
  decide (bodyLe r 28 2 = 0) || decide (1024 < bodyLe r 28 2) || decide (2 ≤ bodyB r 31) || !bodyZero r 56 8 ||
  (decide (bodyLe r 28 2 = 1) && decide (bodyLe r 48 8 ≠ 0)) || mtxExtBad r 1 ||
  (!linked && (decide (bodyLe r 24 4 = 0) || decide (65536 < bodyLe r 24 4) || decide (bodyLe r 32 8 % 64 ≠ 0)))

/-- Row counts of the sequences (R236): in a slice region of the tenant, or all rows in one. -/
def seqRows (s : State) (r : Request) (rows : Nat) : Reading (List Nat) :=
  if bodyLe r 28 2 = 1 then (s, .ok [rows])
  else
    match checkAccess s r.tenant (bodyLe r 48 8) (4 * bodyLe r 28 2) with
    | some st => (s, .fail st)
    | none =>
      if !anySlice (bodyLe r 48 8) then (s, .fail .badField)
      else Got.andThen (devRead s r.tenant (bodyLe r 48 8) (4 * bodyLe r 28 2)) (fun s b => (s, .ok (idsOf b)))

/-- Bytes of one output slot, before rounding up to 64. -/
def embedSlot (m : List Byte) (fmt : Nat) : Nat := tyHidden m * fmtSize fmt

/-- An element of the vector that an encoder gives, before scaling (note 40). -/
def encoderNum (bytes rows : List Byte) (i : Nat) : Num :=
  let x := Config.encoderElem bytes rows i
  match x.1.toNat with
  | 0 => .fin x.2.1 x.2.2.1 x.2.2.2
  | 1 => .nan
  | k => .inf (decide (k = 3))

/-- A finite value over the square root of an exact sum of squares that is not zero: 256 bits beyond the sum's own and a sticky bit, so that one
rounding of it is the rounding of the exact quotient. -/
def unitScale (v sq : Num) : Num :=
  match v, sq with
  | .fin neg m e, .fin _ n g =>
    let n' := if g % 2 = 0 then n else 2 * n
    let h := if g % 2 = 0 then g / 2 else (g - 1) / 2
    let p := 256 + Nat.log2 n'
    let q := Nat.sqrt (m * m * 2 ^ (2 * p) / n')
    .fin neg (2 * q + (if q * q * n' = m * m * 2 ^ (2 * p) then 0 else 1)) (e - h - p - 1)
  | _, _ => .nan

/-- The vector of one sequence: with NORMALIZE scaled to unit L2 norm, then rounded once to its format (R226, R236). -/
def encodeSeq (bytes rows : List Byte) (normalize : Bool) (hidden fmt : Nat) : List Byte :=
  let vs := (upto hidden).map (encoderNum bytes rows)
  let sq := (vs.map (fun v => v.mul v)).foldl Num.add (.fin false 0 0)
  if !normalize then vs.flatMap (fun v => leBytes (fmtSize fmt) ((fmtOf fmt).writeSum v))
  else if sq.isFin && !sq.isZero then vs.flatMap (fun v => leBytes (fmtSize fmt) ((fmtOf fmt).writeSum (unitScale v sq)))
  else (upto hidden).flatMap (fun i => leBytes (fmtSize fmt) (Config.unscaled bytes rows fmt i).toNat)

/-- Pieces of a byte string with the given lengths, in order. -/
def cutBy : List Nat → List Byte → List (List Byte)
  | [], _ => []
  | n :: ns, l => l.take n :: cutBy ns (l.drop n)

/-- The encoder over its sequences: one vector per sequence, with the image's memory read (15 R338). -/
def encodeAll (s : State) (r : Request) (im : Image) (lens : List Nat) (rows : List Byte) : Reading (List (List Byte)) :=
  let m := im.md
  let s := segsRead s r.tenant im (segsOf m)
  match imageFault s im with
  | some st => (s, .fail st)
  | none =>
    let bytes := imageBytes s im
    let rb := tyHidden m * fmtSize (tyEmb m)
    let fmt := bodyB r 30 / 16 % 4
    (s, .ok ((cutBy (lens.map (· * rb)) rows).map (fun x => encodeSeq bytes x (nbit (bodyB r 31) 0) (tyHidden m) fmt)))

/-- Checks of EMBED that need its image and group (R236, R237). -/
def embedImage (s : State) (r : Request) (g : Nat) : Except Status Image :=
  match imageFor s r (bodyLe r 44 4) with
  | .error st => .error st
  | .ok im =>
    match groupFault s r g true with
    | some st => .error st
    | none => if tyKind im.md ≠ 0 then .error .badField else .ok im

/-- EMBED's result once its vectors are known. -/
def embedEnd (s : State) (tag : Nat) (r : Request) (vs : List (List Byte)) : Reading (List Nat × Status) :=
  match mtxStatus (mtxOf s tag) (nbit (mtxExpert r) 0) .ok with
  | .ok st => (s, .ok (min vs.length 0xFFFF :: mtxWords (mtxOf s tag), st))
  | .fail st => (s, .fail st)
  | .wait => (s, .wait)

/-- The encode stage of a pipeline: one sequence of rows (R236). -/
def embedStage (s : State) (tag : Nat) (r : Request) (g : Nat) (rows : List Byte) : StageEnd :=
  if embedBad r true then (s, .fail .badField)
  else
    match embedImage s r g with
    | .error st => (s, .fail st)
    | .ok im =>
      let rb := tyHidden im.md * fmtSize (tyEmb im.md)
      if rows.length % rb ≠ 0 ∨ rows.length = 0 ∨ tyContext im.md < rows.length / rb then (s, .fail .badField)
      else Got.andThen (encodeAll s r im [rows.length / rb] rows) (fun s vs =>
        Got.andThen (embedEnd s tag r vs) (fun s e => (s, .ok (vs.flatten, e.1, e.2))))

/-- EMBED issued alone (R236, R237). -/
def embedRun (tag : Nat) (s : State) (r : Request) : Ended :=
  if embedBad r false then (s, .fail .badField)
  else
    match embedImage s r (bodyB r 30 % 16) with
    | .error st => (s, .fail st)
    | .ok im =>
      let n := bodyLe r 28 2
      let slot := roundUp (embedSlot im.md (bodyB r 30 / 16 % 4)) 64
      if bodyLe r 40 4 < n * slot then (s, .fail .resultShort)
      else Got.andThen (seqRows s r (bodyLe r 24 4)) (fun s lens =>
        if lens.sum ≠ bodyLe r 24 4 ∨ lens.any (fun l => decide (tyContext im.md < l)) then (s, .fail .badField)
        else
          let rb := tyHidden im.md * fmtSize (tyEmb im.md)
          Got.andThen (readAt s r (nbit (bodyB r 30) 7) (bodyLe r 16 8) (bodyLe r 24 4 * rb)) (fun s rows =>
            match outCheck s r (nbit (bodyB r 30) 6) (bodyLe r 32 8) (n * slot) with
            | some st => (s, .fail st)
            | none => Got.andThen (encodeAll s r im lens rows) (fun s vs =>
                Got.andThen (embedEnd s tag r vs) (fun s e =>
                  let s := ((upto n).zip vs).foldl (fun s p =>
                    writeOut s r (nbit (bodyB r 30) 6) (bodyLe r 32 8 + p.1 * slot) p.2) s
                  (s, .ok e)))))

/-- EMBED (R236). -/
def execEmbed (tag : Nat) (s : State) : Result := .next (runOp s tag 0x14 (embedRun tag))

/-! ## Rescore (R241, R222) -/

/-- Binade exponent of a nonzero finite value. -/
def Num.binade : Num → Option Int
  | .fin _ m e => if m = 0 then none else some (e + Nat.log2 m)
  | _ => none

/-- A block of BF16 products (R222): its kept products, and how many are flushed. -/
def flushBlock (ps : List Num) : List Num × Nat :=
  match (ps.filterMap Num.binade).max? with
  | none => (ps, 0)
  | some top =>
    let kept := ps.filter (fun p => match p.binade with | some e => decide (top - 72 ≤ e) | none => true)
    (kept, ps.length - kept.length)

/-- Blocks of up to 128 products. -/
def flushAll (ps : List Num) : List Num × Nat :=
  let bs := (upto ((ps.length + 127) / 128)).map (fun i => flushBlock (slice ps (128 * i) 128))
  ((bs.map (·.1)).flatten, (bs.map (·.2)).sum)

/-- Rescore of one candidate: its FP32 score and the terms flushed (R241, R222, R225; 12 R568). Only products of two BF16
vectors are flushed. -/
def rescoreOne (l2 : Bool) (qf vf : Nat) (q v : List Num) : Nat × Nat :=
  if l2 then (metric32 true q v, 0)
  else
    let ps := List.zipWith Num.mul q v
    if qf = 1 ∧ vf = 1 ∧ ps.all Num.isFin then
      let x := flushAll ps
      (fp32.writeSum (x.1.foldl Num.add (.fin false 0 0)), x.2)
    else (metric32 false q v, 0)

/-! ## RERANK (R239 to R243) -/

/-- RERANK's check of its own body and extension. -/
def rerankBad (r : Request) (linked : Bool) : Bool :=
  let keep := bodyLe r 26 2
  let rescore := nbit (bodyB r 60) 4
  decide (keep = 0) || decide (bodyLe r 28 2 = 0) || decide (keep < bodyLe r 28 2) || decide (bodyLe r 30 2 < 16) || !bodyZero r 61 3 ||
  (!rescore && decide (bodyLe r 56 4 = 0)) || mtxExtBad r 2 ||
  (!linked && (decide (bodyLe r 24 2 = 0) || decide (4096 < bodyLe r 24 2) || decide (bodyLe r 24 2 < keep) ||
    (!rescore && decide (keep ≠ bodyLe r 24 2)) || decide (bodyLe r 16 8 % 16 ≠ 0) || decide (bodyLe r 32 8 % 64 ≠ 0) ||
    decide (bodyLe r 40 8 % 64 ≠ 0)))

/-- What a RERANK works on. -/
structure RerankIn where
  blob : List Byte
  image : Option Image
  cands : List Entry
  toks : List Nat
  vec : List Byte
  vfmt : Nat
  keep : Nat
  outs : Nat
  facet : Nat
  deriving DecidableEq, Repr

/-- Names and group of a RERANK (R239; 15 R318). A TROY that is not a cross-encoder, or a MAX_SEQ above its longest sequence,
is BAD_FIELD. -/
def rerankNames (s : State) (r : Request) (g : Nat) : Except Status (List Byte × Option Image) :=
  let x : Except Status (Option Image) :=
    if bodyLe r 56 4 = 0 then .ok none
    else match imageFor s r (bodyLe r 56 4) with
      | .error st => .error st
      | .ok im => .ok (some im)
  match indexOf s r (bodyLe r 52 4), x with
  | none, _ => .error .notFound
  | _, .error st => .error st
  | some ix, .ok im =>
    match groupFault s r g im.isSome with
    | some st => .error st
    | none =>
      match im with
      | some m => if tyKind m.md ≠ 1 ∨ tyContext m.md < bodyLe r 30 2 then .error .badField else .ok (ix.blob, im)
      | none => .ok (ix.blob, none)

/-- Fixed tokens of the cross-encoder, in number. -/
def fixedLen (m : List Byte) : Nat := tyFixCount m

/-- Checks of a RERANK on its inputs (R238, R242): room for a passage token, token range, passage range. -/
def rerankInputBad (x : RerankIn) (maxSeq : Nat) : Option Status :=
  match x.image with
  | some im =>
    if maxSeq < fixedLen im.md + x.toks.length + 1 then some .badField
    else if (x.toks ++ (fixedTokens im.md).1 ++ (fixedTokens im.md).2.1 ++ (fixedTokens im.md).2.2).any (fun t => decide (tyVocab im.md ≤ t)) then
      some .tokenRange
    else if x.cands.any (fun c => decide (ixPassages x.blob ≤ c.id)) then some .indexRange else none
  | none => if x.cands.any (fun c => decide (ixPassages x.blob ≤ c.id)) then some .indexRange else none

/-- The candidates kept by rescore, with their scores, and the terms flushed (R241). -/
def rescoreAll (s : State) (tag t : Nat) (x : RerankIn) : Reading (List Entry × Nat) :=
  Got.andThen (readEach (fun s (c : Entry) => passageVector s tag t x.blob c.id) s x.cands) (fun s vs =>
    let d := ixDim x.blob
    let q := (fmtOf x.vfmt).elems x.vec d
    let sc := (x.cands.zip vs).map (fun p => (p.1, rescoreOne (ixL2 x.blob) x.vfmt (ixVec x.blob) q ((fmtOf (ixVec x.blob)).elems p.2 d)))
    (s, .ok (bestK (ixL2 x.blob) x.keep (sc.map (fun p => { p.1 with score := p.2.1 })), (sc.map (fun p => p.2.2)).sum)))

/-- Cross-encoder score of one candidate, and whether its passage was cut (R242; note 40). -/
def crossOne (tag t : Nat) (x : RerankIn) (im : Image) (bytes : List Byte) (maxSeq : Nat) (s : State) (c : Entry) : Reading (Entry × Bool) :=
  Got.andThen (recordHead s tag t x.blob c.id) (fun s h =>
    let room := maxSeq - fixedLen im.md - x.toks.length
    Got.andThen (s, recordTokens s tag h.1 (min h.2 room)) (fun s ts =>
      if ts.any (fun k => decide (tyVocab im.md ≤ k)) then (s, .fail .tokenRange)
      else
        let fx := fixedTokens im.md
        let seq := fx.1 ++ x.toks ++ fx.2.1 ++ ts ++ fx.2.2
        (s, .ok ({ c with score := (Config.crossScore bytes seq).toNat }, decide (room < h.2)))))

/-- The ranking of a RERANK: the entries to write, and the candidates cut (R241 to R243). -/
def rerankRank (s : State) (tag : Nat) (r : Request) (x : RerankIn) (kept : List Entry) : Reading (List Entry × Nat) :=
  match x.image with
  | none => (s, .ok (kept.take x.outs, 0))
  | some im =>
    let s := segsRead s r.tenant im (segsOf im.md)
    match imageFault s im with
    | some st => (s, .fail st)
    | none =>
      Got.andThen (readEach (crossOne tag r.tenant x im (imageBytes s im) (bodyLe r 30 2)) s kept) (fun s sc =>
        (s, .ok (bestK false x.outs (sc.map (·.1)), (sc.filter (·.2)).length)))

/-- The work of a RERANK on its inputs (R241 to R244). No candidates give an empty output (01 R24). -/
def rerankWork (s : State) (tag : Nat) (r : Request) (x : RerankIn) : Reading (List Entry × List Nat × Status) :=
  match rerankInputBad x (bodyLe r 30 2) with
  | some st => (s, .fail st)
  | none =>
    let j := mtxOf s tag
    if x.cands.isEmpty then (s, .ok ([], 0 :: mtxWords j, .ok))
    else
      let rescore := nbit (bodyB r 60) 4
      Got.andThen (if rescore then rescoreAll s tag r.tenant x else (s, .ok (x.cands, 0))) (fun s kf =>
        Got.andThen (rerankRank s tag r x kf.1) (fun s oc =>
          let j := { j with flushed := j.flushed + kf.2 }
          match mtxStatus j (nbit (mtxExpert r) 0) (if oc.2 = 0 then .ok else .truncated) with
          | .ok st => (bump s (fKey x.facet 0x40008) 0 32 kf.2,
              .ok (oc.1, (min oc.1.length 0xFFFF * 2 ^ 16 + min oc.2 0xFFFF) :: mtxWords j, st))
          | .fail st => (bump s (fKey x.facet 0x40008) 0 32 kf.2, .fail st)
          | .wait => (s, .wait)))

/-- Entries written: K_OUT, or all KEEP under KEEP_ALL_X. -/
def rerankOuts (r : Request) (keep : Nat) : Nat := if nbit (mtxExpert r) 1 then keep else min (bodyLe r 28 2) keep

/-- The rerank stage of a pipeline: candidates, tokens and vector come from the stages before (R239). CAND_COUNT is a link field there, so the
limit of KEEP by it is taken over the candidates that came: all of them are kept when RESCORE is 0, at most KEEP else (note 150). -/
def rerankStage (s : State) (tag : Nat) (r : Request) (g : Nat) (cands : List Entry) (toks : List Nat) (vec : List Byte) (vfmt : Nat) :
    Reading (List Entry × List Nat × Status) :=
  if rerankBad r true then (s, .fail .badField)
  else
    match rerankNames s r g with
    | .error st => (s, .fail st)
    | .ok (b, im) =>
      let rescore := nbit (bodyB r 60) 4
      let keep := if rescore then min (bodyLe r 26 2) cands.length else cands.length
      if toks.isEmpty ∨ 8192 < toks.length ∨ (rescore ∧ vec.length ≠ ixDim b * fmtSize vfmt) then (s, .fail .badField)
      else rerankWork s tag r ⟨b, im, cands, toks, vec, vfmt, keep, rerankOuts r keep, groupFacet (groupOf r g)⟩

/-- The query block (R240): tokens, vector and its format. -/
def queryBlock (s : State) (r : Request) (b : List Byte) : Reading (List Nat × List Byte × Nat) :=
  let dev := nbit (bodyB r 60) 6
  let a := bodyLe r 32 8
  let rescore := nbit (bodyB r 60) 4
  Got.andThen (readAt s r dev a 64) (fun s h =>
    let n := rdLe h 0 4
    if n = 0 ∨ 8192 < n ∨ rdLe h 4 2 ≠ (if rescore then ixDim b else 0) ∨ 3 < rdB h 6 ∨ !zeroAt h 7 57 then (s, .fail .badField)
    else Got.andThen (readAt s r dev (a + 64) (4 * n)) (fun s ts =>
      let vlen := if rescore then ixDim b * fmtSize (rdB h 6) else 0
      Got.andThen (if vlen = 0 then (s, .ok []) else readAt s r dev (a + 64 + roundUp (4 * n) 64) vlen) (fun s v =>
        (s, .ok (idsOf ts, v, rdB h 6)))))

/-- RERANK issued alone (R239). -/
def rerankRun (tag : Nat) (s : State) (r : Request) : Ended :=
  if rerankBad r false then (s, .fail .badField)
  else
    let g := bodyB r 60 % 16
    match rerankNames s r g with
    | .error st => (s, .fail st)
    | .ok (b, im) =>
      let outs := rerankOuts r (bodyLe r 26 2)
      if bodyLe r 48 4 < 16 * outs then (s, .fail .resultShort)
      else match outCheck s r (nbit (bodyB r 60) 5) (bodyLe r 40 8) (16 * outs) with
        | some st => (s, .fail st)
        | none =>
          Got.andThen (readAt s r (nbit (bodyB r 60) 7) (bodyLe r 16 8) (16 * bodyLe r 24 2)) (fun s cb =>
            Got.andThen (queryBlock s r b) (fun s q =>
              match entriesFrom cb (bodyLe r 24 2) with
              | none => (s, .fail .badField)
              | some cands =>
                Got.andThen (rerankWork s tag r ⟨b, im, cands, q.1, q.2.1, q.2.2, bodyLe r 26 2, outs, groupFacet (groupOf r g)⟩)
                  (fun s x => (writeOut s r (nbit (bodyB r 60) 5) (bodyLe r 40 8) (entriesBytes x.1), .ok (x.2.1, x.2.2)))))

/-- RERANK (R239). -/
def execRerank (tag : Nat) (s : State) : Result := .next (runOp s tag 0x17 (rerankRun tag))

end Sys2Proof.Machine
end

