-- ==== Sys2Proof/Machine/Clocks.lean ====
section
/-! DEFINITION. Clocks: PCLK codes, the package PLL and the grain count (03 R63 to R69). -/
namespace Sys2Proof.Machine

/-- Frame number of a grain count (03 R68): 128 grains to a frame. -/
def frameNo (g : Nat) : Nat := g / 128

/-- Grain within its frame (03 R68). -/
def grainInFrame (g : Nat) : Nat := g % 128

/-- PCLK frequency of a code in kilohertz: 500 MHz + code * 12.5 MHz (03 Frequency changes). -/
def pclkKhz (code : Nat) : Nat := 500000 + code * 12500

/-- Key and low bit of partition p's ceiling in CLK_PMAX_A or _B. -/
def pmaxAt (p : Nat) : Nat × Nat := (fKey (p / 8) (0x10000 + 4 * (p % 8 / 4)), 8 * (p % 4))

/-- Key and low bit of partition p's code in CLK_PCUR_A or _B. -/
def pcurAt (p : Nat) : Nat × Nat := (fKey (p / 8) (0x10008 + 4 * (p % 8 / 4)), 8 * (p % 4))

/-- Code in force of a partition. -/
def pcur (s : State) (p : Nat) : Nat := regFld s (pcurAt p).1 (pcurAt p).2 7

/-- Power-loop grant of a partition's code; 104 until the loop sets one (note 9). -/
def grantCode (s : State) (p : Nat) : Nat := mapGet (fun _ => 104) s.clk.grant p

/-- Brake limit of a partition while PWRBRAKE# is asserted or a takeover holds the package at 40% (03 R63, 02 R38). -/
def brakeLimit (s : State) (p : Nat) : Nat :=
  if s.power.brake || s.assay.limit40 then mapGet (fun _ => 104) s.power.brakeCodes p else 104

/-- Target code of a partition: the least of ceiling, grant and brake limit (03 R63). -/
def targetCode (s : State) (p : Nat) : Nat :=
  min (regFld s (pmaxAt p).1 (pmaxAt p).2 7) (min (grantCode s p) (brakeLimit s p))

/-- Brings a partition's SLEWING bit in line with its target (03 R66). -/
def retarget (s : State) (p : Nat) : State :=
  regSetFld s (pcurAt p).1 ((pcurAt p).2 + 7) 1 (if pcur s p = targetCode s p then 0 else 1)

/-- The owner's write of a CLK_PMAX register: fields above 104 are taken as 104, and the targets are recomputed (03 R63). -/
def pmaxWrite (s : State) (f : Nat) (high : Bool) (w : Word) : State :=
  let s := regSet s (fKey f (if high then 0x10004 else 0x10000)) (clampPmax w &&& 0x7F7F7F7F#32)
  (rangeFrom (8 * f + if high then 4 else 0) 4).foldl retarget s

/-- CLK_PMAX_WRITE (03 R63). -/
def execClkPmaxWrite (facet : Nat) (high : Bool) (w : Word) (s : State) : Result :=
  .next (if alive s && decide (facet < 8) && fabricLive s facet then pmaxWrite s facet high w else s)

/-- One code step toward the target (03 R64). -/
def dcoStep (s : State) (p : Nat) : State :=
  let c := pcur s p
  let t := targetCode s p
  let s := regSetFld s (pcurAt p).1 (pcurAt p).2 7 (if c < t then c + 1 else if t < c then c - 1 else c)
  retarget s p

/-- DCO_STEP (03 R64): a partition that is fenced or has no clock does not step. -/
def execDcoStep (part : Nat) (s : State) : Result :=
  .next (if alive s && s.clk.locked && decide (part < 64) && partLive s part then dcoStep s part else s)

/-- DCO_FAULT: the partition's DCO_FAULT bit is set and it is fenced with cause DCO (03 Corners). -/
def execDcoFault (part : Nat) (s : State) : Result :=
  .next (if alive s && decide (part < 64) && partLive s part then
      fenceUnit (regSetFld s (fKey (part / 8) 0x10010) (8 + part % 8) 1 1) 1 part 4
    else s)

/-- PLL_LOCK_LOST: clocks stop, every request completes with CLOCK_FAULT, the hallmark enters HELD (03 Corners). -/
def execPllLockLost (s : State) : Result :=
  .next (if alive s && s.clk.locked then
      let s := { s with clk := { s.clk with locked := false } }
      enterHeld s .clockFault 0x11
    else s)

/-- The schedule on every facet is cleared, with the flow counts and slip counts; REASON, REFUSER and RECORD stay
(04 R93). -/
def clearSchedule (s : State) : State :=
  (upto 8).foldl (fun s f =>
    { (regSet (regSet (regSet s (fKey f 0x18) 0#32) (fKey f 0x1C) 0#32) (fKey f 0x20) 0#32) with
      regs := (regSet (regSet (regSet s (fKey f 0x18) 0#32) (fKey f 0x1C) 0#32) (fKey f 0x20) 0#32).regs.filter
        (fun p => !(decide (fKey f 0x8000 ≤ p.1) && decide (p.1 < fKey f 0x10000))) })
    { s with fabric := { s.fabric with loads := [], active := [], ending := false } }

/-- The package PLL relocks (03 R67, R69, Corners): the grain count restarts, the schedule is cleared, and cache, directory and
near-store contents are lost with the fabric's and the partitions' state (a near-store byte then reads as one that nothing has
written: note 5). CLK_PCUR and the power-loop grants keep their codes (note 138). -/
def relock (s : State) (gapUs : Nat) : State :=
  let s := clearSchedule { s with
    clk := { s.clk with locked := true, grains := 0#64 }
    mtxCleared := []
    coh := State.reset.coh
    fabric := { s.fabric with inject := [] } }
  let far : Nat → Bool := fun a => decide (0x10000000 ≤ a)
  let s := { s with mem := { s.mem with bytes := s.mem.bytes.filter (fun p => far p.1), poison := s.mem.poison.filter (fun p => far p.1),
                                        broken := s.mem.broken.filter far, weak := s.mem.weak.filter (fun p => far p.1),
                                        lastPoisonEvent := [] } }
  raise s 0 .clockRelock 1 (activeFacet s) 0xFF (gapUs % 2 ^ 32)

end Sys2Proof.Machine
end

