-- ==== Sys2Proof/Machine/Rings.lean ====
section
/-! DEFINITION. Rings: doorbell lines, fetch, completion and event ring set-up, NOP, FENCE and the data of host reads
(17, 24 R533 to R538, 08 R166, R173). -/
namespace Sys2Proof.Machine

/-- A function that this package has and that host software can reach now; a fenced port carries nothing (02 R46). -/
def reachable (s : State) (fn : FnId) : Bool :=
  alive s && fnEnabled s fn && decide (fn.tenant ≤ 64) && hostLive s (portFacet fn.port)

/-- A poisoned read of n bytes of host memory on a function's port makes one poisoning for each flit that carries its bytes (08 R173,
R174). The spec gives no device address for it: a free value (note 20). -/
def hostPoison (s : State) (fn : FnId) (n : Nat) : State :=
  (upto (flitOf (n - 1) + 1)).foldl (fun s _ =>
    let (v, s) := draw s
    poisoning s (portFacet fn.port) .host false (v.toNat % 2 ^ 48) (some fn.tenant)) s

/-! ## Doorbell lines (17 R361 to R366) -/

/-- Number of line d of a function. -/
def lineNo (fn : FnId) (d : Nat) : Nat := fnNo fn * 4 + d

/-- RNG_DB_CFG of line d. -/
def dbCfg (s : State) (fn : FnId) (d : Nat) : Word := fnReg s fn (0x808 + 16 * d)

/-- A line is enabled. -/
def dbOn (s : State) (fn : FnId) (d : Nat) : Bool := bitOf (dbCfg s fn d) 0

/-- A line's run-time state. -/
def lineOf (s : State) (fn : FnId) (d : Nat) : DoorLine := mapGet (fun _ => ⟨0, false⟩) s.rings.lines (lineNo fn d)

/-- The state with a line's run-time state replaced. -/
def setLine (s : State) (fn : FnId) (d : Nat) (v : DoorLine) : State :=
  { s with rings := { s.rings with lines := mapSet (fun _ => ⟨0, false⟩) s.rings.lines (lineNo fn d) v } }

/-- RNG_POLL_MIN_X in quarter microseconds. -/
def pollMin (s : State) (fn : FnId) : Nat := fld (fnReg s fn 0x900) 0 9

/-- RNG_POLL_MAX_X in quarter microseconds. -/
def pollMax (s : State) (fn : FnId) : Nat := fld (fnReg s fn 0x904) 0 14 * 4

/-- Enabled submission rings of a function bound to line d. -/
def ringsOnLine (s : State) (fn : FnId) (d : Nat) : List Nat :=
  (upto 32).filter (fun r => sqOn s (ringNo fn r) && decide (fld (sqCfg s (ringNo fn r)) 4 2 = d))

/-- RING_FAULT to the function's event ring and to the owner's, one entry each (17 R363). -/
def ringFaultEvent (s : State) (fn : FnId) (r : Nat) (f : RingFault) : State :=
  let d := r + ringFaultCode f * 2 ^ 8 + fn.port * 2 ^ 12
  let s := raise s 0 .ringFault 0xC (portFacet fn.port) fn.tenant d
  if fn.tenant = 0 then s else raise s fn.tenant .ringFault 0xC (portFacet fn.port) fn.tenant d

/-- One producer index read for a ring (17 R363): recorded, or a fault that stops the ring's fetch. A ring with a fault takes
no further index (note 21). -/
def takeIndex (s : State) (fn : FnId) (r : Nat) (pi : Word) : State :=
  let q := sqOf s (ringNo fn r)
  let d := (pi - q.prec).toNat
  if d = 0 ∨ q.fault ≠ .none then s
  else if (q.prec - q.fetch).toNat + d ≤ 2 ^ fld (sqCfg s (ringNo fn r)) 16 5 then
    setSq s (ringNo fn r) { q with prec := pi }
  else
    let f := if 2 ^ 31 ≤ d then RingFault.backward else RingFault.overrun
    ringFaultEvent (setSq s (ringNo fn r) { q with fault := f }) fn r f

/-- Producer index of slot s in a line's 64 bytes. -/
def linePi (line : List Byte) (slot : Nat) : Word := BitVec.ofNat 32 (rdLe line (4 * slot) 4)

/-- EPOCH in a line's 64 bytes. -/
def lineEpoch (line : List Byte) : Nat := rdLe line 62 2

/-- One refused read of a line counts in RNG_DB_CFG.MISS (17 R362). -/
def dbMiss (s : State) (fn : FnId) (d : Nat) : State := bump s (fnBase fn + 0x808 + 16 * d) 8 8 1

/-- The next interval of a line (17 R364). -/
def nextInterval (s : State) (fn : FnId) (d : Nat) (changed : Bool) : Nat :=
  if changed then pollMin s fn else min (2 * (lineOf s fn d).interval) (pollMax s fn)

/-- A poll ends: it took producer indices, or it changed none (17 R364). -/
def endPoll (s : State) (fn : FnId) (d : Nat) (changed : Bool) : State :=
  setLine s fn d ⟨nextInterval s fn d changed, false⟩

/-- The data of a poll (17 R362 to R366, 08 R173). -/
def pollData (s : State) (fn : FnId) (d : Nat) (line : List Byte) (st : ReadStatus) : State :=
  match st with
  | .poisoned => endPoll (hostPoison s fn 64) fn d false
  | .xlate => endPoll (dbMiss s fn d) fn d false
  | .good =>
    if lineEpoch line ≠ fld (dbCfg s fn d) 16 16 then setLine (dbMiss s fn d) fn d ⟨pollMax s fn, false⟩
    else
      let rs := ringsOnLine s fn d
      let s' := rs.foldl (fun s r => takeIndex s fn r (linePi line (fld (sqCfg s (ringNo fn r)) 0 4))) s
      endPoll s' fn d (rs.any (fun r => (sqOf s' (ringNo fn r)).prec != (sqOf s (ringNo fn r)).prec))

/-- The read of a line is issued (17 R364). -/
def poll (s : State) (fn : FnId) (d : Nat) : State :=
  if !reachable s fn || !decide (d < 4) || !dbOn s fn d || (funcOf s fn).d3hot || (lineOf s fn d).polling then s
  else hostAsk (setLine s fn d ⟨(lineOf s fn d).interval, true⟩) fn (fnPair s fn (0x800 + 16 * d)) 64

/-- DOORBELL_POLL (17 R364). -/
def execDoorbellPoll (port tenant line : Nat) (s : State) : Result := .next (poll s ⟨port, tenant⟩ line)

/-- DOORBELL_POLL_DATA (17 R363). -/
def execDoorbellPollData (port tenant line : Nat) (data : List Byte) (st : ReadStatus) (s : State) : Result :=
  .next (let fn : FnId := ⟨port, tenant⟩
    if !reachable s fn || !decide (line < 4) then s
    else
      let a := fnPair s fn (0x800 + 16 * line)
      let t := refusedPages (hostBack s fn a 64) fn a 64 st
      if !dbOn s fn line || !(lineOf s fn line).polling then t else settle (pollData t fn line data (heard s fn st)))

/-! ## Fetch (17 R367 to R374, R384, R385, R389) -/

/-- Tags a tenant holds over both ports (17 R384). -/
def tagsOf (s : State) (t : Nat) : Nat := (s.requests.filter (fun p => decide (p.2.tenant = t))).length

/-- Quota in force of a tenant (17 TEN_TAGQ_X). -/
def quota (s : State) (t : Nat) : Nat := fld (forceGet s (0x4C000 + 4 * t)) 0 15

/-- Tenant t is re-opened (18 R402). -/
def reopened (s : State) (t : Nat) : Bool := decide (t ≠ 0) && s.hmk.reopen.getLsbD (t - 1)

/-- A request fetched from a ring waits for the hallmark (17 R389). -/
def heldBySeal (s : State) (rk : Nat) : Bool :=
  s.requests.any (fun p => !p.2.started && !sealAllows s p.2 &&
    match ringOf p.2 with | some (k, _) => k == rk | none => false)

/-- Cause SEAL of a ring's pause (17 R389, 18 R402, 22 R496, 23 R519). -/
def pauseSeal (s : State) (rk : Nat) : Bool :=
  let t := (ringFn rk).tenant
  if regFld s (aKey 0xE0114) 0 2 = 1 then true
  else if t = 0 then heldBySeal s rk
  else !isSealedNow s || s.hmk.draining || reopened s t

/-- The request that a flow works for. -/
def flowTag (s : State) (u : FlowUse) : Option Nat :=
  match u with
  | .prefill tag | .shardOut tag _ | .shardIn tag => some tag
  | .load n => (troyOf s n).load.map (·.tag)
  | _ => none

/-- Requests that wait at an in-flight bound (17 R385): for one of a gather engine's 1,024 reads or an HBM stack's 512 (01 R26), for one of a
port's non-posted requests (16 R343), or for one of a lane pair's 2,048 transfers (19 R423). The bound of 64 NAND commands is met by none: one
operation runs in a LUN, and a channel has 32 LUNs (07 R154). -/
def boundTags (s : State) : List Nat :=
  (s.gathers.filter (fun g => !g.2.queue.isEmpty)).map (·.1) ++
  (upto 2).flatMap (fun p => if readBound s p ≤ (portOf s p).reads.length then (portOf s p).held.map (·.tag) else []) ++
  s.strand.flows.filterMap (fun x => if !x.2.queue.isEmpty && decide (2048 ≤ pairHolds s x.2.pair) then flowTag s x.2.use else none)

/-- A request of the ring waits at an in-flight bound (17 R385). -/
def atBound (s : State) (rk : Nat) : Bool :=
  (boundTags s).any (fun tag => match look s.requests tag with
    | some r => (match ringOf r with | some (k, _) => k == rk | none => false)
    | none => false)

/-- RNG_SQ_STATE.PAUSE of a ring (17): bit 4 SEAL, 3 QUOTA, 2 POOL, 1 CQ_ROOM, 0 BOUND. -/
def pauseBits (s : State) (rk : Nat) : Nat :=
  let t := (ringFn rk).tenant
  (if pauseSeal s rk then 16 else 0) + (if quota s t ≤ tagsOf s t then 8 else 0) +
  (if 65536 ≤ s.requests.length then 4 else 0) + (if cqRoom s (sqCq s rk) = 0 then 2 else 0) +
  (if atBound s rk then 1 else 0)

/-- TEN_EXPERT in force of a tenant (18 R399, R401). -/
def expertOf (s : State) (t : Nat) : Nat := if t = 0 then 0x3F else fld (regGet s (0x4E000 + 4 * t)) 0 6

/-- The opcodes (17 Table - Opcodes), with whether an extension is allowed. -/
def opcodes : List (Nat × Bool) :=
  [(0x00, false), (0x01, false), (0x10, true), (0x11, true), (0x12, true), (0x13, true), (0x14, true), (0x15, true),
   (0x16, true), (0x17, true), (0x18, false), (0x19, false), (0x1A, true), (0x1B, true), (0x20, false)]

/-- Header checks of R374 on a descriptor, in their order. Format A carries no extension. -/
def headerFault (fmtB : Bool) (e : List Byte) : Option Status :=
  let op := rdB e 0
  match look opcodes op with
  | none => some .badOpcode
  | some extOk =>
    if op = 0x20 ∧ !fmtB then some .badPlan
    else if rdB e 1 % 64 ≠ 0 ∨ !zeroAt e 2 6 ∨ (!fmtB ∧ (128 ≤ rdB e 1 ∨ !zeroAt e 24 8)) then some .badField
    else if fmtB then (if 128 ≤ rdB e 1 ∧ !extOk then some .badField else none)
    else
      let a := rdLe e 16 8
      if a % 64 ≠ 0 ∨ (a = 0 ∧ op ≠ 0 ∧ op ≠ 1) then some .badField else none

/-- Body of a format A descriptor: 48 zero bytes where it names none. -/
def bodyOf (fmtB : Bool) (e body : List Byte) : List Byte :=
  if fmtB then slice e 16 48
  else if rdLe e 16 8 = 0 then List.replicate 48 0#8 else body

/-- Why a descriptor cannot run, found as it is fetched (17 R374, 08 R173, 16 R353). -/
def fetchFault (fmtB : Bool) (e : List Byte) (st bodySt : ReadStatus) : Option Status :=
  match st with
  | .poisoned => some .poisonHost
  | .xlate => some .xlateFault
  | .good =>
    match headerFault fmtB e with
    | some f => some f
    | none =>
      if fmtB ∨ rdLe e 16 8 = 0 then none
      else match bodySt with
        | .poisoned => some .poisonHost | .xlate => some .xlateFault | .good => none

/-- Rings in the scope of a FENCE (17 R376). -/
def fenceScope (fn : FnId) (ring scope : Nat) : List Nat :=
  match scope with
  | 0 => [ringNo fn ring]
  | 1 => (upto 32).map (ringNo fn)
  | 2 => (targetFns fn.tenant).flatMap (fun g => (upto 32).map (ringNo g))
  | _ => []

/-- The bounds a FENCE takes at its fetch (17 R376). -/
def fenceBounds (s : State) (fn : FnId) (ring : Nat) (index : Word) (body : List Byte) : List (Nat × Word) :=
  ((fenceScope fn ring (rdB body 0 % 4)).filter (sqOn s)).map (fun rk =>
    (rk, if rk = ringNo fn ring then index else (sqOf s rk).prec))

/-- One more ignored expert write of a tenant, on both paths of R545 (18 R400). -/
def countXign (s : State) (t : Nat) : State :=
  let s := bump s (0x4F000 + 4 * t) 0 32 1
  { s with xign := mapSet (fun _ => 0) s.xign t (min (mapGet (fun _ => 0) s.xign t + 1) 0xFFFFFFFF) }

/-- The _X fields of an opcode's extension: their bit of TEN_EXPERT, and whether one holds another value than its default (18 R398 to
R400; 09 Expert control, 10, 11, 12, 14). -/
def extFields (op : Nat) (x : List Byte) : Option (Nat × Bool) :=
  match op with
  | 0x10 => some (1, rdB x 0 % 2 != 0)
  | 0x11 => some (1, rdB x 0 % 4 != 0)
  | 0x12 => some (2, rdB x 0 % 4 != 0)
  | 0x13 => some (2, rdB x 0 % 4 != 0)
  | 0x14 => some (3, rdB x 0 % 2 != 0)
  | 0x17 => some (3, rdB x 0 % 4 != 0)
  | 0x15 => some (4, rdB x 0 % 4 != 0 || rdLe x 4 4 != 0)
  | 0x1A => some (5, rdLe x 0 2 != 10)
  | _ => none

/-- An extension is fetched under a mask (18 R399, R400): one that holds, in a field which the mask replaces by its default, another value
counts, whatever becomes of its request. -/
def noteExt (s : State) (t mask op : Nat) (ext : Option (List Byte)) : State :=
  match ext with
  | none => s
  | some x => match extFields op x with
    | some (g, differs) => if differs && !mask.testBit g then countXign s t else s
    | none => s

/-- A descriptor takes its tag (17 R384): the least one free, and one completion owed; its extension is judged under the mask of this
moment (18 R399). -/
def takeTag (s : State) (fn : FnId) (ring : Nat) (index : Word) (e : List Byte) (ext : Option (List Byte))
    (body : List Byte) (st bodySt : ReadStatus) : State :=
  let fmtB := bitOf (sqCfg s (ringNo fn ring)) 30
  match freeKey s.requests 0 65536 with
  | none => s
  | some tag =>
    let ck := sqCq s (ringNo fn ring)
    let fault := fetchFault fmtB e st bodySt
    let body := bodyOf fmtB e body
    let op := rdB e 0
    let r : Request := {
      source := .ring fn ring index (ck % 32) (fld (sqCfg s (ringNo fn ring)) 16 5), tenant := fn.tenant,
      user := BitVec.ofNat 64 (if st = .xlate then 0 else rdLe e 8 8), noIrq := decide (rdB e 1 / 64 % 2 = 1),
      opcode := op, body := body, bodyStatus := bodySt, ext := ext, poisoned := decide (st = .poisoned),
      headFault := fault, expert := expertOf s fn.tenant, groups := (upto 16).map (groupMask s fn.tenant),
      fetched := s.clk.grains.toNat, started := false,
      late := decide (fn.tenant = 0) && (!isSealedNow s || s.hmk.draining), attached := false, judged := none, hostIn := [], tag := tag, names := [],
      fence := if op = 1 ∧ fault.isNone then some ⟨fenceBounds s fn ring index body, false⟩ else none, pipe := none }
    let c := cqOf s ck
    let s := if st = .good then noteExt s fn.tenant r.expert op ext else s
    setRequest (setCq s ck { c with owed := c.owed + 1 }) tag r

/-- The ring may read its next entry now. -/
def mayFetch (s : State) (fn : FnId) (ring : Nat) : Bool :=
  let q := sqOf s (ringNo fn ring)
  reachable s fn && decide (ring < 32) && sqOn s (ringNo fn ring) && decide (q.fault = .none) &&
  decide (q.fetch ≠ q.prec) && decide (pauseBits s (ringNo fn ring) = 0) && !(funcOf s fn).d3hot

/-- EXT as a descriptor's bytes give it (17 R368): format B only. -/
def hasExt (fmtB : Bool) (e : List Byte) : Bool := fmtB && decide (128 ≤ rdB e 1)

/-- Poisoned reads count as poisonings of origin HOST (08 R166). -/
def countIf (s : State) (fn : FnId) (st : ReadStatus) (n : Nat) : State := if st = .poisoned then hostPoison s fn n else s

/-- The worse of two read statuses: poison, then a translation failure. -/
def worse (a b : ReadStatus) : ReadStatus :=
  if a = .poisoned ∨ b = .poisoned then .poisoned else if a = .xlate ∨ b = .xlate then .xlate else .good

/-- Status held with the first of two entries of a descriptor. -/
def heldStatus (poisoned : Bool) : ReadStatus := if poisoned then .poisoned else .good

/-- The entry that a ring fetches next is read (17 R367, R368): one entry to a read (note 168). -/
def readEntry (s : State) (fn : FnId) (ring : Nat) (st : ReadStatus) : State :=
  let rk := ringNo fn ring
  let n := if bitOf (sqCfg s rk) 30 then 64 else 32
  readNow s fn (fnPair s fn (32 * ring) + n * ((sqOf s rk).fetch.toNat % 2 ^ fld (sqCfg s rk) 16 5)) n st

/-- One ring entry arrives (17 R368, R369): an extension completes the descriptor held; a descriptor with EXT is held; any
other descriptor is fetched. -/
def fetchEntry (s : State) (fn : FnId) (ring : Nat) (e : List Byte) (st : ReadStatus) (body : List Byte)
    (bodySt : ReadStatus) : State :=
  let rk := ringNo fn ring
  let q := sqOf s rk
  let s := countIf (readEntry s fn ring st) fn st 64
  let s := setSq s rk { q with fetch := q.fetch + 1#32 }
  match q.heldDesc with
  | some (d, p) =>
    takeTag (setSq s rk { q with fetch := q.fetch + 1#32, heldDesc := none }) fn ring (q.fetch - 1#32) d (some e) []
      (worse (heldStatus p) st) .good
  | none =>
    let fmtB := bitOf (sqCfg s rk) 30
    if hasExt fmtB e && decide (st ≠ .xlate) then
      setSq s rk { q with fetch := q.fetch + 1#32, heldDesc := some (e, decide (st = .poisoned)) }
    else
      let bodyRead := !fmtB && decide (st = .good) && (headerFault false e).isNone && decide (rdLe e 16 8 ≠ 0)
      takeTag (if bodyRead then countIf (readNow s fn (rdLe e 16 8) 48 bodySt) fn bodySt 48 else s) fn ring q.fetch e none body st bodySt

/-! ## Completion room and moderation (17 R381 to R383, 24 R535) -/

/-- A head word of a completion ring is read (17 R382): a head ahead of POSTED, or backward, is ignored. -/
def cqHead (s : State) (fn : FnId) (c head : Nat) : State :=
  let q := cqOf s (ringNo fn c)
  if head < q.head ∨ q.posted < head then s else setCq s (ringNo fn c) { q with head := head }

/-- A head word of an event ring is read; a loss is then reported (24 R535). -/
def evtHead (s : State) (fn : FnId) (head : Nat) : State :=
  let e := evtOf s fn
  if head < e.head ∨ e.posted < head then s
  else
    let s := setEvt s fn { e with head := head }
    if decide (fn.tenant = 0) || isSealedNow s then evtReport s fn else s

/-- The ring whose head word is read waits for room (17 R382). -/
def awaitsHead (s : State) (fn : FnId) (cq : Option Nat) : Bool :=
  match cq with
  | some c => decide (c < 32) && cqOn s (ringNo fn c) && decide (cqRoom s (ringNo fn c) = 0)
  | none => evtOn s fn && decide (evtRoom s fn = 0)

/-- Address of the head word of a completion ring, or of the event ring (17 R381, 24 R535). -/
def headAddr (s : State) (fn : FnId) (cq : Option Nat) : Nat :=
  match cq with | some c => fnPair s fn (0x408 + 32 * c) | none => fnPair s fn 0x1008

/-- CQ_HEAD_REREAD (17 R382). -/
def execCqHeadReread (port tenant : Nat) (cq : Option Nat) (head : Nat) (st : ReadStatus) (s : State) : Result :=
  let fn : FnId := ⟨port, tenant⟩
  .next (if !reachable s fn || (funcOf s fn).d3hot || !awaitsHead s fn cq then s
    else
    let s := readNow s fn (headAddr s fn cq) 8 st
    match heard s fn st with
      | .poisoned => hostPoison s fn 64
      | .xlate => s
      | .good => match cq with | some c => cqHead s fn c head | none => evtHead s fn head)

/-- The timer of a ring has run for MOD_US (17 R383, 24 R537). -/
def modExpiry (s : State) (fn : FnId) (cq : Option Nat) : State :=
  match cq with
  | some c =>
    let q := cqOf s (ringNo fn c)
    if c < 32 ∧ cqOn s (ringNo fn c) ∧ q.timer then
      signalCq (setCq s (ringNo fn c) { q with unsignalled := 0, timer := false }) fn (ringNo fn c)
    else s
  | none =>
    let e := evtOf s fn
    if evtOn s fn ∧ e.timer then
      sendMsix (setEvt s fn { e with unsignalled := 0, timer := false }) fn (fld (evtCfg s fn) 0 11)
    else s

/-- MOD_US_EXPIRY (17 R383). -/
def execModUsExpiry (port tenant : Nat) (cq : Option Nat) (s : State) : Result :=
  .next (if reachable s ⟨port, tenant⟩ then modExpiry s ⟨port, tenant⟩ cq else s)

/-! ## Ring set-up (17 R387, R388; 24 R538) -/

/-- Stores bits of a set-up register of a function: those of `mask` come from `w`. -/
def fnStore (s : State) (fn : FnId) (off mask : Nat) (w : Word) : State :=
  let m := BitVec.ofNat 32 mask
  regSet s (fnBase fn + off) ((regGet s (fnBase fn + off) &&& ~~~m) ||| (w &&& m))

/-- A LOG2_SIZE in its range. -/
def log2Ok (w : Word) : Bool := decide (4 ≤ fld w 16 5) && decide (fld w 16 5 ≤ 16)

/-- Another enabled ring of the function is bound to the same line and slot (17 R387). -/
def slotTaken (s : State) (fn : FnId) (ring : Nat) (w : Word) : Bool :=
  (upto 32).any (fun r => decide (r ≠ ring) && sqOn s (ringNo fn r) &&
    decide (fld (sqCfg s (ringNo fn r)) 0 6 = fld w 0 6))

/-- The set-up of a submission ring is sound (17 R387). -/
def sqSetupOk (s : State) (fn : FnId) (ring : Nat) (w : Word) : Bool :=
  cqOn s (ringNo fn (fld w 8 5)) && dbOn s fn (fld w 4 2) && log2Ok w && decide (fld w 0 4 ≠ 15) &&
  decide (fnPair s fn (32 * ring) % 4096 = 0) && !slotTaken s fn ring w

/-- The one read of the bound line at an enable (17 R387): its poison and epoch mismatch count. -/
def enableRead (s : State) (fn : FnId) (d : Nat) (line : List Byte) (st : ReadStatus) : State × Bool :=
  let s := readNow s fn (fnPair s fn (0x800 + 16 * d)) 64 st
  match st with
  | .poisoned => (hostPoison s fn 64, false)
  | .xlate => (s, false)
  | .good => if lineEpoch line = fld (dbCfg s fn d) 16 16 then (s, true) else (dbMiss s fn d, false)

/-- A submission ring fails its enable: ENABLE 0, FAULT CONFIG (17 R387). -/
def sqConfigFault (s : State) (fn : FnId) (ring : Nat) (w : Word) : State :=
  setSq (fnStore s fn (0x008 + 32 * ring) 0xC01F1F3F (setBit w 31 false)) (ringNo fn ring)
    { sqOf s (ringNo fn ring) with fault := .config, heldDesc := none }

/-- A write of RNG_SQ_CFG; `line` and `st` are the read of the bound line that an enable issues (17 R387, R388). -/
def sqWrite (s : State) (fn : FnId) (ring : Nat) (w : Word) (line : List Byte) (st : ReadStatus) : State :=
  let rk := ringNo fn ring
  if sqOn s rk then
    if bitOf w 31 then s
    else settle (setSq (fnStore s fn (0x008 + 32 * ring) 0xC01F1F3F w) rk { sqOf s rk with heldDesc := none })
  else if !bitOf w 31 then fnStore s fn (0x008 + 32 * ring) 0xC01F1F3F w
  else if !sqSetupOk s fn ring w then sqConfigFault s fn ring w
  else
    let (s, ok) := enableRead s fn (fld w 4 2) line st
    if !ok then sqConfigFault s fn ring w
    else
      let pi := linePi line (fld w 0 4)
      setSq (fnStore s fn (0x008 + 32 * ring) 0xC01F1F3F w) rk ⟨pi, pi, .none, none⟩

/-- RNG_SQ_ENABLE (17 R387). -/
def execRngSqEnable (port tenant ring : Nat) (w : Word) (line : List Byte) (st : ReadStatus) (s : State) : Result :=
  .next (if reachable s ⟨port, tenant⟩ && decide (ring < 32) then sqWrite s ⟨port, tenant⟩ ring w line (heard s ⟨port, tenant⟩ st) else s)

/-- Some enabled submission ring of the function is bound to completion ring c. -/
def cqBound (s : State) (fn : FnId) (c : Nat) : Bool :=
  (upto 32).any (fun r => sqOn s (ringNo fn r) && decide (fld (sqCfg s (ringNo fn r)) 8 5 = c))

/-- A write of RNG_CQ_CFG (17 R387, R388). -/
def cqWrite (s : State) (fn : FnId) (c : Nat) (w : Word) : State :=
  let ck := ringNo fn c
  let off := 0x410 + 32 * c
  if cqOn s ck then
    if bitOf w 31 then fnStore s fn off 0x7FF w
    else if cqBound s fn c ∨ (cqOf s ck).owed ≠ 0 then s
    else fnStore s fn off 0x801F07FF w
  else if bitOf w 31 ∧ log2Ok w ∧ fnPair s fn (0x400 + 32 * c) % 4096 = 0 ∧ fnPair s fn (0x408 + 32 * c) % 8 = 0 then
    setCq (fnStore s fn off 0x801F07FF w) ck ⟨0, 0, 0, 0, false⟩
  else fnStore s fn off 0x801F07FF (setBit w 31 false)

/-- RNG_CQ_ENABLE (17 R387). -/
def execRngCqEnable (port tenant ring : Nat) (w : Word) (s : State) : Result :=
  .next (if reachable s ⟨port, tenant⟩ && decide (ring < 32) then cqWrite s ⟨port, tenant⟩ ring w else s)

/-- A write of RNG_DB_CFG (17 R387, R388). -/
def dbWrite (s : State) (fn : FnId) (d : Nat) (w : Word) : State :=
  let off := 0x808 + 16 * d
  if dbOn s fn d then
    if bitOf w 0 then fnStore s fn off 0xFFFF0000 w
    else if !(ringsOnLine s fn d).isEmpty then s
    else setLine (fnStore s fn off 0xFFFF0001 w) fn d ⟨0, false⟩
  else if bitOf w 0 ∧ fnPair s fn (0x800 + 16 * d) % 64 = 0 then
    setLine (fnStore s fn off 0xFFFF0001 w) fn d ⟨pollMin s fn, false⟩
  else fnStore s fn off 0xFFFF0001 (setBit w 0 false)

/-- RNG_DB_ENABLE (17 R387). -/
def execRngDbEnable (port tenant line : Nat) (w : Word) (s : State) : Result :=
  .next (if reachable s ⟨port, tenant⟩ && decide (line < 4) then dbWrite s ⟨port, tenant⟩ line w else s)

/-- Held owner events go, oldest first, to the first owner event ring enabled (24 R536). -/
def releaseHeld (s : State) (fn : FnId) : State :=
  let es := s.rings.heldEvents
  es.foldl (fun s e => evtPut s fn e) (evtReport { s with rings := { s.rings with heldEvents := [] } } fn)

/-- A write of EVT_CFG (24 R536, R538). LOST keeps its count. -/
def evtWriteCfg (s : State) (fn : FnId) (w : Word) : State :=
  if evtOn s fn then
    if bitOf w 31 then fnStore s fn 0x1010 0x7FF w else evtDrop (fnStore s fn 0x1010 0x801F07FF w) fn
  else if bitOf w 31 ∧ log2Ok w ∧ fnPair s fn 0x1000 % 4096 = 0 ∧ fnPair s fn 0x1008 % 8 = 0 then
    let e := evtOf s fn
    let s := setEvt (fnStore s fn 0x1010 0x801F07FF w) fn { e with posted := 0, head := 0, unsignalled := 0, timer := false }
    if fn.tenant = 0 then releaseHeld s fn else if isSealedNow s then evtReport s fn else s
  else fnStore s fn 0x1010 0x801F07FF (setBit w 31 false)

/-- EVT_ENABLE (24 R538). -/
def execEvtEnable (port tenant : Nat) (w : Word) (s : State) : Result :=
  .next (if reachable s ⟨port, tenant⟩ then evtWriteCfg s ⟨port, tenant⟩ w else s)

/-- A write that clears ENABLE of a ring, line or event ring (17 R388, 24 R538). -/
def ringDisable (s : State) (fn : FnId) (kind : RingKind) (i : Nat) (w : Word) : State :=
  match kind with
  | .sq => if i < 32 then sqWrite s fn i (setBit w 31 false) [] .good else s
  | .cq => if i < 32 then cqWrite s fn i (setBit w 31 false) else s
  | .db => if i < 4 then dbWrite s fn i (setBit w 0 false) else s
  | .evt => evtWriteCfg s fn (setBit w 31 false)

/-- RING_DISABLE (17 R388). -/
def execRingDisable (port tenant : Nat) (kind : RingKind) (index : Nat) (w : Word) (s : State) : Result :=
  .next (if reachable s ⟨port, tenant⟩ then ringDisable s ⟨port, tenant⟩ kind index w else s)

/-! ## NOP, FENCE, host data -/

/-- NOP (17 R375): a body that is not all zero fails with BAD_FIELD (note 22). -/
def execNop (tag : Nat) (s : State) : Result :=
  .next (match running s tag 0 with
    | some r => finish s tag (if zeroAt r.body 0 48 then .ok else .badField) []
    | none => s)

/-- FENCE (17 R376): its body is judged; it then waits for its predecessors. -/
def execFence (tag : Nat) (s : State) : Result :=
  .next (match running s tag 1 with
    | some r =>
      if rdB r.body 0 % 4 = 3 ∨ 4 ≤ rdB r.body 0 ∨ !zeroAt r.body 1 47 then finish s tag .badField []
      else match r.fence with
        | some h => settle (setRequest s tag { r with fence := some { h with judged := true } })
        | none => s
    | none => s)

/-- The function whose port a request's host traffic uses (16 R347). -/
def requestFn (r : Request) : FnId := match r.source with | .ring fn _ _ _ _ => fn | .peer _ => ⟨0, r.tenant⟩

/-- Reads for a tag end, of every function that made one (16 R343). -/
def tagReads (s : State) (tag : Nat) (gone : HostAsk → Bool) : State :=
  (upto 2).foldl (fun s p => freeReads s p (fun x => decide (x.tag = tag) && gone x)) s

/-- A piece of host data reaches a request (08 R166): poisoned data counts one poisoning for each flit of it. Its reads whose bytes have all
come are outstanding no longer (16 R343); of a request that has ended, those that the piece covers. -/
def hostPiece (s : State) (tag addr : Nat) (data : List Byte) (st : ReadStatus) : State :=
  match look s.requests tag with
  | none => tagReads s tag (askIn addr data.length)
  | some r =>
    let st := heard s (requestFn r) st
    let r' := { r with hostIn := r.hostIn ++ [⟨addr, data, st⟩] }
    tagReads (countIf (refusedPages (setRequest s tag r') (requestFn r) addr data.length st) (requestFn r) st data.length) tag (askHere r')

/-- HOST_READ_COMPLETION (08 R166). -/
def execHostReadCompletion (tag addr : Nat) (data : List Byte) (st : ReadStatus) (s : State) : Result :=
  .next (if alive s then hostPiece s tag addr data st else s)

/-- COMPLETION_TIMEOUT (16 R344): the data that should have come is poisoned with origin HOST. -/
def execCompletionTimeout (tag addr len : Nat) (s : State) : Result :=
  .next (if alive s then hostPiece s tag addr (List.replicate len 0#8) .poisoned else s)

end Sys2Proof.Machine
end

