-- ==== Sys2Proof/Machine/Token.lean ====
section
/-! DEFINITION. Token: vocabularies, grammars, TOKENIZE and DETOKENIZE (09 R177 to R197). -/
namespace Sys2Proof.Machine

/-! ## Trie blobs (09 R177, R178) -/

/-- 0xFFFF_FFFF: no token. -/
def noToken : Nat := 0xFFFFFFFF

/-- VOCAB_SIZE. -/
def vocSize (b : List Byte) : Nat := rdLe b 8 4
/-- NODE_OFFSET: the root node. -/
def rootOff (b : List Byte) : Nat := rdLe b 28 4
/-- STRING_OFFSET. -/
def strOff (b : List Byte) : Nat := rdLe b 36 4
/-- BYTE_TABLE. -/
def byteTab (b : List Byte) : Nat := rdLe b 52 4
/-- Byte token of byte value v. -/
def byteToken (b : List Byte) (v : Byte) : Nat := rdLe b (byteTab b + 4 * v.toNat) 4
/-- Token string entry of a token. -/
def strEntry (b : List Byte) (t : Nat) : Nat := strOff b + 8 * t
/-- A token is SPECIAL. -/
def isSpecial (b : List Byte) (t : Nat) : Bool := nbit (rdB b (strEntry b t + 5)) 0
/-- The string of a token. -/
def tokenString (b : List Byte) (t : Nat) : List Byte :=
  slice b (strOff b + 8 * vocSize b + rdLe b (strEntry b t) 4) (rdB b (strEntry b t + 4))
/-- TOKEN of a node. -/
def nodeToken (b : List Byte) (n : Nat) : Nat := rdLe b n 4
/-- The children of a node as (byte value, node offset). -/
def children (b : List Byte) (n : Nat) : List (Nat × Nat) :=
  (upto (rdLe b (n + 4) 2)).map (fun i => let e := rdLe b (n + 8) 4 + 8 * i; (rdB b e, rdLe b (e + 4) 4))

/-- Header checks of R178 in field order: the offset of the first field out of range. -/
def trieHeaderBad (b : List Byte) (len : Nat) : Option Nat :=
  let v := vocSize b
  if rdLe b 0 4 ≠ 0x45495254 then some 0
  else if rdLe b 4 2 ≠ 1 then some 4
  else if rdLe b 6 2 = 0 ∨ 128 < rdLe b 6 2 then some 6
  else if v < 256 ∨ 262144 < v then some 8
  else if 33554432 < rdLe b 12 4 ∨ rdLe b 12 4 ≠ len ∨ b.length ≠ len then some 12
  else if rootOff b % 8 ≠ 0 ∨ len < rootOff b + 16 then some 28
  else if 65536 < rdLe b 32 4 ∨ len < rootOff b + rdLe b 32 4 then some 32
  else if strOff b % 8 ≠ 0 ∨ len < strOff b then some 36
  else if rdLe b 40 4 < 8 * v ∨ len < strOff b + rdLe b 40 4 then some 40
  else if byteTab b % 8 ≠ 0 ∨ len < byteTab b + 1024 then some 52
  else if !zeroAt b 56 8 then some 56
  else none

/-- One node's own fields lie in range: offset of the first that does not. -/
def nodeBad (b : List Byte) (n : Nat) : Option Nat :=
  if n % 8 ≠ 0 ∨ b.length < n + 16 then some n
  else if 256 < rdLe b (n + 4) 2 then some (n + 4)
  else if !zeroAt b (n + 6) 2 then some (n + 6)
  else if rdLe b (n + 8) 4 % 8 ≠ 0 ∨ b.length < rdLe b (n + 8) 4 + 8 * rdLe b (n + 4) 2 then some (n + 8)
  else if !zeroAt b (n + 12) 4 then some (n + 12)
  else
    let cs := children b n
    match (upto cs.length).find? (fun i =>
        !zeroAt b (rdLe b (n + 8) 4 + 8 * i + 1) 3 ||
        (decide (0 < i) && decide ((cs.getD i (0, 0)).1 ≤ (cs.getD (i - 1) (0, 0)).1))) with
    | some i => some (rdLe b (n + 8) 4 + 8 * i)
    | none => none

/-- The nodes reached from a list of (node, byte path), depth first, each visited once: `.inr` the offset of a node that is
reached twice, too deep or malformed. -/
def walkTree (b : List Byte) : Nat → List (Nat × List Byte) → List (Nat × List Byte) → List (Nat × List Byte) ⊕ Nat
  | _, [], seen => .inl seen
  | 0, (n, _) :: _, _ => .inr n
  | k + 1, (n, path) :: todo, seen =>
    if seen.any (fun p => p.1 == n) ∨ rdLe b 6 2 < path.length then .inr n
    else match nodeBad b n with
      | some o => .inr o
      | none => walkTree b k ((children b n).map (fun c => (c.2, path ++ [BitVec.ofNat 8 c.1])) ++ todo) ((n, path) :: seen)

/-- String table entries lie inside the string bytes, with reserved bits 0. -/
def stringsBad (b : List Byte) : Option Nat :=
  ((upto (vocSize b)).find? (fun t => let e := strEntry b t
    decide (rdLe b 40 4 < 8 * vocSize b + rdLe b e 4 + rdB b (e + 4)) || decide (128 < rdB b (e + 4)) ||
    decide (2 ≤ rdB b (e + 5)) || !zeroAt b (e + 6) 2)).map (strEntry b)

/-- Tokens at nodes: below VOCAB_SIZE, not SPECIAL, at one node only, with the node's byte path as their string. -/
def nodeTokensBad (b : List Byte) (nodes : List (Nat × List Byte)) : Option Nat :=
  (nodes.find? (fun p => let t := nodeToken b p.1
    t != noToken && (decide (vocSize b ≤ t) || isSpecial b t || tokenString b t != p.2 ||
      nodes.any (fun q => q.1 != p.1 && nodeToken b q.1 == t)))).map (·.1)

/-- Byte table: distinct non-SPECIAL tokens below VOCAB_SIZE, entry v with the one-byte string v. -/
def byteTableBad (b : List Byte) : Option Nat :=
  ((upto 256).find? (fun v => let t := byteToken b (BitVec.ofNat 8 v)
    decide (vocSize b ≤ t) || isSpecial b t || tokenString b t != [BitVec.ofNat 8 v] ||
      (upto v).any (fun u => byteToken b (BitVec.ofNat 8 u) == t))).map (fun v => byteTab b + 4 * v)

/-- BOS_ID or EOS_ID: none, or a SPECIAL token below VOCAB_SIZE. -/
def specialIdOk (b : List Byte) (off : Nat) : Bool :=
  let t := rdLe b off 4
  t == noToken || (decide (t < vocSize b) && isSpecial b t)

/-- The check of a trie blob (09 R178): (reason, offset of the first field that failed), or none. -/
def trieCheck (b : List Byte) (len : Nat) : Option (Nat × Nat) :=
  match trieHeaderBad b len with
  | some o => some (1, o)
  | none =>
    if crcBlanked b 24 ≠ BitVec.ofNat 32 (rdLe b 24 4) then some (2, 24)
    else match stringsBad b with
      | some o => some (1, o)
      | none => match walkTree b (b.length / 16 + 1) [(rootOff b, [])] [] with
        | .inr o => some (1, o)
        | .inl nodes => match nodeTokensBad b nodes with
          | some o => some (1, o)
          | none => match byteTableBad b with
            | some o => some (1, o)
            | none => if !specialIdOk b 44 then some (1, 44) else if !specialIdOk b 48 then some (1, 48) else none

/-! ## Grammar blobs (09 R194, R195) -/

/-- Record of a grammar state: first entry index and entry count. -/
def gState (b : List Byte) (i : Nat) : Nat × Nat := let o := rdLe b 32 4 + 8 * i; (rdLe b o 4, rdLe b (o + 4) 2)

/-- Offset of a grammar entry. -/
def gEntry (b : List Byte) (i : Nat) : Nat := rdLe b 36 4 + 16 * i

/-- The token ranges of the entry at an offset, as offsets. -/
def gRanges (b : List Byte) (e : Nat) : List Nat := (upto (rdLe b (e + 4) 4)).map (fun i => rdLe b (e + 8) 4 + 16 * i)

/-- Header checks of a grammar blob in field order. -/
def grmHeaderBad (b : List Byte) (len : Nat) : Option Nat :=
  if rdLe b 0 4 ≠ 0x414D5247 then some 0
  else if rdLe b 4 2 ≠ 1 then some 4
  else if rdLe b 6 2 = 0 ∨ 4096 < rdLe b 6 2 then some 6
  else if rdLe b 8 4 = 0 ∨ 65536 < rdLe b 8 4 then some 8
  else if 16777216 < rdLe b 12 4 ∨ rdLe b 12 4 ≠ len ∨ b.length ≠ len then some 12
  else if rdLe b 8 4 ≤ rdLe b 28 4 then some 28
  else if rdLe b 32 4 % 8 ≠ 0 ∨ len < rdLe b 32 4 + 8 * rdLe b 8 4 then some 32
  else if rdLe b 36 4 % 8 ≠ 0 then some 36
  else if len < rdLe b 36 4 + 16 * rdLe b 40 4 then some 40
  else if rdLe b 44 2 = 0 ∨ 256 < rdLe b 44 2 then some 44
  else if !zeroAt b 46 18 then some 46
  else none

/-- A token range's fields lie in range (the range before it on the left of the list, if any). -/
def rangeOk (b : List Byte) (voc : Nat) (prev : Option Nat) (o : Nat) : Bool :=
  let sym := rdLe b 6 2
  let push := rdB b (o + 11)
  let symOk := fun v => decide (1 ≤ v) && decide (v < sym)
  decide (rdLe b o 4 ≤ rdLe b (o + 4) 4) && decide (rdLe b (o + 4) 4 < voc) && decide (rdLe b (o + 8) 2 < rdLe b 8 4) &&
  decide (rdB b (o + 10) ≤ 3) && decide (push ≤ 2) &&
  (if 1 ≤ push then symOk (rdLe b (o + 12) 2) else rdLe b (o + 12) 2 == 0) &&
  (if push = 2 then symOk (rdLe b (o + 14) 2) else rdLe b (o + 14) 2 == 0) &&
  (match prev with | some p => decide (rdLe b (p + 4) 4 < rdLe b o 4) | none => true)

/-- One grammar entry's fields lie in range. -/
def entryOk (b : List Byte) (voc e : Nat) : Bool :=
  let n := rdLe b (e + 4) 4
  let rs := gRanges b e
  let top := rdLe b e 2
  (decide (top < rdLe b 6 2) || top == 0xFFFF) && decide (rdB b (e + 2) < 2) && zeroAt b (e + 3) 1 && zeroAt b (e + 12) 4 &&
  decide (n ≤ 65536) && (decide (n ≠ 0) || rdB b (e + 2) == 1) && decide (rdLe b (e + 8) 4 % 8 = 0) &&
  decide (rdLe b (e + 8) 4 + 16 * n ≤ b.length) &&
  (upto n).all (fun i => rangeOk b voc (if i = 0 then none else rs[i - 1]?) (rs.getD i 0))

/-- A state record lies in range and its entries ascend by TOP. -/
def stateOk (b : List Byte) (i : Nat) : Bool :=
  let (f, n) := gState b i
  decide (1 ≤ n) && decide (n ≤ 4096) && decide (f + n ≤ rdLe b 40 4) && zeroAt b (rdLe b 32 4 + 8 * i + 6) 2 &&
  (upto (n - 1)).all (fun k => decide (rdLe b (gEntry b (f + k)) 2 < rdLe b (gEntry b (f + k + 1)) 2))

/-- The check of a grammar blob against the vocabulary it is bound to (09 R195): (reason, offset), or none. -/
def grmCheck (b : List Byte) (len : Nat) (voc : Option VocSlot) : Option (Nat × Nat) :=
  match grmHeaderBad b len with
  | some o => some (1, o)
  | none =>
    if crcBlanked b 24 ≠ BitVec.ofNat 32 (rdLe b 24 4) then some (2, 24)
    else match voc with
      | none => some (7, 16)
      | some v =>
        if v.tag ≠ rdLe b 16 8 then some (7, 16)
        else match (upto (rdLe b 8 4)).find? (fun i => !stateOk b i) with
          | some i => some (1, rdLe b 32 4 + 8 * i)
          | none => ((upto (rdLe b 40 4)).find? (fun i => !entryOk b v.size (gEntry b i))).map (fun i => (1, gEntry b i))

/-! ## The automaton (09 R196) -/

/-- A constrained sequence: its state and its stack, top first. -/
structure Automaton where
  st : Nat
  stack : List Nat
  deriving DecidableEq, Repr

/-- START_STATE with an empty stack. -/
def autoStart (b : List Byte) : Automaton := ⟨rdLe b 28 4, []⟩

/-- The entry for the current state and top symbol, else the state's 0xFFFF entry (09 R196). -/
def autoEntry (b : List Byte) (a : Automaton) : Option Nat :=
  let (f, n) := gState b a.st
  let es := (rangeFrom f n).map (gEntry b)
  match es.find? (fun e => rdLe b e 2 == a.stack.headD 0) with
  | some e => some e
  | none => es.find? (fun e => rdLe b e 2 == 0xFFFF)

/-- A token lies in the mask of an entry. -/
def allows (b : List Byte) (e t : Nat) : Bool :=
  (gRanges b e).any (fun o => decide (rdLe b o 4 ≤ t) && decide (t ≤ rdLe b (o + 4) 4))

/-- An ACCEPTING entry (09 R194). -/
def accepting (b : List Byte) (e : Nat) : Bool := rdB b (e + 2) == 1

/-- The action of the range that holds a chosen token (09 R196): none is GRAMMAR_FAULT. -/
def autoStep (b : List Byte) (a : Automaton) (t : Nat) : Option Automaton :=
  match autoEntry b a with
  | none => none
  | some e =>
    match (gRanges b e).find? (fun o => decide (rdLe b o 4 ≤ t) && decide (t ≤ rdLe b (o + 4) 4)) with
    | none => none
    | some o =>
      let pop := rdB b (o + 10)
      if a.stack.length < pop then none
      else
        let push := rdB b (o + 11)
        let st := a.stack.drop pop
        let st := if 1 ≤ push then rdLe b (o + 12) 2 :: st else st
        let st := if push = 2 then rdLe b (o + 14) 2 :: st else st
        if rdLe b 44 2 < st.length then none else some ⟨rdLe b (o + 8) 2, st⟩

/-! ## Tokenizing (09 R184) -/

/-- Length of the valid UTF-8 character at the front (RFC 3629), 0 when there is none. -/
def utf8Len : List Byte → Nat
  | [] => 0
  | b0 :: rest =>
    let c := fun i => (rest.getD i 0#8).toNat
    let cont := fun i => decide (i < rest.length) && decide (0x80 ≤ c i) && decide (c i ≤ 0xBF)
    let v := b0.toNat
    if v ≤ 0x7F then 1
    else if 0xC2 ≤ v ∧ v ≤ 0xDF then (if cont 0 then 2 else 0)
    else if 0xE0 ≤ v ∧ v ≤ 0xEF then
      (if cont 0 && cont 1 && (v != 0xE0 || decide (0xA0 ≤ c 0)) && (v != 0xED || decide (c 0 ≤ 0x9F)) then 3 else 0)
    else if 0xF0 ≤ v ∧ v ≤ 0xF4 then
      (if cont 0 && cont 1 && cont 2 && (v != 0xF0 || decide (0x90 ≤ c 0)) && (v != 0xF4 || decide (c 0 ≤ 0x8F)) then 4 else 0)
    else 0

/-- Length of V, the longest run of whole valid characters at the front (09 R184). -/
def validRun : Nat → List Byte → Nat
  | 0, _ => 0
  | k + 1, l => let n := utf8Len l; if n = 0 then 0 else n + validRun k (l.drop n)

/-- The deepest token along the trie within the given bytes, as (token, length), and the nodes visited. -/
def trieWalk (b : List Byte) : List Byte → Nat → Nat → Option (Nat × Nat) → Option (Nat × Nat) × List Nat
  | l, n, d, best =>
    let best := if nodeToken b n ≠ noToken ∧ 0 < d then some (nodeToken b n, d) else best
    match l with
    | [] => (best, [n])
    | x :: rest =>
      match look (children b n) x.toNat with
      | none => (best, [n])
      | some m => let (r, v) := trieWalk b rest m (d + 1) best; (r, n :: v)

/-- One emitted token: its ID, the offset of its first input byte, its length, and whether it is a byte token of R184. -/
structure Emitted where
  id : Nat
  at_ : Nat
  len : Nat
  byte : Bool
  bad : Bool
  deriving DecidableEq, Repr

/-- The tokens of an input (09 R184), and the trie nodes visited. -/
def tokenizeAll (b : List Byte) : Nat → List Byte → Nat → List Emitted × List Nat
  | 0, _, _ => ([], [])
  | _, [], _ => ([], [])
  | k + 1, x :: rest, p =>
    let v := validRun (x :: rest).length (x :: rest)
    let (best, seen) := if v = 0 then (none, []) else trieWalk b ((x :: rest).take v) (rootOff b) 0 none
    match best with
    | some (t, n) =>
      let (ts, ns) := tokenizeAll b k ((x :: rest).drop n) (p + n)
      (⟨t, p, n, false, false⟩ :: ts, seen ++ ns)
    | none =>
      let (ts, ns) := tokenizeAll b k rest (p + 1)
      (⟨byteToken b x, p, 1, true, decide (v = 0)⟩ :: ts, seen ++ ns)

/-- A vocabulary's blob as a token unit sees it: its hot nodes as they were preloaded, the rest from the slices (09 R186). -/
def vocBlob (s : State) (v : VocSlot) : List Byte :=
  let b := memRead s v.dest v.len
  b.take v.hotAt ++ v.hot ++ b.drop (v.hotAt + v.hot.length)

/-- Parts of a vocabulary's blob that are read from the slices: all but those of the node cache (09 R186). -/
def coldParts (v : VocSlot) (parts : List (Nat × Nat)) : List (Nat × Nat) :=
  parts.filter (fun p => !(decide (v.hotAt ≤ p.1) && decide (p.1 + p.2 ≤ v.hotAt + v.hot.length)))

/-- What reading parts of a blob for a tenant does at the homes and to the counts (06 R122, 08 R174). -/
def blobRead (s : State) (t dest : Nat) (parts : List (Nat × Nat)) : State :=
  parts.foldl (fun s p => engRead s t (dest + p.1) p.2) s

/-- Poison in the parts of a blob in memory that a request read. -/
def blobPoison (s : State) (dest : Nat) (parts : List (Nat × Nat)) : Option Origin :=
  parts.findSome? (fun p => memPoison s (dest + p.1) p.2)

/-- Parts of a trie that a walk reads: the nodes visited and the byte table. -/
def walkParts (b : List Byte) (nodes : List Nat) : List (Nat × Nat) :=
  (byteTab b, 1024) :: nodes.flatMap (fun n => [(n, 16), (rdLe b (n + 8) 4, 8 * rdLe b (n + 4) 2)])

/-- The vocabulary slot a request names (09 R183). -/
def vocOf (s : State) (r : Request) (n : Nat) : Option VocSlot :=
  match look s.voc n with
  | some v => if resolves s r (.vocab n) v.unloading (aKey (0x80140 + 4 * n)) then some v else none
  | none => none

/-- Parameters of a TOKENIZE, however it is issued. -/
structure TokParams where
  offsets : Bool
  bos : Bool
  eos : Bool
  strict : Bool
  trunc : Bool
  deriving DecidableEq, Repr

/-- What tokenizing gives: the output entries as (ID, offset or none), input bytes consumed, byte tokens, whether cut. -/
structure TokOut where
  entries : List (Nat × Option Nat)
  bytesIn : Nat
  fallback : Nat
  cut : Bool
  deriving DecidableEq, Repr

/-- Tokenizing of an input for a tenant into at most `cap` entries (09 R184, R188). -/
def tokenizeCore (s : State) (t : Nat) (v : VocSlot) (p : TokParams) (cap : Nat) (inp : List Byte) : Reading TokOut :=
  let b := vocBlob s v
  let bosId := rdLe b 44 4
  let eosId := rdLe b 48 4
  if (p.bos && bosId == noToken) || (p.eos && eosId == noToken) then (s, .fail .badField)
  else
    let (ts, seen) := tokenizeAll b inp.length inp 0
    let s := blobRead s t v.dest (coldParts v (walkParts b seen))
    match blobPoison s v.dest (coldParts v (walkParts b seen)) with
    | some o => (s, .fail (poisonStatus o))
    | none => (s,
      if p.strict && ts.any (·.bad) then .fail .badUtf8
      else
        let nb := if p.bos then 1 else 0
        let ne := if p.eos then 1 else 0
        let fits := decide (nb + ts.length + ne ≤ cap)
        if !fits && !p.trunc then .fail .resultShort
        else
          let room := cap - ne
          let kept := if fits then ts else ts.take (room - nb)
          let head := if p.bos then [(bosId, none)] else []
          let tail := if p.eos then [(eosId, none)] else []
          let all := head ++ kept.map (fun t => (t.id, some t.at_)) ++ tail
          .ok ⟨if fits then all else (head ++ kept.map (fun t => (t.id, some t.at_))).take room ++ tail.take cap,
            (kept.map (·.len)).sum, (kept.filter (·.byte)).length, !fits⟩)

/-- Bytes of TOKENIZE output entries: the offset of a BOS or EOS entry is stated nowhere, a free value (note 23). -/
def tokenBytes (offsets : Bool) (k : Nat) : List (Nat × Option Nat) → List Byte
  | [] => []
  | (t, o) :: rest =>
    leBytes 4 t ++ (if offsets then leBytes 4 (o.getD ((Config.freeValue k).toNat % 2 ^ 32)) else []) ++
    tokenBytes offsets (k + 1) rest

/-- TOKENIZE's own check of its body and extension (09 R187). -/
def tokenizeBad (r : Request) : Bool :=
  bodyB r 28 % 2 == 1 || decide (4 ≤ bodyB r 29) || !bodyZero r 30 2 || decide (2 ≤ bodyB r 44) || !bodyZero r 45 19 ||
  decide (1048576 < bodyLe r 24 4) || decide (bodyLe r 32 8 % 8 ≠ 0) ||
  decide (2 ≤ rdB (extOf r) 0) || !zeroAt (extOf r) 1 63

/-- Counts byte tokens on the facet of the token unit that ran (09 R184). -/
def countFallback (s : State) (f n : Nat) : State := bump s (fKey f 0x80800) 0 32 n

/-- A TOKENIZE on the token unit of facet f (09 R187, R188). -/
def tokenizeRun (f : Nat) (s : State) (r : Request) : Ended :=
  if tokenizeBad r then (s, .fail .badField)
  else
    let strictBit := rdB (extOf r) 0 % 2
    match vocOf s r (bodyB r 28 / 16) with
    | none => (s, .fail .notFound)
    | some v =>
      match engineFor s 3 f with
      | none => (s, .wait)
      | some (some st) => (s, .fail st)
      | some none =>
        Got.andThen (readAt s r (nbit (bodyB r 28) 3) (bodyLe r 16 8) (bodyLe r 24 4)) (fun s inp =>
          let offs := nbit (bodyB r 28) 1
          let p : TokParams := ⟨offs, nbit (bodyB r 29) 0, nbit (bodyB r 29) 1, extField r 1 strictBit 0 == 1, nbit (bodyB r 44) 0⟩
          Got.andThen (tokenizeCore s r.tenant v p (bodyLe r 40 4 / (if offs then 8 else 4)) inp) (fun s o =>
            let d := tokenBytes offs s.freeCount o.entries
            let s := { s with freeCount := s.freeCount + o.entries.length }
            match outCheck s r (nbit (bodyB r 28) 2) (bodyLe r 32 8) d.length with
            | some st => (s, .fail st)
            | none =>
              let s := countFallback (writeOut s r (nbit (bodyB r 28) 2) (bodyLe r 32 8) d) f o.fallback
              (s, .ok ([o.entries.length, o.bytesIn, o.fallback], if o.cut then .truncated else .ok))))

/-- TOKENIZE (09 R187). -/
def execTokenize (tag unit : Nat) (s : State) : Result := .next (runOp s tag 0x10 (tokenizeRun unit))

/-! ## Detokenizing (09 R189 to R193) -/

/-- The stop strings of a stop list (09 R189), or none when the list is malformed. -/
def stopList (l : List Byte) : Option (List (List Byte)) :=
  let n := rdB l 0
  let e := fun i => 16 + 68 * i
  if 16 < n ∨ !zeroAt l 1 15 then none
  else if (upto n).all (fun i => decide (1 ≤ rdB l (e i)) && decide (rdB l (e i) ≤ 64) && zeroAt l (e i + 1) 3 &&
      zeroAt l (e i + 4 + rdB l (e i)) (64 - rdB l (e i))) then
    some ((upto n).map (fun i => slice l (e i + 4) (rdB l (e i))))
  else none

/-- Among the stop strings that end the given bytes, the one that starts earliest, then of lowest index (09 R190). -/
def stopEnding (stops : List (List Byte)) (l : List Byte) : Option (Nat × Nat) :=
  let ends := (upto stops.length).filter (fun i => let x := stops.getD i []; decide (x.length ≤ l.length) && l.drop (l.length - x.length) == x)
  let longest := (ends.map (fun i => (stops.getD i []).length)).foldl max 0
  (ends.find? (fun i => (stops.getD i []).length == longest)).map (fun i => (i, longest))

/-- Length of the longest suffix that is a proper prefix of some stop string (09 R190). -/
def heldSuffix (stops : List (List Byte)) (l : List Byte) : Nat :=
  ((upto (min 64 (l.length + 1))).filter (fun n => stops.any (fun x => decide (n < x.length) && x.take n == l.drop (l.length - n)))).foldl max 0

/-- Where the first stop string completes: (index of the stop string, its length, bytes appended by then, token index). -/
def firstStop (stops : List (List Byte)) (held : List Byte) (bs : List (Byte × Nat)) : Nat → Option (Nat × Nat × Nat × Nat)
  | 0 => none
  | k + 1 =>
    let n := bs.length - k
    match stopEnding stops (held ++ (bs.take n).map (·.1)) with
    | some (i, len) => some (i, len, n, (bs.getD (n - 1) (0#8, 0)).2)
    | none => firstStop stops held bs k

/-- What a detokenizer emits and keeps. -/
structure DetokOut where
  emit : List Byte
  held : List Byte
  stop : Option (Nat × Nat)
  deriving DecidableEq, Repr

/-- Detokenizing of appended bytes (each with the index of its token) behind the held bytes (09 R190, R191). -/
def detokCore (stops : List (List Byte)) (held : List Byte) (bs : List (Byte × Nat)) (final holdOff : Bool) : DetokOut :=
  let all := held ++ bs.map (·.1)
  match firstStop stops held bs bs.length with
  | some (i, len, n, t) =>
    let stopAt := held.length + n - len
    let out := if holdOff && decide (1 < n) then max stopAt (held.length + n - 1) else stopAt
    ⟨all.take out, [], some (i, t)⟩
  | none =>
    if final || holdOff then ⟨all, [], none⟩
    else let h := heldSuffix stops all; ⟨all.take (all.length - h), all.drop (all.length - h), none⟩

/-- The bytes a list of tokens appends, each with its token's index: a SPECIAL token appends nothing unless shown. -/
def appended (b : List Byte) (showSpecial : Bool) (ts : List Nat) : List (Byte × Nat) :=
  ((upto ts.length).zip ts).flatMap (fun p =>
    if isSpecial b p.2 && !showSpecial then [] else (tokenString b p.2).map (fun x => (x, p.1)))

/-- DETOKENIZE's own check of its body and extension (09 R193). -/
def detokenizeBad (r : Request) : Bool :=
  decide (2 ≤ bodyB r 29) || !bodyZero r 30 2 || !bodyZero r 44 4 || decide (1048576 < bodyLe r 24 4) ||
  decide (bodyLe r 16 8 % 4 ≠ 0) || decide (bodyLe r 48 8 % 64 ≠ 0) || decide (bodyLe r 56 8 % 128 ≠ 0) ||
  decide (4 ≤ rdB (extOf r) 0) || !zeroAt (extOf r) 1 63

/-- The stop list of a request: none, or read from its location. -/
def readStops (s : State) (r : Request) (dev : Bool) (a : Nat) : Reading (List (List Byte)) :=
  if a = 0 then (s, .ok [])
  else Got.andThen (readAt s r dev a 16) (fun s h =>
    if 16 < rdB h 0 then (s, .fail .badField)
    else Got.andThen (readAt s r dev a (16 + 68 * rdB h 0)) (fun s l =>
      match stopList l with | some x => (s, .ok x) | none => (s, .fail .badField)))

/-- A state record (09 Table - Detokenizer state); a fresh one holds nothing. -/
def freshRecord : List Byte := [0#8, 0#8, 0xFF#8] ++ List.replicate 125 0#8

/-- The state record that a DETOKENIZE continues (09 R192). -/
def readRecord (s : State) (r : Request) (a : Nat) (reset : Bool) : Reading (List Byte) :=
  if a = 0 then (s, .ok freshRecord)
  else match checkAccess s r.tenant a 128 with
    | some st => (s, .fail st)
    | none => match locOf a with
      | .slice _ _ =>
        if reset then (s, .ok freshRecord)
        else Got.andThen (devRead s r.tenant a 128) (fun s l => (s, .ok (if rdB l 1 % 2 = 0 then freshRecord else l)))
      | _ => (s, .fail .badField)

/-- The record after a request; bytes of HELD past HELD_LEN are stated nowhere, free values (note 24). -/
def recordBytes (s : State) (old : List Byte) (tag count : Nat) (o : DetokOut) : List Byte :=
  let stopIdx := match o.stop with | some (i, _) => i | none => rdB old 2
  let flags := if o.stop.isSome || nbit (rdB old 1) 1 then 3 else 1
  leBytes 1 o.held.length ++ leBytes 1 flags ++ leBytes 1 stopIdx ++ leBytes 1 0 ++
  leBytes 4 (rdLe old 4 4 + count) ++ leBytes 8 (rdLe old 8 8 + o.emit.length) ++ leBytes 8 tag ++ List.replicate 40 0#8 ++
  o.held ++ (upto (63 - o.held.length)).map (fun i => (Config.freeValue (s.freeCount + i)).setWidth 8) ++ [0#8]

/-- A DETOKENIZE on the token unit of facet f (09 R193). -/
def detokenizeRun (f : Nat) (s : State) (r : Request) : Ended :=
  if detokenizeBad r then (s, .fail .badField)
  else
    let x := rdB (extOf r) 0
    let x := extField r 1 x 0
    match vocOf s r (bodyB r 28 / 16) with
    | none => (s, .fail .notFound)
    | some v =>
      match engineFor s 3 f with
      | none => (s, .wait)
      | some (some st) => (s, .fail st)
      | some none =>
        Got.andThen (readAt s r (nbit (bodyB r 28) 3) (bodyLe r 16 8) (4 * bodyLe r 24 4)) (fun s inp =>
        Got.andThen (readStops s r (nbit (bodyB r 29) 0) (bodyLe r 48 8)) (fun s stops =>
        Got.andThen (readRecord s r (bodyLe r 56 8) (nbit (bodyB r 28) 0)) (fun s rec =>
          let b := memRead s v.dest v.len
          let ts := (upto (bodyLe r 24 4)).map (fun i => rdLe inp (4 * i) 4)
          let stopped := nbit (rdB rec 1) 1
          if nbit (rdB rec 1) 0 && rdLe rec 16 8 != v.tag then (s, .fail .badField)
          else if ts.any (fun t => decide (v.size ≤ t)) then (s, .fail .tokenRange)
          else
            let parts := ts.flatMap (fun t => [(strEntry b t, 8),
              (strOff b + 8 * v.size + rdLe b (strEntry b t) 4, rdB b (strEntry b t + 4))])
            let s := blobRead s r.tenant v.dest parts
            match blobPoison s v.dest parts with
            | some o => (s, .fail (poisonStatus o))
            | none =>
              let final := nbit (bodyB r 28) 1 || decide (bodyLe r 56 8 = 0)
              let o := if stopped then ⟨[], [], none⟩
                else detokCore stops (slice rec 64 (rdB rec 0)) (appended b (nbit x 0) ts) final (nbit x 1)
              if bodyLe r 40 4 < o.emit.length then (s, .fail .resultShort)
              else match outCheck s r (nbit (bodyB r 28) 2) (bodyLe r 32 8) o.emit.length with
                | some st => (s, .fail st)
                | none =>
                  let s := writeOut s r (nbit (bodyB r 28) 2) (bodyLe r 32 8) o.emit
                  let s := if bodyLe r 56 8 = 0 then s
                    else { engWrite s r.tenant (bodyLe r 56 8) (recordBytes s rec v.tag ts.length o) with freeCount := s.freeCount + 63 }
                  let idx := match o.stop with | some (i, _) => i | none => if stopped then rdB rec 2 else 0xFF
                  let tok := match o.stop with | some (_, t) => t | none => 0xFFFFFFFF
                  (s, .ok ([o.emit.length, idx * 2 ^ 24 + o.held.length, tok], .ok)))))

/-- DETOKENIZE (09 R193). -/
def execDetokenize (tag unit : Nat) (s : State) : Result := .next (runOp s tag 0x11 (detokenizeRun unit))

end Sys2Proof.Machine
end

