-- ==== Sys2Proof/Machine/Slots.lean ====
section
/-! DEFINITION. Slots: names that requests resolved, and loading and unloading vocabularies, grammars, indexes and templates
(09 R179 to R181, R195; 12 R246; 14 R295, R296; 18 R396, R403). -/
namespace Sys2Proof.Machine

/-! ## Names of requests -/

/-- Key of the assignment word of a name. -/
def nameAssign : SlotName → Nat
  | .vocab n => aKey (0x80140 + 4 * n)
  | .grammar n => aKey (0x80500 + 4 * n)
  | .index n => aKey (0x50200 + 4 * n)
  | .template n => aKey (0x90200 + 4 * n)
  | .troy n _ => aKey (0xA0400 + 4 * n)

/-- Names in a descriptor of an opcode; `d` holds its 64 bytes, the body from byte 16. A troy name carries the slot's present
image. -/
def namesIn (s : State) (op : Nat) (d : List Byte) : List SlotName :=
  let troy := fun n => [SlotName.troy n (troyOf s n).gen]
  match op with
  | 0x10 => [.vocab (rdB d 28 / 16)]
  | 0x11 => [.vocab (rdB d 28 / 16)]
  | 0x14 => troy (rdLe d 44 4)
  | 0x15 => [.index (rdLe d 24 4)]
  | 0x17 => .index (rdLe d 52 4) :: (if rdLe d 56 4 = 0 then [] else troy (rdLe d 56 4))
  | 0x18 => [.index (rdLe d 44 4), .template (rdB d 60 % 64)]
  | 0x19 => troy (rdLe d 28 4)
  | 0x1A => if nbit (rdB d 62) 7 then [] else troy (rdLe d 44 4)
  | _ => []

/-- Opcode of a pipeline stage issued alone (01 Table - Pipeline stages). -/
def stageOp (n : Nat) : Nat :=
  match n with | 0 => 0x10 | 1 => 0x12 | 2 => 0x14 | 3 => 0x15 | 4 => 0x16 | 5 => 0x17 | 6 => 0x18 | _ => 0x19

/-- Stage records of a plan, with their extensions, as far as they can be told (01 R18); at most eight. -/
def planRecords : Nat → List Byte → List (List Byte × Option (List Byte))
  | 0, _ => []
  | n + 1, l =>
    if l.length < 64 then []
    else if nbit (rdB l 1) 0 then (l.take 64, some (slice l 64 64)) :: planRecords n (l.drop 128)
    else (l.take 64, none) :: planRecords n (l.drop 64)

/-- The plan of a PIPELINE, when it has been read. -/
def planOf (r : Request) : Option (List Byte) :=
  match r.pipe with
  | some p => some p.plan
  | none => match hostRead r (bodyLe r 32 8) (64 * bodyLe r 40 2) with | .ok b => some b | _ => none

/-- The names a request holds (18 R396). -/
def requestNames (s : State) (r : Request) : List SlotName :=
  if r.opcode = 0x20 then
    match planOf r with
    | some p => (planRecords 8 p).flatMap (fun x => namesIn s (stageOp (rdB x.1 0 % 8)) x.1)
    | none => []
  else namesIn s r.opcode (List.replicate 16 0#8 ++ r.body)

/-- Requests in flight keep the names they resolved before a change (09 R181, 15 R334, 18 R403). -/
def pinNames (s : State) (hit : SlotName → Bool) : State :=
  { s with requests := s.requests.map (fun p =>
      let ns := (requestNames s p.2).filter (fun x => hit x && !p.2.names.contains x && assignedTo (forceGet s (nameAssign x)) p.2.tenant)
      (p.1, { p.2 with names := p.2.names ++ ns })) }

/-- A sequence of a pool uses a vocabulary or grammar slot (14 R311). -/
def seqUses (q : Seq) (nm : SlotName) : Bool :=
  match nm with
  | .vocab n => rdB q.params 15 % 16 == n
  | .grammar n => nbit (rdB q.params 14) 7 && (rdB q.params 14 % 64 == n)
  | _ => false

/-- Some request, sequence or served fetch still uses a name. -/
def nameHeld (s : State) (nm : SlotName) : Bool :=
  s.requests.any (fun p => p.2.names.contains nm) || s.pools.any (fun p => p.2.seqs.any (fun q => seqUses q.2 nm)) ||
  (match nm with
   | .troy n g => s.strand.flows.any (fun p => p.2.use == .serve n g)
   | _ => false)

/-! ## Shared by the loader blocks (09 R180) -/

/-- Word of a loader's STATUS register: STATE, REASON. -/
def ldWord (st reason : Nat) : Word := BitVec.ofNat 32 (st * 2 ^ 28 + reason * 2 ^ 24)

/-- A load ends: STATUS at `base + 0x18`-like key `k`, WHERE at `k + 4`. -/
def ldEnd (s : State) (k reason loc : Nat) : State :=
  regSet (regSet s k (ldWord (if reason = 0 then 2 else 3) reason)) (k + 4) (BitVec.ofNat 32 loc)

/-- A load has succeeded, or nothing is left to do: DONE, or BUSY while an UNLOAD waits for its slot to empty (09 R181, note 157). -/
def ldDone (s : State) (k : Nat) (busy : Bool) : State := if busy then regSet (regSet s k (ldWord 1 0)) (k + 4) 0#32 else ldEnd s k 0 0

/-- An UNLOAD's slot is empty: BUSY ends unless other work remains; a refusal shown since stays (note 157). -/
def unldEnd (s : State) (k : Nat) (busy : Bool) : State := if busy || fld (regGet s k) 28 4 != 1 then s else ldEnd s k 0 0

/-- A load is refused with a REASON that the spec does not give (its blob's address did not translate): a free value. -/
def ldOpen (s : State) (k : Nat) : State := let (v, s) := draw s; regSet s k (ldWord 3 (v.toNat % 16))

/-- Loads and unloads are allowed in OPEN and SEALED (09 R180). -/
def loadState (s : State) : Bool := decide (s.hmk.state = .opened) || decide (s.hmk.state = .sealed)

/-- A destination on the slices, 4 KiB aligned, wholly inside one of the owner's slice regions. -/
def destOk (s : State) (a n : Nat) : Bool :=
  decide (a % 4096 = 0) && inRegion s 0 a (max n 1) && populated s a (max n 1) && (match locOf a with | .slice _ _ => true | _ => false)

/-! ## Vocabularies and grammars (09 R178 to R181, R195) -/

/-- STATUS of the token block. -/
def tokSt : Nat := aKey 0x80018

/-- KIND or SLOT of TOK_LD_CTRL names no slot (09 Table - TOK_LD_CTRL fields; note 157). -/
def tokNoSlot (kind slot : Nat) : Bool := decide (2 ≤ kind) || (kind == 0 && decide (16 ≤ slot))

/-- LOAD of the token block (09 R180): refused, or under way, its blob asked for under the owner's function. -/
def tokLoad (s : State) : State :=
  let w := regGet s (aKey 0x80014)
  let kind := fld w 4 2
  let slot := fld w 8 6
  let j : LoadJob := ⟨kind, slot, fld w 16 4, pair (regGet s) (aKey 0x8000C), pair (regGet s) (aKey 0x80000), (regGet s (aKey 0x80008)).toNat⟩
  let loaded := if kind = 0 then (look s.voc slot).isSome else (look s.grm slot).isSome
  if s.tokLd.isSome then s
  else if tokNoSlot kind slot then ldEnd s tokSt 1 0
  else if loaded then ldEnd s tokSt 3 0
  else if !destOk s j.dest j.len then ldEnd s tokSt 4 0
  else if !loadState s then ldEnd s tokSt 5 0
  else if j.host % 64 ≠ 0 then ldEnd s tokSt 1 0
  else askOwner (regSet { s with tokLd := some j } tokSt (ldWord 1 0)) j.host j.len

/-- Stores the RW fields of a loader's CTRL. -/
def ctrlStore (s : State) (k mask : Nat) (w : Word) : State := regSet s k (w &&& BitVec.ofNat 32 mask)

/-- TOK_LD_LOAD (09 R180): the word written to TOK_LD_CTRL with LOAD set. -/
def execTokLdLoad (w : Word) (s : State) : Result :=
  .next (if alive s then tokLoad (ctrlStore s (aKey 0x80014) 0xF3F30 w) else s)

/-- The copied blob as the destination holds it, or the check's failure (09 R178, R195). -/
def tokCheck (s : State) (j : LoadJob) (b : List Byte) : Option (Nat × Nat) :=
  if j.kind = 0 then trieCheck b j.len else grmCheck b j.len (look s.voc j.bind)

/-- The slot of a load that passed its checks; every token unit preloads a vocabulary's hot nodes (09 R186). -/
def tokPlace (s : State) (j : LoadJob) (b : List Byte) : State :=
  if j.kind = 0 then
    let s := { s with voc := place s.voc j.slot ⟨j.dest, j.len, vocSize b, rdLe b 16 8, false, rootOff b, slice b (rootOff b) (rdLe b 32 4)⟩ }
    regSet (regSet (regSet s (aKey (0x80100 + 4 * j.slot)) (BitVec.ofNat 32 (2 ^ 31 + vocSize b)))
      (aKey (0x80200 + 8 * j.slot)) (BitVec.ofNat 32 (rdLe b 16 4))) (aKey (0x80204 + 8 * j.slot)) (BitVec.ofNat 32 (rdLe b 20 4))
  else
    let s := { s with grm := place s.grm j.slot ⟨j.dest, j.len, j.bind, rdLe b 8 4, false⟩ }
    regSet s (aKey (0x80400 + 4 * j.slot)) (BitVec.ofNat 32 (2 ^ 31 + j.bind * 2 ^ 16 + (rdLe b 8 4 - 1) % 2 ^ 16))

/-- The blob has been copied and checked (09 R178, R195): poisoned data refuses the load. -/
def tokDone (s : State) (blob : List Byte) (st : ReadStatus) : State :=
  match s.tokLd with
  | none => s
  | some j =>
    let s := backOwner { s with tokLd := none } j.host j.len
    match heard s (ownerFn s) st with
    | .poisoned => ldEnd (hostPoison s (ownerFn s) blob.length) tokSt 8 0
    | .xlate => ldOpen s tokSt
    | .good =>
      if !destOk s j.dest j.len ∨ !rangeLive s j.dest (max j.len 1) then ldEnd s tokSt 4 0
      else
        let b := blob.take j.len
        let s := engWrite s 0 j.dest b
        if (memPoison s j.dest j.len).isSome then ldEnd s tokSt 8 0
        else match tokCheck s j b with
        | some (reason, off) => ldEnd s tokSt reason off
        | none => ldDone (tokPlace s j b) tokSt (!s.tokUnld.isEmpty)

/-- TOK_LOAD_DONE (09 R178). -/
def execTokLoadDone (blob : List Byte) (st : ReadStatus) (s : State) : Result := .next (if alive s then tokDone s blob st else s)

/-- The name of a token slot. -/
def tokName (kind slot : Nat) : SlotName := if kind = 0 then .vocab slot else .grammar slot

/-- A token slot that an UNLOAD waits for becomes empty once nothing uses it (09 R181). -/
def tokEmptyOne (s : State) (x : Nat × Nat) : State :=
  if nameHeld s (tokName x.1 x.2) then s
  else
    let s := { s with tokUnld := s.tokUnld.filter (fun y => y != x) }
    let s := if x.1 = 0 then
        regSet (regSet (regSet { s with voc := remove s.voc x.2 } (aKey (0x80100 + 4 * x.2)) 0#32) (aKey (0x80200 + 8 * x.2)) 0#32)
          (aKey (0x80204 + 8 * x.2)) 0#32
      else regSet { s with grm := remove s.grm x.2 } (aKey (0x80400 + 4 * x.2)) 0#32
    unldEnd s tokSt (s.tokLd.isSome || !s.tokUnld.isEmpty)

/-- Every token slot that an UNLOAD waits for. -/
def tokEmpty (s : State) : State := s.tokUnld.foldl tokEmptyOne s

/-- UNLOAD of the token block (09 R181): ignored while a load is in progress, refused while a grammar is bound; accepted at once
otherwise. -/
def tokUnload (s : State) : State :=
  let w := regGet s (aKey 0x80014)
  let kind := fld w 4 2
  let slot := fld w 8 6
  if s.tokLd.isSome then s
  else if tokNoSlot kind slot then ldEnd s tokSt 1 0
  else if kind = 0 ∧ s.grm.any (fun g => g.2.bind == slot) ∧ (look s.voc slot).isSome then ldEnd s tokSt 6 0
  else
    let s := pinNames s (fun x => x == tokName kind slot)
    let s := if kind = 0 then
        match look s.voc slot with | some v => { s with voc := place s.voc slot { v with unloading := true } } | none => s
      else match look s.grm slot with | some g => { s with grm := place s.grm slot { g with unloading := true } } | none => s
    tokEmpty (regSet { s with tokUnld := s.tokUnld.filter (fun y => y != (kind, slot)) ++ [(kind, slot)] } tokSt (ldWord 1 0))

/-- TOK_LD_UNLOAD (09 R181). -/
def execTokLdUnload (w : Word) (s : State) : Result :=
  .next (if alive s then tokUnload (ctrlStore s (aKey 0x80014) 0xF3F30 w) else s)

/-! ## Indexes (12 R246 to R250) -/

/-- STATUS of the search block. -/
def srchSt : Nat := aKey 0x50010

/-- LOAD of the search block (12 R246). -/
def srchLoad (s : State) : State :=
  let slot := regFld s (aKey 0x5000C) 8 6
  let j : LoadJob := ⟨0, slot, 0, 0, pair (regGet s) (aKey 0x50000), (regGet s (aKey 0x50008)).toNat⟩
  if s.srchLd.isSome then s
  else if (look s.idx slot).isSome then ldEnd s srchSt 3 0
  else if !loadState s then ldEnd s srchSt 5 0
  else if j.host % 64 ≠ 0 then ldEnd s srchSt 1 0
  else askOwner (regSet { s with srchLd := some j } srchSt (ldWord 1 0)) j.host j.len

/-- SRCH_LD_LOAD (12 R246). -/
def execSrchLdLoad (w : Word) (s : State) : Result :=
  .next (if alive s then srchLoad (ctrlStore s (aKey 0x5000C) 0x3F00 w) else s)

/-- The list directory that a blob names, which its check reads, lies where it can be read (12 R250). -/
def dirReadable (s : State) (b : List Byte) (len : Nat) : Bool :=
  (ixHeaderBad b len).isNone && (ixRangeBad s b).isNone && rangeLive s (ixDir b) (16 * ixNlist b)

/-- The index blob has been read and checked (12 R250). A directory in a coherence transaction is waited for (05 R101). -/
def srchDone (s : State) (blob : List Byte) (st : ReadStatus) : State :=
  match s.srchLd with
  | none => s
  | some j =>
    if st = .good ∧ dirReadable s (blob.take j.len) j.len ∧ cohBusy s (ixDir blob) (16 * ixNlist blob) then s
    else
    let s := backOwner { s with srchLd := none } j.host j.len
    match heard s (ownerFn s) st with
    | .poisoned => ldEnd (hostPoison s (ownerFn s) blob.length) srchSt 7 0
    | .xlate => ldOpen s srchSt
    | .good =>
      let b := blob.take j.len
      let s := if dirReadable s b j.len then engRead s 0 (ixDir b) (16 * ixNlist b) else s
      match indexCheck s b j.len with
      | some (reason, off) => ldEnd s srchSt reason off
      | none =>
        let s := { s with idx := place s.idx j.slot ⟨b, false⟩ }
        ldDone (regSet s (aKey (0x50100 + 4 * j.slot)) (BitVec.ofNat 32 (2 ^ 31 + (ixNlist b - 1) % 2 ^ 20))) srchSt (!s.srchUnld.isEmpty)

/-- SRCH_LOAD_DONE (12 R250). -/
def execSrchLoadDone (blob : List Byte) (st : ReadStatus) (s : State) : Result := .next (if alive s then srchDone s blob st else s)

/-- An index slot that an UNLOAD waits for becomes empty once nothing uses it (12 R246). -/
def srchEmptyOne (s : State) (slot : Nat) : State :=
  if nameHeld s (.index slot) then s
  else
    let s := regSet { s with srchUnld := s.srchUnld.filter (fun y => y != slot), idx := remove s.idx slot } (aKey (0x50100 + 4 * slot)) 0#32
    unldEnd s srchSt (s.srchLd.isSome || !s.srchUnld.isEmpty)

/-- Every index slot that an UNLOAD waits for. -/
def srchEmpty (s : State) : State := s.srchUnld.foldl srchEmptyOne s

/-- UNLOAD of the search block (12 R246). -/
def srchUnload (s : State) : State :=
  let slot := regFld s (aKey 0x5000C) 8 6
  if s.srchLd.isSome then s
  else
    let s := pinNames s (fun x => x == .index slot)
    let s := match look s.idx slot with
      | some x => regSetFld { s with idx := place s.idx slot { x with unloading := true } } (aKey (0x50100 + 4 * slot)) 30 1 1
      | none => s
    srchEmpty (regSet { s with srchUnld := s.srchUnld.filter (fun y => y != slot) ++ [slot] } srchSt (ldWord 1 0))

/-- SRCH_LD_UNLOAD (12 R246). -/
def execSrchLdUnload (w : Word) (s : State) : Result :=
  .next (if alive s then srchUnload (ctrlStore s (aKey 0x5000C) 0x3F00 w) else s)

/-! ## Templates (14 R294 to R296) -/

/-- A template segment: KIND, A_START, A_COUNT, B_COUNT, B_START. -/
structure TplSeg where
  kind : Nat
  aStart : Nat
  aCount : Nat
  bCount : Nat
  bStart : Nat
  deriving DecidableEq, Repr

/-- Segment i of a template. -/
def tplSeg (b : List Byte) (i : Nat) : TplSeg :=
  let o := rdLe b 24 4 + 16 * i
  ⟨rdB b o, rdLe b (o + 4) 4, rdLe b (o + 8) 2, rdLe b (o + 10) 2, rdLe b (o + 12) 4⟩

/-- Segments of a template. -/
def tplSegs (b : List Byte) : List TplSeg := (upto (rdLe b 6 2)).map (tplSeg b)

/-- Offset of the first field of segment i that is out of its range, a pool range that ends outside the pool being told by its count (14
R294, R295). -/
def tplSegBad (b : List Byte) (i : Nat) : Option Nat :=
  let g := tplSeg b i
  let o := rdLe b 24 4 + 16 * i
  let n := rdLe b 32 4
  if 2 < g.kind then some o
  else if !zeroAt b (o + 1) 3 then some (o + 1)
  else if n < g.aStart ∨ (g.kind = 1 ∧ g.aStart ≠ 0) then some (o + 4)
  else if n < g.aStart + g.aCount ∨ (g.kind = 0 ∧ g.aCount = 0) ∨ (g.kind = 1 ∧ g.aCount ≠ 0) then some (o + 8)
  else if n < g.bCount ∨ (g.kind ≠ 2 ∧ g.bCount ≠ 0) then some (o + 10)
  else if n < g.bStart + g.bCount ∨ (g.kind ≠ 2 ∧ g.bStart ≠ 0) then some (o + 12)
  else none

/-- The KIND that breaks the count of PASSAGES and QUERY segments (14 R295): the second of its kind, or, where none is PASSAGES, the first
segment's. -/
def tplKindBad (b : List Byte) : Option Nat :=
  let ks := (tplSegs b).map (·.kind)
  let n := ks.length
  match (upto n).find? (fun i => let k := ks.getD i 0; decide (k ≠ 0) && (ks.take i).contains k) with
  | some i => some (rdLe b 24 4 + 16 * i)
  | none => if ks.contains 2 then none else some (rdLe b 24 4)

/-- The check of a template blob (14 R295): (reason, offset of the first field that failed), or none. -/
def tplCheck (b : List Byte) (len : Nat) : Option (Nat × Nat) :=
  let seg := rdLe b 6 2
  let pool := rdLe b 32 4
  if rdLe b 0 4 ≠ 0x4C504D54 then some (1, 0)
  else if rdLe b 4 2 ≠ 1 then some (1, 4)
  else if seg = 0 ∨ 256 < seg then some (1, 6)
  else if 1048576 < rdLe b 8 4 ∨ rdLe b 8 4 ≠ len ∨ b.length ≠ len then some (1, 8)
  else if rdLe b 24 4 % 8 ≠ 0 ∨ len < rdLe b 24 4 + 16 * seg then some (1, 24)
  else if rdLe b 28 4 % 8 ≠ 0 then some (1, 28)
  else if 65536 < pool ∨ len < rdLe b 28 4 + 4 * pool then some (1, 32)
  else if !zeroAt b 36 28 then some (1, 36)
  else if crcBlanked b 12 ≠ BitVec.ofNat 32 (rdLe b 12 4) then some (2, 12)
  else match (upto seg).findSome? (tplSegBad b) with
    | some o => some (1, o)
    | none => (tplKindBad b).map (fun o => (1, o))

/-- STATUS of the clasp block. -/
def clpSt : Nat := aKey 0x90018

/-- LOAD of the clasp block with the blob as it arrived (14 R295, R296): the checks follow at once. -/
def clpLoad (s : State) (blob : List Byte) (st : ReadStatus) : State :=
  let slot := regFld s (aKey 0x90014) 8 6
  let dest := pair (regGet s) (aKey 0x9000C)
  let len := (regGet s (aKey 0x90008)).toNat
  if (look s.tpl slot).isSome then ldEnd s clpSt 3 0
  else if !destOk s dest len then ldEnd s clpSt 4 0
  else if !loadState s then ldEnd s clpSt 5 0
  else if pair (regGet s) (aKey 0x90000) % 64 ≠ 0 then ldEnd s clpSt 1 0
  else
    let s := backOwner (askOwner s (pair (regGet s) (aKey 0x90000)) len) (pair (regGet s) (aKey 0x90000)) len
    match heard s (ownerFn s) st with
    | .poisoned => ldEnd (hostPoison s (ownerFn s) blob.length) clpSt 8 0
    | .xlate => ldOpen s clpSt
    | .good =>
      if !rangeLive s dest (max len 1) then ldEnd s clpSt 4 0
      else
        let b := blob.take len
        let s := engWrite s 0 dest b
        if (memPoison s dest len).isSome then ldEnd s clpSt 8 0
        else match tplCheck b len with
        | some (reason, off) => ldEnd s clpSt reason off
        | none =>
          let s := { s with tpl := place s.tpl slot ⟨dest, len, false⟩ }
          ldDone (regSet s (aKey (0x90100 + 4 * slot)) (BitVec.ofNat 32 (2 ^ 31 + rdLe b 32 4 % 2 ^ 17))) clpSt (!s.tplUnld.isEmpty)

/-- CLP_LD_LOAD (14 R296). -/
def execClpLdLoad (w : Word) (blob : List Byte) (st : ReadStatus) (s : State) : Result :=
  .next (if alive s then clpLoad (ctrlStore s (aKey 0x90014) 0x3F00 w) blob st else s)

/-- A template slot that an UNLOAD waits for becomes empty once nothing uses it (14 R296). -/
def clpEmptyOne (s : State) (slot : Nat) : State :=
  if nameHeld s (.template slot) then s
  else
    let s := regSet { s with tplUnld := s.tplUnld.filter (fun y => y != slot), tpl := remove s.tpl slot } (aKey (0x90100 + 4 * slot)) 0#32
    unldEnd s clpSt (!s.tplUnld.isEmpty)

/-- Every template slot that an UNLOAD waits for. -/
def clpEmpty (s : State) : State := s.tplUnld.foldl clpEmptyOne s

/-- UNLOAD of the clasp block (14 R296). -/
def clpUnload (s : State) : State :=
  let slot := regFld s (aKey 0x90014) 8 6
  let s := pinNames s (fun x => x == .template slot)
  let s := match look s.tpl slot with
    | some x => { s with tpl := place s.tpl slot { x with unloading := true } }
    | none => s
  clpEmpty (regSet { s with tplUnld := s.tplUnld.filter (fun y => y != slot) ++ [slot] } clpSt (ldWord 1 0))

/-- CLP_LD_UNLOAD (14 R296). -/
def execClpLdUnload (w : Word) (s : State) : Result :=
  .next (if alive s then clpUnload (ctrlStore s (aKey 0x90014) 0x3F00 w) else s)

/-! ## Emptying every table -/

/-- A package reset or a relock empties every slot table (09 R179, 12 R246, 14 R296, 15 R320). -/
def emptyTables (s : State) : State :=
  let inTable : Nat → Bool := fun k =>
    let o := k - facetBase 0
    decide (facetBase 0 ≤ k) && (
      (decide (0x80100 ≤ o) && decide (o < 0x80140)) || (decide (0x80200 ≤ o) && decide (o < 0x80280)) ||
      (decide (0x80400 ≤ o) && decide (o < 0x80500)) || (decide (0x50100 ≤ o) && decide (o < 0x50200)) ||
      (decide (0x90100 ≤ o) && decide (o < 0x90200)) ||
      decide (o = 0x80018) || decide (o = 0x8001C) || decide (o = 0x50010) || decide (o = 0x50014) || decide (o = 0x90018) || decide (o = 0x9001C))
  { s with voc := [], grm := [], idx := [], tpl := [], troy := [], tokLd := none, tokUnld := [], srchLd := none, srchUnld := [],
           tplUnld := [], regs := s.regs.filter (fun p => !inTable p.1) }

/-- CLOCK_RELOCK (03 R67): the package PLL relocks. -/
def execClockRelock (gapUs : Nat) (s : State) : Result :=
  .next (if alive s && !s.clk.locked then relock (emptyTables s) gapUs else s)

end Sys2Proof.Machine
end

