-- ==== Sys2Proof/Machine/Pack.lean ====
section
/-! DEFINITION. Pack: packing a prompt from a template, query tokens and passages (14 R294 to R302), and partition groups (14 R292). -/
namespace Sys2Proof.Machine

/-! ## Groups (R292) -/

/-- A written half of a group: bits of partitions that the tenant does not hold are not taken. -/
def groupWrite (s : State) (t g : Nat) (high : Bool) (w : Word) : State :=
  let held := BitVec.ofNat 32 (if high then partsOf s t / 2 ^ 32 else partsOf s t)
  regSet s (0x48000 + 128 * t + 8 * g + (if high then 4 else 0)) (w &&& held)

/-- TEN_GROUP_WRITE (R292). -/
def execTenGroupWrite (tenant group : Nat) (high : Bool) (w : Word) (s : State) : Result :=
  .next (if alive s && decide (tenant ≤ 64) && decide (group < 16) then groupWrite s tenant group high w else s)

/-! ## Templates in use -/

/-- The template slot a request names (R296). -/
def templateOf (s : State) (r : Request) (n : Nat) : Option TplSlot :=
  match look s.tpl n with
  | some x => if resolves s r (.template n) x.unloading (aKey (0x90200 + 4 * n)) then some x else none
  | none => none

/-- Tokens of the pool of a template. -/
def poolTokens (b : List Byte) (start n : Nat) : List Nat := (upto n).map (fun i => rdLe b (rdLe b 28 4 + 4 * (start + i)) 4)

/-- The clasp unit that serves from a facet on: the next live one, wrapping (R300). -/
def claspUnit (s : State) (f : Nat) : Option Nat :=
  ((rangeFrom f 8).map (· % 8)).find? (fun g => engineLive s g 4 && fabricLive s g)

/-- The lowest facet that holds a partition of a tenant; facet 0 when it holds none (R300, note 26). -/
def lowFacet (s : State) (t : Nat) : Nat := ((upto 8).find? (fun f => decide (partsOf s t / 2 ^ (8 * f) % 256 ≠ 0))).getD 0

/-! ## PACK (R297 to R302) -/

/-- PACK's check of its own body; inside a pipeline its link fields do not act (01 R19). -/
def packBad (r : Request) (linked : Bool) : Bool :=
  decide (bodyLe r 26 2 = 0) || decide (4096 < bodyLe r 26 2) || decide (bodyLe r 28 4 = 0) || decide (131072 < bodyLe r 28 4) ||
  decide (bodyB r 60 / 64 = 3) || decide (bodyB r 61 % 8 ≠ 0) || decide (bodyLe r 62 2 = 0) || !zeroAt (extOf r) 0 64 ||
  (!linked && (decide (4096 < bodyLe r 24 2) || decide (8192 < bodyLe r 40 4) || decide (bodyLe r 48 8 % 64 ≠ 0)))

/-- Space that a PACK needs (R301). -/
def packNeed (r : Request) : Nat :=
  let b := 4 * bodyLe r 28 4
  if nbit (bodyB r 61) 3 then roundUp b 64 + 16 * bodyLe r 26 2 else b

/-- A passage placed: its ID, its tokens, and whether it was cut. -/
structure Placed where
  id : Nat
  toks : List Nat
  cut : Bool
  deriving DecidableEq, Repr

/-- The choice of passages so far (R297). -/
structure PackAcc where
  room : Nat
  placed : List Placed
  dropped : Nat
  trimmed : Nat
  deriving DecidableEq, Repr

/-- The candidates in rank order (R297): `extra` is O, the prefix and suffix tokens of a passage. -/
def packChoose (tag t : Nat) (b : List Byte) (extra maxP policy minTok : Nat) : State → PackAcc → List Entry → Reading PackAcc
  | s, acc, [] => (s, .ok acc)
  | s, acc, c :: cs =>
    if maxP ≤ acc.placed.length then (s, .ok acc)
    else if ixPassages b ≤ c.id then (s, .fail .indexRange)
    else Got.andThen (recordHead s tag t b c.id) (fun s h =>
      if extra + h.2 ≤ acc.room then
        Got.andThen (s, recordTokens s tag h.1 h.2) (fun s ts =>
          packChoose tag t b extra maxP policy minTok s
            { acc with room := acc.room - (extra + h.2), placed := acc.placed ++ [⟨c.id, ts, false⟩] } cs)
      else if policy = 0 then
        if extra + minTok ≤ acc.room then
          Got.andThen (s, recordTokens s tag h.1 (acc.room - extra)) (fun s ts =>
            (s, .ok { acc with room := 0, placed := acc.placed ++ [⟨c.id, ts, true⟩], trimmed := h.2 - (acc.room - extra) }))
        else (s, .ok acc)
      else if policy = 1 then packChoose tag t b extra maxP policy minTok s { acc with dropped := acc.dropped + 1 } cs
      else (s, .fail .budgetExceeded))

/-- The prompt and the passage map entries (R298, R302): the map gives each placed passage's first token in the prompt. -/
def packBuild (tpl : List Byte) (query : List Nat) (ps : List Placed) : List Nat × List (List Byte) :=
  (tplSegs tpl).foldl (fun (acc : List Nat × List (List Byte)) g =>
    match g.kind with
    | 0 => (acc.1 ++ poolTokens tpl g.aStart g.aCount, acc.2)
    | 1 => (acc.1 ++ query, acc.2)
    | _ => ps.foldl (fun (a : List Nat × List (List Byte)) p =>
        let pre := a.1 ++ poolTokens tpl g.aStart g.aCount
        let e := leBytes 8 p.id ++ leBytes 4 pre.length ++ leBytes 4 (p.toks.length + (if p.cut then 2 ^ 31 else 0))
        (pre ++ p.toks ++ poolTokens tpl g.bStart g.bCount, a.2 ++ [e])) acc) ([], [])

/-- What a PACK gives: the prompt, the map, its words and status. -/
structure Packed where
  toks : List Nat
  map : List (List Byte)
  words : List Nat
  st : Status
  deriving DecidableEq, Repr

/-- Names, tags and clasp unit of a PACK (R296, R299, R300; 12 R245): template, index blob and unit. -/
def packNames (s : State) (r : Request) (facet : Nat) (vtag : Option Nat) : Except Status (TplSlot × List Byte × Nat) :=
  match templateOf s r (bodyB r 60 % 64), indexOf s r (bodyLe r 44 4) with
  | some tp, some ix =>
    match claspUnit s facet with
    | none => .error .noEngine
    | some u =>
      let tag := rdLe (memRead s tp.dest tp.len) 16 8
      if tag ≠ rdLe ix.blob 96 8 ∨ (vtag.isSome ∧ vtag ≠ some tag) then .error .badField else .ok (tp, ix.blob, u)
  | _, _ => .error .notFound

/-- The work of a PACK on its candidates and query tokens (R297 to R299). -/
def packWork (s : State) (tag : Nat) (r : Request) (tp : TplSlot) (b : List Byte) (cands : List Entry) (query : List Nat) : Reading Packed :=
  Got.andThen (handleRead s r.tenant tp.dest tp.len) (fun s t =>
    let segs := tplSegs t
    let lit := ((segs.filter (fun g => g.kind == 0)).map (·.aCount)).sum
    let extra := ((segs.filter (fun g => g.kind == 2)).map (fun g => g.aCount + g.bCount)).sum
    if bodyLe r 28 4 < lit + query.length then (s, .fail .budgetExceeded)
    else Got.andThen (packChoose tag r.tenant b extra (bodyLe r 26 2) (bodyB r 60 / 64) (bodyLe r 62 2) s
        ⟨bodyLe r 28 4 - (lit + query.length), [], 0, 0⟩ cands) (fun s acc =>
      let x := packBuild t query (if nbit (bodyB r 61) 4 then acc.placed.reverse else acc.placed)
      let st : Status := if acc.placed.any (·.cut) then .truncated else if acc.dropped = 0 then .ok else .packDropped
      (s, .ok ⟨x.1, x.2, [x.1.length, acc.placed.length, acc.dropped, acc.trimmed], st⟩)))

/-- Output pieces of a PACK: the tokens, and with MAP 1 the map from the next 64-byte boundary (R302). -/
def packPieces (r : Request) (p : Packed) : List (Nat × List Byte) :=
  (0, p.toks.flatMap (leBytes 4)) :: (if nbit (bodyB r 61) 3 then [(roundUp (4 * p.toks.length) 64, p.map.flatten)] else [])

/-- Counts a PACK that ran, or failed, on a clasp unit; one that waits has not ended. -/
def packCount {α : Type} (u : Nat) (x : Reading α) : Reading α :=
  match x.2 with | .wait => x | _ => (bump x.1 (fKey u 0x90800) 0 32 1, x.2)

/-- The pack stage of a pipeline (R300, R301). -/
def packStage (s : State) (tag : Nat) (r : Request) (cands : List Entry) (query : List Nat) (vtag : Option Nat) (facet : Nat) : Reading Packed :=
  if packBad r true ∨ 8192 < query.length then (s, .fail .badField)
  else match packNames s r facet vtag with
    | .error st => (s, .fail st)
    | .ok (tp, b, u) => packCount u (packWork s tag r tp b cands query)

/-- PACK issued alone (R301). -/
def packRun (tag : Nat) (s : State) (r : Request) : Ended :=
  if packBad r false then (s, .fail .badField)
  else if bodyLe r 56 4 < packNeed r then (s, .fail .resultShort)
  else match packNames s r (lowFacet s r.tenant) none with
    | .error st => (s, .fail st)
    | .ok (tp, b, u) =>
      match outCheck s r (nbit (bodyB r 61) 5) (bodyLe r 48 8) (packNeed r) with
      | some st => (s, .fail st)
      | none =>
        packCount u (Got.andThen (readAt s r (nbit (bodyB r 61) 7) (bodyLe r 16 8) (16 * bodyLe r 24 2)) (fun s cb =>
          Got.andThen (readAt s r (nbit (bodyB r 61) 6) (bodyLe r 32 8) (4 * bodyLe r 40 4)) (fun s qb =>
            match entriesFrom cb (bodyLe r 24 2) with
            | none => (s, .fail .badField)
            | some cands => Got.andThen (packWork s tag r tp b cands (idsOf qb)) (fun s p =>
                ((packPieces r p).foldl (fun s x => writeOut s r (nbit (bodyB r 61) 5) (bodyLe r 48 8 + x.1) x.2) s,
                  .ok (p.words, p.st))))))

/-- PACK (R301). -/
def execPackPrompt (tag : Nat) (s : State) : Result := .next (runOp s tag 0x18 (packRun tag))

end Sys2Proof.Machine
end

