-- ==== Sys2Proof/Machine/Sample.lean ====
section
/-! DEFINITION. Sample: choosing a token from logits (14 R314). Every step is FP32 arithmetic, each operation rounded once (note 42). -/
namespace Sys2Proof.Machine

/-- Bits of the fixed-point numbers that exp is computed in. -/
def expBits : Nat := 400

/-- Sum of the series of e^-r for r below 1/2, in fixed point: `sign` alternates, `term` is r^n / n!. -/
def expSeries : Nat → Nat → Nat → Bool → Int → Int → Int
  | 0, _, _, _, _, acc => acc
  | k + 1, n, r, neg, term, acc =>
    expSeries k (n + 1) r (!neg) (term * r / (2 ^ expBits : Nat) / (n + 1 : Nat)) (acc + (if neg then -term else term))

/-- A fixed-point number squared n times. -/
def squareN : Nat → Nat → Nat
  | 0, v => v
  | n + 1, v => squareN n (v * v / 2 ^ expBits)

/-- e^x in FP32 for x at most 0, correctly rounded: 400 fixed-point bits leave an error far below half an ulp. -/
def exp32 (x : Num) : Num :=
  match x with
  | .nan => .nan
  | .inf neg => if neg then .fin false 0 0 else .inf false
  | .fin _ m e =>
    if m = 0 then (Num.fin false 1 0).round32
    else if (Num.fin false 110 0).lt (.fin false m e) then .fin false 0 0
    else
      let y := if 0 ≤ e + expBits then m * 2 ^ (e + expBits).toNat else m / 2 ^ (-(e + expBits)).toNat
      let r := expSeries 120 0 (y / 256) false (2 ^ expBits : Nat) 0
      (Num.fin false (squareN 8 r.toNat) (-(expBits : Int))).round32

/-- FP32 division, rounded once: the quotient of finite values carries 64 more bits than FP32 and a sticky bit; an infinity over a finite
value is an infinity, and a finite value over an infinity is 0. -/
def div32 (a b : Num) : Num :=
  match a, b with
  | .fin x m e, .fin y n g =>
    if n = 0 then .nan
    else
      let big := m * 2 ^ (90 + Nat.log2 n)
      (Num.fin (x != y) (2 * (big / n) + (if big % n = 0 then 0 else 1)) (e - g - 91 - Nat.log2 n)).round32
  | .inf x, .fin y _ _ => .inf (x != y)
  | .fin x _ _, .inf y => .fin (x != y) 0 0
  | _, _ => .nan

/-- SplitMix64 of a state (note 43): the golden increment and the two multiply-xorshift rounds. -/
def splitMix (x : Nat) : Nat :=
  let m := 2 ^ 64
  let z := (x + 0x9E3779B97F4A7C15) % m
  let z := (z ^^^ (z / 2 ^ 30)) * 0xBF58476D1CE4E5B9 % m
  let z := (z ^^^ (z / 2 ^ 27)) * 0x94D049BB133111EB % m
  z ^^^ (z / 2 ^ 31)

/-- The draw u of step `step` under a seed, at least 0 and below 1 (14 R314). -/
def drawU (seed step : Nat) : Num := .fin false (splitMix ((seed + step * 0x9E3779B97F4A7C15) % 2 ^ 64) / 2 ^ 40) (-24)

/-- Highest logit first, ties to the lower ID. -/
def byLogit (l : List (Nat × Num)) : List (Nat × Num) :=
  l.mergeSort (fun a b => !(a.2.lt b.2 || (!b.2.lt a.2 && decide (b.1 < a.1))))

/-- FP32 sum in the order of a list. -/
def sum32 (l : List Num) : Num := l.foldl add32 (.fin false 0 0)

/-- The shortest prefix whose running sum reaches a bound; all of the list when none does. -/
def reachPrefix (bound : Num) : List (Nat × Num) → Num → List (Nat × Num)
  | [], _ => []
  | p :: ps, acc =>
    let acc := add32 acc p.2
    if acc.lt bound then p :: reachPrefix bound ps acc else [p]

/-- The first whose running sum exceeds u; the last when none does. -/
def pickAbove (u : Num) : List (Nat × Num) → Num → Option Nat
  | [], _ => none
  | [p], _ => some p.1
  | p :: q :: ps, acc =>
    let acc := add32 acc p.2
    if u.lt acc then some p.1 else pickAbove u (q :: ps) acc

/-- The token chosen among (ID, logit) pairs in ascending ID order (14 R314): greedy for TEMP 0, else by the draw u. -/
def chooseToken (temp : Num) (topK : Nat) (topP : Num) (u : Num) (z : List (Nat × Num)) : Option Nat :=
  let best := byLogit z
  match best with
  | [] => none
  | top :: _ =>
    if temp.isZero then some top.1
    else
      let kept := if topK = 0 then best else best.take topK
      let asc := kept.mergeSort (fun a b => decide (a.1 ≤ b.1))
      let q := asc.map (fun p => (p.1, exp32 (div32 (add32 p.2 top.2.neg) temp)))
      let total := sum32 (q.map (·.2))
      let probs := byLogit (q.map (fun p => (p.1, div32 p.2 total)))
      let pre := if topP = (Num.fin false (2 ^ 23) (-23)) then probs else reachPrefix topP probs (.fin false 0 0)
      let total := sum32 (pre.map (·.2))
      pickAbove u (pre.map (fun p => (p.1, div32 p.2 total))) (.fin false 0 0)

end Sys2Proof.Machine
end

