-- ==== Sys2Proof/Machine/Pools.lean ====
section
/-! DEFINITION. Pools: decode pools: attaching, admission, decode steps, text chunks and detaching (14 R310 to R317). -/
namespace Sys2Proof.Machine

/-! ## Sequence parameters (R311) -/

/-- TEMP of a parameter block. -/
def parTemp (p : List Byte) : Num := fp32.decode (rdLe p 8 4)
/-- TOP_P of a parameter block. -/
def parTopP (p : List Byte) : Num := fp32.decode (rdLe p 16 4)
/-- MAX_NEW. -/
def parMaxNew (p : List Byte) : Nat := rdLe p 4 4
/-- Vocabulary slot. -/
def parVoc (p : List Byte) : Nat := rdB p 15 % 16
/-- Grammar slot, when one is named. -/
def parGrm (p : List Byte) : Option Nat := if nbit (rdB p 14) 7 then some (rdB p 14 % 64) else none
/-- Stop strings. -/
def parStops (p : List Byte) : List (List Byte) := (stopList (slice p 64 1104)).getD []

/-- A parameter block has a field outside its range (R311, R189). -/
def paramsBad (p : List Byte) : Bool :=
  let pos := fun (n : Num) => n.isFin && (Num.fin false 0 0).lt n
  decide (parMaxNew p = 0) || decide (131072 < parMaxNew p) || !((parTemp p).isZero || pos (parTemp p)) || decide (1024 < rdLe p 12 2) ||
  nbit (rdB p 14) 6 || decide (16 ≤ rdB p 15) || !pos (parTopP p) || (Num.fin false 1 0).lt (parTopP p) || decide (8 < rdB p 28) ||
  decide (2 ≤ rdB p 29) || !zeroAt p 30 2 || !zeroAt p (32 + 4 * rdB p 28) (32 - 4 * rdB p 28) || (stopList (slice p 64 1104)).isNone ||
  !zeroAt p 1168 112

/-- Prompt lengths that an image takes (R303). -/
def promptOk (im : Image) (n : Nat) : Bool := decide (1 ≤ n) && decide (n ≤ min 131072 (tyContext im.md))

/-! ## Pools and sequences -/

/-- The state with a pool replaced. -/
def setPool (s : State) (tag : Nat) (p : Pool) : State := { s with pools := place s.pools tag p }

/-- The pool of a tenant with a number, as (tag of its attach, pool). -/
def poolNamed (s : State) (t id : Nat) : Option (Nat × Pool) := s.pools.find? (fun p => p.2.tenant == t && p.2.id == id)

/-- A sequence of a pool replaced. -/
def setSeq (s : State) (tag n : Nat) (q : Seq) : State :=
  match look s.pools tag with
  | some p => setPool s tag { p with seqs := place p.seqs n q }
  | none => s

/-- A sequence of a pool goes. -/
def dropSeq (s : State) (tag n : Nat) : State :=
  match look s.pools tag with
  | some p => setPool s tag { p with seqs := remove p.seqs n }
  | none => s

/-- Facet of a pool's lowest partition. -/
def poolFacet (p : Pool) : Nat := groupFacet p.group.toNat

/-- Blocks per layer that a sequence needs room for (R312). -/
def seqBlocks (im : Image) (inTokens : Nat) (params : List Byte) : Nat :=
  (inTokens + min (parMaxNew params) (tyContext im.md - inTokens) + 15) / 16

/-- Bytes of cache of a sequence: 16 positions of keys and values per block and layer (note 44). -/
def seqBytes (im : Image) (inTokens : Nat) (params : List Byte) : Nat :=
  let m := im.md
  seqBlocks im inTokens params * tyLayers m * 32 * tyHeads m * tyHeadDim m * fmtSize (tyCache m)

/-- Sequences of a pool that hold room: admitted and not stopped (R312). -/
def active (p : Pool) : List Seq := (p.seqs.map (·.2)).filter (fun q => decide (q.state ≠ .waiting) && q.stop.isNone)

/-- A sequence may be admitted now (R312). -/
def fits (p : Pool) (q : Seq) : Bool :=
  decide ((active p).length < p.maxSeq) &&
  decide (((active p).map (fun x => seqBytes p.image x.inTokens x.params)).sum + seqBytes p.image q.inTokens q.params ≤ p.kvUnits * 2 ^ 21)

/-- Two images give cache blocks of one shape (R303, R311): layers, heads, their dimension, and the format. -/
def sameShape (a b : List Byte) : Bool :=
  tyLayers a == tyLayers b && tyHeads a == tyHeads b && tyHeadDim a == tyHeadDim b && tyCache a == tyCache b

/-- The refusal of a SEQ_OPEN that holds at once (R310, R311, Corners), or the pool it names. `shape` is the sender's image where it is at
hand, in this package; the blocks of another show theirs (note 154). -/
def seqRefusal (s : State) (srcPkg t id imageId inTokens : Nat) (params : List Byte) (shape : Option (List Byte)) :
    Except Status (Nat × Pool) :=
  match poolNamed s t id with
  | none => .error .notFound
  | some (tag, p) =>
    if p.closing ∨ p.leaving.isSome ∨ !nbit p.acceptPkg.toNat srcPkg then .error .notFound
    else
      let okTo := fun (unloading : Bool) (key : Nat) => !unloading && assignedTo (forceGet s key) p.tenant
      match look s.voc (parVoc params) with
      | none => .error .notFound
      | some v =>
        if !okTo v.unloading (aKey (0x80140 + 4 * parVoc params)) then .error .notFound
        else
          let g : Except Status Unit := match parGrm params with
            | none => .ok ()
            | some n => match look s.grm n with
              | none => .error .notFound
              | some g => if !okTo g.unloading (aKey (0x80500 + 4 * n)) then .error .notFound
                else if g.bind ≠ parVoc params then .error .grammarVocab else .ok ()
          match g with
          | .error st => .error st
          | .ok _ =>
            if imageId ≠ tyId p.image.md ∨ v.size ≠ tyVocab p.image.md ∨ paramsBad params ∨ !promptOk p.image inTokens ∨
                (match shape with | some m => !sameShape m p.image.md | none => false) = true then .error .badField
            else .ok (tag, p)

/-- The start of a sequence's automaton (09 R196). -/
def seqAuto (s : State) (params : List Byte) : Automaton :=
  match (parGrm params).bind (look s.grm) with
  | some g => autoStart (memRead s g.dest g.len)
  | none => ⟨0, []⟩

/-- A sequence as it is opened. -/
def newSeq (s : State) (flow local_ : Option Nat) (id inTokens : Nat) (params : List Byte) : Seq :=
  let a := seqAuto s params
  ⟨flow, local_, .waiting, id, params, inTokens, [], none, a.st, a.stack, [], [], [], false, false, 0, false, none⟩

/-! ## Text chunks (R316, R317) -/

/-- Bytes of the text ring. -/
def ringBytes (p : Pool) : Nat := 2 ^ (16 + p.textLog2)

/-- A chunk of n bytes fits in the text ring now. -/
def chunkFits (p : Pool) (n : Nat) : Bool := decide (p.written + n ≤ p.consumed + ringBytes p)

/-- The completion ring of a request has room for an entry beside the ones owed (17 R381). -/
def entryRoom (s : State) (r : Request) : Bool :=
  match r.source with | .ring fn _ _ cq _ => decide (1 ≤ cqRoom s (ringNo fn cq)) | .peer _ => true

/-- Words of a chunk's completion (R317). -/
def chunkWords (p : Pool) (q : Seq) : List Nat :=
  [rdLe q.params 0 4, p.written % ringBytes p,
   (if q.stop.isSome then 2 ^ 31 else 0) + (match q.stop with | some (c, _) => c * 2 ^ 24 | none => 0) + q.pend.length % 2 ^ 16,
   min q.maskLate 0x3FFF * 2 ^ 18 + q.chosen.length % 2 ^ 18]

/-- Writes a chunk's bytes, which may wrap at the end of the ring. -/
def writeChunk (s : State) (r : Request) (p : Pool) (d : List Byte) : State :=
  let off := p.written % ringBytes p
  let n := ringBytes p - off
  writeOut (writeOut s r false (p.textAddr + off) (d.take n)) r false p.textAddr (d.drop n)

/-- Posts a sequence's pending bytes as one chunk; a stopped sequence's chunk is its last, and the sequence goes. A chunk that
does not fit in the text ring waits and counts in CLP_TEXT_STALL; one whose function is in D3hot waits too, uncounted (16 R350). -/
def postChunk (s : State) (tag n : Nat) : State :=
  match look s.requests tag, look s.pools tag with
  | some r, some p =>
    match look p.seqs n with
    | none => s
    | some q =>
      if srcAsleep s r then setSeq s tag n { q with stalled := true }
      else if !chunkFits p q.pend.length then
        let s := if q.stalled then s else bump s (fKey (poolFacet p) 0x90808) 0 32 1
        setSeq s tag n { q with stalled := true }
      else if !entryRoom s r then
        let s := if q.stalled then s else bump s (fKey (poolFacet p) 0x90808) 0 32 1
        setSeq s tag n { q with stalled := true }
      else
        let st := match q.stop with | some (_, st) => st | none => .ok
        let s := postEntry (writeChunk s r p q.pend) r st (chunkWords p q) true
        let s := setPool s tag { p with written := p.written + q.pend.length }
        if q.stop.isSome then dropSeq s tag n else setSeq s tag n { q with pend := [], stalled := false }
  | _, _ => s

/-! ## Admission and stops (R312, R310) -/

/-- Bytes of a pool's cache region. -/
def kvBytes (p : Pool) : Nat := p.kvUnits * 2 ^ 21

/-- A pool writes its cache region, in places that the spec does not give (note 69). -/
def spoilCache (s : State) (tag : Nat) : State :=
  match look s.pools tag with
  | some p => spoilBytes s p.kvAddr (kvBytes p)
  | none => s

/-- A block is a head block (R307). -/
def isHead (b : List Byte) : Bool := rdLe b 0 2 == 0xFFFF

/-- A block is kept for a sequence that receives (R307, R313): a cache block in the pool's cache, the head block lets the sequence run. -/
def putBlock (s : State) (tag n : Nat) (b : List Byte) : State :=
  match (look s.pools tag).bind (fun p => look p.seqs n) with
  | none => s
  | some q =>
    if q.state ≠ .receiving then s
    else if isHead b then setSeq s tag n { q with head := some (b.drop 32), state := .running, local_ := none }
    else setSeq (spoilCache s tag) tag n { q with blocks := q.blocks ++ [b] }

/-- Flows that serve a prefill forget it. -/
def freeFlows (s : State) (tag : Nat) : State :=
  { s with strand := { s.strand with flows := s.strand.flows.map (fun p => if p.2.use = .prefill tag then (p.1, { p.2 with use := .fresh }) else p) } }

/-- A prefill ends well (R305). -/
def prefillEnds (s : State) (tag : Nat) (j : PrefillJob) : State :=
  let m := mtxOf s tag
  let words := [j.tokens.length, j.blocks] ++ (mtxWords m).drop 1
  let s := freeFlows { s with prefills := remove s.prefills tag, mtx := remove s.mtx tag } tag
  finishStage s tag words (if m.flushed = 0 then .ok else .bf16Flush)

/-- A sequence is admitted: a flow is told ACCEPT; a prefill of this package hands over the blocks it holds, and has ended when the head
block is among them (R308). -/
def admitSeq (s : State) (tag n : Nat) : State :=
  match (look s.pools tag).bind (fun p => look p.seqs n) with
  | none => s
  | some q =>
    let s := setSeq s tag n { q with state := .receiving }
    match q.flow, q.local_ with
    | some k, _ => admitFlow s k (.pool tag n)
    | none, some t => match look s.prefills t with
      | some j =>
        let j' := { j with accepted := true, waiting := [] }
        let s := j.waiting.foldl (fun s b => putBlock s tag n b) { s with prefills := place s.prefills t j' }
        if j.ended then prefillEnds s t j' else s
      | none => s
    | none, none => s

/-- A prefill of this package is refused by its pool, or its pool is gone: it completes with that status (R309). -/
def prefillFails (s : State) (tag : Nat) (st : Status) : State :=
  if (look s.prefills tag).isNone then s
  else finishStage { s with prefills := remove s.prefills tag, mtx := remove s.mtx tag } tag [] st

/-- A waiting sequence is refused. -/
def refuseSeq (s : State) (tag n : Nat) (st : Status) : State :=
  match (look s.pools tag).bind (fun p => look p.seqs n) with
  | none => s
  | some q =>
    let s := dropSeq s tag n
    match q.flow, q.local_ with
    | some k, _ => refuseFlow s k (statusCode st)
    | none, some t => prefillFails s t st
    | none, none => s

/-- Waiting sequences are admitted in arrival order while they fit, at most n (R312). -/
def admitN : Nat → State → Nat → State
  | 0, s, _ => s
  | n + 1, s, tag =>
    match look s.pools tag with
    | none => s
    | some p =>
      match p.seqs.find? (fun q => decide (q.2.state = .waiting)) with
      | some (k, q) => if fits p q then admitN n (admitSeq s tag k) tag else s
      | none => s

/-- A closing pool with no sequence left posts its closing completion; then its detach completes (R310). -/
def poolClose (s : State) (tag : Nat) : State :=
  match look s.pools tag with
  | none => s
  | some p =>
    if p.closing ∧ p.seqs.isEmpty then
      let s := finish s tag .ok [0, p.written % ringBytes p, 2 ^ 30, 0]
      match p.detach with | some d => finish s d .ok [] | none => s
    else s

/-- What follows a change in a pool: admissions, then its end. -/
def poolSettle (s : State) (tag : Nat) : State :=
  match look s.pools tag with
  | none => s
  | some p => poolClose (admitN p.seqs.length s tag) tag

/-- A sequence arrives at a pool (R311, R312): refused, admitted, or waiting. The answer names its pool and number. -/
def openSeq (s : State) (srcPkg t id seqId imageId inTokens : Nat) (params : List Byte) (flow local_ : Option Nat)
    (shape : Option (List Byte)) : State × Except Status (Nat × Nat) :=
  match seqRefusal s srcPkg t id imageId inTokens params shape with
  | .error st => (s, .error st)
  | .ok (tag, p) =>
    let n := match p.seqs.getLast? with | some q => q.1 + 1 | none => 0
    let q := newSeq s flow local_ seqId inTokens params
    let free := !p.seqs.any (fun x => decide (x.2.state = .waiting)) && fits p q
    if !free ∧ p.admitMs = 0 then (s, .error .poolFull)
    else
      let s := setSeq s tag n q
      (if free then admitSeq s tag n else s, .ok (tag, n))

/-- ADMIT_MS_X (R312): a waiting sequence has waited its time. -/
def admitExpiry (s : State) (tag n : Nat) : State :=
  match (look s.pools tag).bind (fun p => look p.seqs n) with
  | some q => if q.state = .waiting then poolSettle (refuseSeq s tag n .poolFull) tag else s
  | none => s

/-- ADMIT_MS_X (R312). -/
def execAdmitMsX (tag seq : Nat) (s : State) : Result := .next (if alive s then admitExpiry s tag seq else s)

/-! ## Blocks received (R307, R308) -/

/-- A block reaches a sequence (R308): one that was stopped before its head block came posts its last chunk then. -/
def takeBlock (s : State) (tag n : Nat) (b : List Byte) : State :=
  match (look s.pools tag).bind (fun p => look p.seqs n) with
  | none => s
  | some q =>
    let s := putBlock s tag n b
    if q.state = .receiving ∧ isHead b ∧ q.stop.isSome then poolSettle (postChunk s tag n) tag else s

/-- A cache block has the shape of an image's cache (R303, R307, R311, note 154); the head block carries none. -/
def blockFits (m b : List Byte) : Bool :=
  isHead b || (decide (rdLe b 0 2 < tyLayers m) && rdB b 5 == tyCache m && rdB b 6 == tyHeads m && rdLe b 8 2 == tyHeadDim m)

/-- A sequence whose sender is gone before its head block is discarded (Corners); one that had been admitted counts. -/
def discardSeq (s : State) (tag n : Nat) : State :=
  match (look s.pools tag).bind (fun p => (look p.seqs n).map (fun q => (p, q))) with
  | none => s
  | some (p, q) =>
    if q.head.isSome then s
    else
      let s := dropSeq s tag n
      let s := if q.state = .receiving then bump s (fKey (poolFacet p) 0x90804) 0 32 1 else s
      poolSettle s tag

/-! ## Decode steps (R313 to R315) -/

/-- A sequence stops: at reasons other than a stop string its held bytes are emitted (R191, R315). -/
def stopSeq (q : Seq) (reason : Nat) (st : Status) : Seq :=
  { q with stop := some (reason, st), pend := if reason = 2 then q.pend else q.pend ++ q.held, held := [], maskWaits := false }

/-- Tokens that may be chosen: the grammar's mask, or every token (09 R197); none when the automaton has no entry. -/
def allowedTokens (s : State) (p : Pool) (q : Seq) : Option (List Nat) :=
  let all := upto (tyVocab p.image.md)
  match (parGrm q.params).bind (look s.grm) with
  | none => some all
  | some g =>
    let b := memRead s g.dest g.len
    (autoEntry b ⟨q.autoState, q.autoStack⟩).map (fun e => all.filter (allows b e))

/-- Segments of the output head and the other data outside the layers (15 R321). -/
def outerSegs (im : Image) : List Seg := (segsOf im.md).filter (fun g => g.layer == 0xFFFF)

/-- Poison or a fence met by a sampling: output head, vocabulary, grammar entry. -/
def stepFault (s : State) (p : Pool) (q : Seq) : Option Status :=
  match segsFault s p.image (outerSegs p.image) with
  | some st => some st
  | none =>
    let pois := fun (x : Option (Nat × Nat)) => x.bind (fun d => (memPoison s d.1 d.2).map poisonStatus)
    match pois ((look s.voc (parVoc q.params)).map (fun v => (v.dest, v.len))) with
    | some st => some st
    | none => pois (((parGrm q.params).bind (look s.grm)).map (fun g => (g.dest, g.len)))

/-- The next token of a sequence (R314), or why it stops. -/
def nextToken (s : State) (p : Pool) (q : Seq) : Except Status Nat :=
  match stepFault s p q with
  | some st => .error st
  | none =>
    match allowedTokens s p q with
    | none => .error .grammarFault
    | some ids =>
      let img := imageBytes s p.image
      let z := ids.map (fun i => (i, fp32.decode (Config.logit img (q.head.getD []) (q.blocks.map (·.drop 32)) q.chosen i).toNat))
      if z.any (fun x => !x.2.isFin) then .error .logitFault
      else match chooseToken (parTemp q.params) (rdLe q.params 12 2) (parTopP q.params) (drawU (rdLe q.params 20 8) q.chosen.length) z with
        | some t => .ok t
        | none => .error .grammarFault

/-- End-of-sequence tokens of a sequence (R311, R315). -/
def endSet (vb params : List Byte) : List Nat :=
  (upto (rdB params 28)).map (fun i => rdLe params (32 + 4 * i) 4) ++
  (if nbit (rdB params 29) 0 ∧ rdLe vb 48 4 ≠ noToken then [rdLe vb 48 4] else [])

/-- The automaton after a chosen token; none is GRAMMAR_FAULT. -/
def autoAfter (s : State) (q : Seq) (t : Nat) : Option (Automaton × Bool) :=
  match (parGrm q.params).bind (look s.grm) with
  | none => some (⟨q.autoState, q.autoStack⟩, false)
  | some g =>
    let b := memRead s g.dest g.len
    (autoStep b ⟨q.autoState, q.autoStack⟩ t).map (fun a =>
      (a, match autoEntry b a with | some e => accepting b e && rdLe b (e + 4) 4 == 0 | none => false))

/-- A sequence after a chosen token: the stop conditions in their order (R315), so that an end token stops it before its range's
action can fail. -/
def takeToken (s : State) (p : Pool) (q : Seq) (t : Nat) : Seq :=
  let vb := match look s.voc (parVoc q.params) with | some v => memRead s v.dest v.len | none => []
  if (endSet vb q.params).contains t then stopSeq { q with chosen := q.chosen ++ [t], maskReady := false } 1 .ok
  else
    match autoAfter s q t with
    | none => stopSeq q 7 .grammarFault
    | some (a, done) =>
      let q := { q with chosen := q.chosen ++ [t], autoState := a.st, autoStack := a.stack, maskReady := false }
      let o := detokCore (parStops q.params) q.held (appended vb false [t]) false false
      let q := { q with held := o.held, pend := q.pend ++ o.emit }
      if o.stop.isSome then stopSeq q 2 .ok
      else if done then stopSeq q 3 .ok
      else if parMaxNew q.params ≤ q.chosen.length then stopSeq q 4 .ok
      else if tyContext p.image.md ≤ q.inTokens + q.chosen.length then stopSeq q 5 .ok
      else q

/-- A chunk is due (R317): the sequence has stopped, CHUNK_BYTES are pending, or CHUNK_US is 0 and a byte is pending. -/
def chunkDue (p : Pool) (q : Seq) : Bool :=
  q.stop.isSome || decide (p.chunkBytes ≤ q.pend.length) || (decide (p.chunkUs = 0) && !q.pend.isEmpty)

/-- The state with a sequence after its step, its chunk posted when due. -/
def afterStep (s : State) (tag n : Nat) (p : Pool) (q : Seq) : State :=
  let s := setSeq s tag n q
  if chunkDue p q then postChunk s tag n else s

/-- What the reads of a sampling do to the counts (08 R174): the vocabulary's and the grammar's blobs. -/
def sampleReads (s : State) (p : Pool) (q : Seq) : State :=
  let s := match look s.voc (parVoc q.params) with | some v => engRead s p.tenant v.dest v.len | none => s
  match (parGrm q.params).bind (look s.grm) with | some g => engRead s p.tenant g.dest g.len | none => s

/-- One sequence samples (R314): CLP_TOKENS counts the token chosen. -/
def sampleSeq (s : State) (tag n : Nat) (p : Pool) (q : Seq) : State :=
  let s := sampleReads s p q
  match nextToken s p q with
  | .error st => afterStep s tag n p (stopSeq q 7 st)
  | .ok t =>
    let q' := takeToken s p q t
    let s := if q'.chosen.length = q.chosen.length then s else bump s (fKey (poolFacet p) 0x9080C) 0 32 1
    afterStep s tag n p q'

/-- One sequence in a decode step (R313, R197): one that waits for its mask counts the wait and samples later. -/
def stepSeq (s : State) (tag : Nat) (fault : Option Status) (bad : List (Nat × Status)) (n : Nat) : State :=
  match (look s.pools tag).bind (fun p => (look p.seqs n).map (fun q => (p, q))) with
  | none => s
  | some (p, q) =>
    if q.state ≠ .running ∨ q.stop.isSome ∨ q.stalled ∨ q.maskWaits then s
    else match fault, look bad n with
      | some st, _ => afterStep s tag n p (stopSeq q 7 st)
      | none, some st => afterStep s tag n p (stopSeq q 7 st)
      | none, none =>
        if (parGrm q.params).isSome ∧ !q.maskReady then
          bump (setSeq s tag n { q with maskWaits := true, maskLate := q.maskLate + 1 }) (fKey (poolFacet p) 0x80804) 0 32 1
        else sampleSeq s tag n p q

/-- A pool's group cannot run: no partition left, or no array (02 R49, R42). -/
def poolFault (s : State) (p : Pool) : Option Status :=
  if (groupParts s p.tenant p.group.toNat).isEmpty then some .noPartition
  else if (groupArrays s p.tenant p.group.toNat).isEmpty then some .noArray else none

/-- A step waits for the window (15 R331): the image is streamed, a sequence runs its layers, and not every unit has been copied. -/
def windowWaits (s : State) (tag : Nat) (p : Pool) : Bool :=
  decide (tyExec p.image.md = 1) && (active p).any (fun q => decide (q.state = .running) && !q.chosen.isEmpty) &&
  decide ((mtxOf s tag).units < tyLayers p.image.md * tyUnits p.image.md)

/-- A sequence runs its layers in a step: every step but its first, which applies the output head alone (R313). -/
def runsLayers (q : Seq) : Bool :=
  decide (q.state = .running) && !q.chosen.isEmpty && q.stop.isNone && !q.stalled && !q.maskWaits

/-- Sequences that a step fails on because the unit that holds the cache region is fenced (06 R127). -/
def cacheLost (s : State) (p : Pool) : List (Nat × Status) :=
  if rangeLive s p.kvAddr (kvBytes p) then [] else (p.seqs.filter (fun x => runsLayers x.2)).map (fun x => (x.1, .tierFenced))

/-- Sequences that run their layers in a step and fail on what the image's layers are read from: a fence, or poison (15 R338; 08 R171). -/
def layersLost (s : State) (tag : Nat) (p : Pool) : List (Nat × Status) :=
  match (upto (tyLayers p.image.md)).findSome? (layerBad s tag p.image) with
  | some st => (p.seqs.filter (fun x => runsLayers x.2)).map (fun x => (x.1, st))
  | none => []

/-- A decode step of a pool over all its running sequences (R313), whose positions go into the cache region; the next step's units are
copied into the window anew. `bad` names sequences whose cache reads met poison. -/
def decodeStep (s : State) (tag : Nat) (bad : List (Nat × Status)) : State :=
  match look s.pools tag with
  | none => s
  | some p =>
    if windowWaits s tag p then s
    else
    let fault := poolFault s p
    let run := p.seqs.any (fun x => runsLayers x.2)
    let s := segsRead s p.tenant p.image (if run then (segsOf p.image.md).filter (fun g => decide (tyExec p.image.md ≠ 1) || g.layer == 0xFFFF)
      else outerSegs p.image)
    let lost := cacheLost s p ++ layersLost s tag p
    let s := if tyExec p.image.md = 1 then setMtx s tag { mtxOf s tag with units := 0, unitAt := 0, windowBad := [] } else s
    let s := if run then spoilCache s tag else s
    let s := (keysOf p.seqs).foldl (fun s n => stepSeq s tag fault (lost ++ bad) n) s
    poolSettle s tag

/-- DECODE_STEP (R313). -/
def execDecodeStep (tag : Nat) (bad : List (Nat × Status)) (s : State) : Result :=
  .next (if (running s tag 0x1A).isSome then decodeStep s tag bad else s)

/-- A mask arrives (09 R197, R198): the longest mask time is kept, and a sample that waited is taken. -/
def maskReady (s : State) (tag n grains : Nat) : State :=
  match (look s.pools tag).bind (fun p => (look p.seqs n).map (fun q => (p, q))) with
  | none => s
  | some (p, q) =>
    if (parGrm q.params).isNone ∨ q.stop.isSome then s
    else
      let s := peak s (fKey (poolFacet p) 0x80808) 0 32 grains
      let q := { q with maskReady := true }
      if q.maskWaits then poolSettle (sampleSeq s tag n p { q with maskWaits := false }) tag else setSeq s tag n q

/-- MASK_READY (09 R198). -/
def execMaskReady (tag seq grains : Nat) (s : State) : Result :=
  .next (if (running s tag 0x1A).isSome then maskReady s tag seq grains else s)

/-- CHUNK_US has elapsed since a sequence's first pending byte (R317). -/
def chunkTimer (s : State) (tag n : Nat) : State :=
  match (look s.pools tag).bind (fun p => (look p.seqs n).map (fun q => (p, q))) with
  | none => s
  | some (p, q) => if p.chunkUs = 0 ∨ q.pend.isEmpty ∨ q.stalled then s else poolSettle (postChunk s tag n) tag

/-- CHUNK_US (R317). -/
def execChunkUs (tag seq : Nat) (s : State) : Result := .next (if (running s tag 0x1A).isSome then chunkTimer s tag seq else s)

/-- The chunks of a pool that wait are tried again. -/
def retryChunks (s : State) (tag : Nat) : State :=
  match look s.pools tag with
  | none => s
  | some p => poolSettle ((p.seqs.filter (·.2.stalled)).foldl (fun s x => postChunk s tag x.1) s) tag

/-- CONSUMED is re-read while a chunk waits (R316; 16 R350): one that runs ahead of the bytes written, or backward, is ignored; chunks that
fit now are posted. -/
def consumedRead (s : State) (tag : Nat) (r : Request) (v : Nat) (st : ReadStatus) : State :=
  match look s.pools tag with
  | none => s
  | some p =>
    if !p.seqs.any (·.2.stalled) || !dmaOpen s (requestFn r) then s
    else
    let s := readNow s (requestFn r) (bodyLe r 24 8) 8 st
    match heard s (requestFn r) st with
      | .poisoned => hostPoison s (requestFn r) 64
      | .xlate => s
      | .good =>
        retryChunks (if p.consumed ≤ v ∧ v ≤ p.written then setPool s tag { p with consumed := v } else s) tag

/-- TEXT_CONSUMED_REREAD (R316). -/
def execTextConsumedReread (tag consumed : Nat) (st : ReadStatus) (s : State) : Result :=
  .next (match running s tag 0x1A with | some r => consumedRead s tag r consumed st | none => s)

/-! ## Attach and detach (R310) -/

/-- DECODE_ATTACH's check of its body and extension. -/
def attachBad (r : Request) : Bool :=
  decide (bodyLe r 16 8 % 4096 ≠ 0) || decide (bodyLe r 24 8 % 64 ≠ 0) || decide (bodyLe r 32 8 % 2 ^ 21 ≠ 0) ||
  decide (bodyLe r 40 4 = 0) || decide (131072 < bodyLe r 40 4) || decide (bodyLe r 56 2 = 0) || decide (4096 < bodyLe r 56 2) ||
  decide (bodyLe r 58 2 < 64) || decide (4096 < bodyLe r 58 2) || decide (bodyB r 62 / 16 % 4 ≠ 0) || decide (12 < bodyB r 63 / 16) ||
  decide (1000 < rdLe (extOf r) 0 2) || !zeroAt (extOf r) 2 62

/-- Every check of a DECODE_ATTACH; its image when it may attach. -/
def attachCheck (s : State) (r : Request) : Except Status Image :=
  if attachBad r then .error .badField
  else match imageFor s r (bodyLe r 44 4) with
    | .error st => .error st
    | .ok im =>
      match groupFault s r (bodyB r 63 % 16) true with
      | some st => .error st
      | none =>
        if tyKind im.md ≠ 2 ∨ (poolNamed s r.tenant (bodyB r 62 % 16)).isSome then .error .badField
        else match checkAccess s r.tenant (bodyLe r 32 8) (bodyLe r 40 4 * 2 ^ 21) with
          | some st => .error st
          | none => match locOf (bodyLe r 32 8) with | .hbm _ _ => .ok im | _ => .error .badField

/-- ADMIT_MS_X of an attach: 10 ms without an extension. -/
def admitMs (r : Request) : Nat := match r.ext with | some x => extField r 5 (rdLe x 0 2) 10 | none => 10

/-- A group is attached as a pool; the request stays open. -/
def attach (s : State) (tag : Nat) (r : Request) : State :=
  if (look s.pools tag).isSome then s
  else match attachCheck s r with
    | .error st => finish s tag (serviceStatus s st) []
    | .ok im =>
      let slot := bodyLe r 44 4
      let gen := (r.names.findSome? (fun x => match x with | .troy k g => if k = slot then some g else none | _ => none)).getD (troyOf s slot).gen
      let p : Pool := ⟨r.tenant, bodyB r 62 % 16, BitVec.ofNat 64 (groupOf r (bodyB r 63 % 16)), slot, gen, im, bodyLe r 16 8, bodyLe r 24 8,
        bodyB r 63 / 16, bodyLe r 32 8, bodyLe r 40 4, BitVec.ofNat 64 (bodyLe r 48 8), bodyLe r 56 2, bodyLe r 58 2, bodyLe r 60 2, admitMs r, 0, 0,
        s.hmk.draining, none, none, []⟩
      poolSettle (settle (setRequest (setPool s tag p) tag { r with attached := true })) tag

/-- DECODE_ATTACH (R310): with DETACH 1 the descriptor is a detach. -/
def execDecodeAttach (tag : Nat) (s : State) : Result :=
  .next (match running s tag 0x1A with
    | some r => if nbit (bodyB r 62) 7 then s else attach s tag r
    | none => s)

/-- From the fetch of a detach its pool refuses new sequences, and those that wait (R310, Corners). -/
def claimPool (s : State) (tag : Nat) (r : Request) : State :=
  if r.opcode ≠ 0x1A ∨ r.headFault.isSome ∨ !nbit (bodyB r 62) 7 ∨ noService s then s
  else match poolNamed s r.tenant (bodyB r 62 % 16) with
    | none => s
    | some (pt, p) =>
      if p.closing ∨ p.leaving.isSome then s
      else
        let s := setPool s pt { p with leaving := some tag }
        (p.seqs.filter (fun q => decide (q.2.state = .waiting) && q.2.local_ != some tag)).foldl (fun s q => refuseSeq s pt q.1 .notFound) s

/-- Another detach of this pool was fetched first. -/
def leavesFirst (p : Pool) (tag : Nat) : Bool := match p.leaving with | some x => x != tag | none => false

/-- A detach (R310, Corners): admission stops, waiting sequences are refused, with ABORT running ones stop. -/
def detach (s : State) (tag : Nat) (r : Request) : State :=
  match poolNamed s r.tenant (bodyB r 62 % 16) with
  | none => finish s tag .notFound []
  | some (pt, p) =>
    if p.closing ∨ leavesFirst p tag then (if p.detach = some tag then s else finish s tag .notFound [])
    else
      let s := setPool s pt { p with closing := true, detach := some tag }
      let s := (p.seqs.filter (fun q => decide (q.2.state = .waiting) && q.2.local_ != some tag)).foldl
          (fun s q => refuseSeq s pt q.1 .notFound) s
      let s := if nbit (bodyB r 62) 6 then
          (p.seqs.filter (fun q => decide (q.2.state ≠ .waiting) && q.2.stop.isNone)).foldl (fun s q =>
            let s := setSeq s pt q.1 (stopSeq q.2 6 .ok)
            if q.2.state = .running then postChunk s pt q.1 else s) s
        else s
      poolSettle s pt

/-- A drain begins (23 R519): every pool refuses new sequences, and closes once its running ones have stopped. -/
def drainPools (s : State) : State :=
  (s.pools.filter (fun p => !p.2.closing)).foldl (fun s p =>
    let s := setPool s p.1 { p.2 with closing := true }
    let s := (p.2.seqs.filter (fun q => decide (q.2.state = .waiting))).foldl (fun s q => refuseSeq s p.1 q.1 .notFound) s
    poolSettle s p.1) s

/-- Running sequences of every pool stop as with ABORT (23 R519). -/
def abortPools (s : State) : State :=
  s.pools.foldl (fun s p =>
    (p.2.seqs.filter (fun q => decide (q.2.state ≠ .waiting) && q.2.stop.isNone)).foldl (fun s q =>
      let s := setSeq s p.1 q.1 (stopSeq q.2 6 .ok)
      if q.2.state = .running then postChunk s p.1 q.1 else s) s) s

/-- DETACH (R310). -/
def execDetach (tag : Nat) (s : State) : Result :=
  .next (match running s tag 0x1A with
    | some r => if !nbit (bodyB r 62) 7 then s else if noService s then finish s tag (serviceStatus s .noPartition) [] else detach s tag r
    | none => s)

end Sys2Proof.Machine
end

