-- ==== Sys2Proof/Machine/Prefill.lean ====
section
/-! DEFINITION. Prefill: PREFILL, its layers, key/value blocks and where they go (14 R303 to R309; 01 R30 to R32). -/
namespace Sys2Proof.Machine

/-! ## The request (R303, R306) -/

/-- The pool word of a PREFILL body. -/
def poolWord (r : Request) : Nat := bodyLe r 40 4
/-- POOL_VALID. -/
def poolValid (r : Request) : Bool := nbit (poolWord r) 31

/-- PREFILL's check of its own body; inside a pipeline its link fields do not act (01 R19). -/
def prefillBad (r : Request) (linked : Bool) : Bool :=
  let w := poolWord r
  nbit w 30 || nbit w 23 || decide (64 < nfld w 16 7) || decide (nfld w 4 12 ≠ 0) || decide (bodyB r 44 / 16 % 8 ≠ 0) ||
  !bodyZero r 45 3 || !bodyZero r 60 4 || !zeroAt (extOf r) 0 64 ||
  (if poolValid r then decide (bodyLe r 32 8 = 0) || decide (bodyLe r 32 8 % 64 ≠ 0) || decide (bodyLe r 48 8 ≠ 0)
   else decide (bodyLe r 32 8 ≠ 0) || decide (bodyLe r 48 8 % 64 ≠ 0)) ||
  (!linked && (decide (bodyLe r 24 4 = 0) || decide (131072 < bodyLe r 24 4)))

/-- Bytes of a cache block's payload of t positions: keys, then values (R307). -/
def blockPayload (m : List Byte) (t : Nat) : Nat := 2 * t * tyHeads m * tyHeadDim m * fmtSize (tyCache m)
/-- Blocks of a layer for n tokens. -/
def blocksPer (n : Nat) : Nat := (n + 15) / 16
/-- Positions of block j. -/
def blockTokens (n j : Nat) : Nat := min 16 (n - 16 * j)
/-- Bytes of the head state: BF16 of the hidden width (R304). -/
def headBytes (m : List Byte) : Nat := 2 * tyHidden m

/-- Bytes at KV_ADDR for a prompt of n tokens (R309): each block takes whole 64-byte units, the head block
too (worked example). -/
def kvNeed (m : List Byte) (n : Nat) : Nat :=
  tyLayers m * ((upto (blocksPer n)).map (fun j => roundUp (32 + blockPayload m (blockTokens n j)) 64)).sum + roundUp (32 + headBytes m) 64

/-- The header of a block (R307). -/
def blockHeader (m : List Byte) (seqId layer j t flags first len : Nat) : List Byte :=
  let head := layer == 0xFFFF
  leBytes 2 layer ++ leBytes 2 j ++ leBytes 1 t ++ leBytes 1 (if head then 1 else tyCache m) ++ leBytes 1 (tyHeads m) ++ leBytes 1 flags ++
  leBytes 2 (if head then 0 else tyHeadDim m) ++ leBytes 2 0 ++ leBytes 4 first ++ leBytes 8 seqId ++ leBytes 4 len ++ leBytes 4 0

/-- Cache block j of a layer (R307, note 40). -/
def cacheBlock (bytes m : List Byte) (toks : List Nat) (seqId layer j : Nat) : List Byte :=
  let t := blockTokens toks.length j
  let half := blockPayload m t / 2
  blockHeader m seqId layer j t (if j + 1 = blocksPer toks.length then 1 else 0) (16 * j) (2 * half) ++
    (upto half).map (Config.cacheByte bytes toks layer (16 * j) 0) ++ (upto half).map (Config.cacheByte bytes toks layer (16 * j) 1)

/-- The head block (R304, R307): the last position's state. -/
def headBlock (bytes m : List Byte) (toks : List Nat) (seqId : Nat) : List Byte :=
  blockHeader m seqId 0xFFFF 0 1 2 (toks.length - 1) (headBytes m) ++ (upto (headBytes m)).map (Config.headByte bytes toks)

/-- Image and group of a PREFILL. -/
def prefillImage (s : State) (r : Request) (g : Nat) : Except Status Image :=
  match imageFor s r (bodyLe r 28 4) with
  | .error st => .error st
  | .ok im =>
    match groupFault s r g true with
    | some st => .error st
    | none => if tyKind im.md ≠ 2 then .error .badField else .ok im

/-- Where the blocks go and what that checks (R306, R309, R311): the parameter block of a pool, or room at KV_ADDR. -/
def prefillTarget (s : State) (r : Request) (im : Image) (n : Nat) : Reading (List Byte) :=
  if poolValid r then
    match checkAccess s r.tenant (bodyLe r 32 8) 1280 with
    | some st => (s, .fail st)
    | none =>
      if !anySlice (bodyLe r 32 8) then (s, .fail .badField)
      else Got.andThen (devRead s r.tenant (bodyLe r 32 8) 1280) (fun s p => if paramsBad p then (s, .fail .badField) else (s, .ok p))
  else if bodyLe r 56 4 < kvNeed im.md n then (s, .fail .resultShort)
  else match checkAccess s r.tenant (bodyLe r 48 8) (kvNeed im.md n) with
    | some st => (s, .fail st)
    | none => if inDram (bodyLe r 48 8) then (s, .ok []) else (s, .fail .badField)

/-- SEQ_ID: the prefill package and the grain count at fetch (R307). -/
def seqIdOf (s : State) (r : Request) : Nat := (pkgNo s).getD 0 * 2 ^ 48 + r.fetched % 2 ^ 48

/-- Body of a SEQ_OPEN (19 Table - Message bodies). -/
def seqOpenBody (seqId imageId n tenant pool : Nat) (params : List Byte) : List Byte :=
  leBytes 8 seqId ++ leBytes 8 imageId ++ leBytes 4 n ++ leBytes 1 tenant ++ leBytes 1 pool ++ leBytes 2 0 ++ params

/-- The state with a prefill's record replaced. -/
def setPrefill (s : State) (tag : Nat) (j : PrefillJob) : State := { s with prefills := place s.prefills tag j }

/-- A prefill begins on its tokens (R303, R308): with a pool, its SEQ_OPEN goes first. -/
def prefillBegin (s : State) (tag : Nat) (r : Request) (im : Image) (toks : List Nat) (params : List Byte) : State :=
  let id := seqIdOf s r
  let j : PrefillJob := ⟨toks, im, id, .memory, false, [], 0, 0, false⟩
  if !poolValid r then setPrefill s tag j
  else
    let w := poolWord r
    let pkg := nfld w 24 6
    if pkgNo s = some pkg then
      let s := setPrefill s tag { j with target := .waits }
      match openSeq s pkg (nfld w 16 7) (nfld w 0 4) id (tyId im.md) toks.length params none (some tag) (some im.md) with
      | (s, .error st) => prefillFails s tag st
      | (s, .ok (pt, n)) =>
        match look s.prefills tag with
        | some j => setPrefill s tag { j with target := .pool pt n }
        | none => s
    else match flowBar s with
      | some st => prefillFails (setPrefill s tag j) tag st
      | none =>
        let m := message 1 0 (seqOpenBody id (tyId im.md) toks.length (nfld w 16 7) (nfld w 0 4) params)
        let (s, k) := openFlow s pkg 1 (.prefill tag) m
        setPrefill s tag { j with target := match k with | some k => .flow k | none => .waits }

/-- The checks of a prefill on its tokens, then its start (R303). -/
def prefillStart (s : State) (tag : Nat) (r : Request) (im : Image) (toks : List Nat) : State :=
  if (look s.prefills tag).isSome then s
  else if noService s then finishStage s tag [] .noPartition
  else if !promptOk im toks.length then finishStage s tag [] .badField
  else if toks.any (fun t => decide (tyVocab im.md ≤ t)) then finishStage s tag [] .tokenRange
  else
    let x := prefillTarget s r im toks.length
    match x.2 with
    | .wait => s
    | .fail st => finishStage x.1 tag [] (serviceStatus s st)
    | .ok params => prefillBegin x.1 tag r im toks params

/-- The prefill stage of a pipeline (R303). -/
def prefillStage (s : State) (tag : Nat) (r : Request) (g : Nat) (toks : List Nat) : State :=
  if prefillBad r true then finishStage s tag [] .badField
  else match prefillImage s r g with
    | .error st => finishStage s tag [] (serviceStatus s st)
    | .ok im => prefillStart s tag r im toks

/-- PREFILL issued alone. -/
def prefillRun (s : State) (tag : Nat) (r : Request) : State :=
  if (look s.prefills tag).isSome then s
  else if prefillBad r false then finish s tag .badField []
  else match prefillImage s r (bodyB r 44 % 16) with
    | .error st => finish s tag (serviceStatus s st) []
    | .ok im =>
      if !promptOk im (bodyLe r 24 4) then finish s tag .badField []
      else
        let x := readAt s r (nbit (bodyB r 44) 7) (bodyLe r 16 8) (4 * bodyLe r 24 4)
        match x.2 with
        | .wait => keepReads s x.1
        | .fail st => finish x.1 tag (serviceStatus s st) []
        | .ok b => prefillStart x.1 tag r im (idsOf b)

/-- PREFILL (R303). -/
def execPrefill (tag : Nat) (s : State) : Result := .next (match running s tag 0x19 with | some r => prefillRun s tag r | none => s)

/-! ## Layers and shipping (R304, R305, R308, R309) -/

/-- The device address at KV_ADDR of a PREFILL or of the prefill record of a PIPELINE, as the job was started. -/
def kvAddr (s : State) (tag : Nat) : Nat :=
  match look s.requests tag with
  | none => 0
  | some r => match r.pipe with
    | none => bodyLe r 48 8
    | some p => match (planRecords 8 p.plan).find? (fun x => rdB x.1 0 % 8 == 7) with | some x => rdLe x.1 48 8 | none => 0

/-- A prefill fails: its flow is abandoned (19 R420), its blocks go no further. -/
def prefillBreaks (s : State) (tag : Nat) (st : Status) : State :=
  let s := (flowsOf s (fun u => u == .prefill tag)).foldl (fun s k => abandonFlow s k 0x60) s
  let s := match (look s.prefills tag).map (·.target) with | some (.pool pt n) => discardSeq s pt n | _ => s
  prefillFails s tag st

/-- Blocks that wait go to their target once it has accepted (R308); the last of them ends a prefill to a pool of this package, a
flow gets its FIN after the head block. -/
def shipBlocks (s : State) (tag : Nat) : State :=
  match look s.prefills tag with
  | none => s
  | some j =>
    if !j.accepted then s
    else
      let s := setPrefill s tag { j with waiting := [] }
      match j.target with
      | .flow k =>
        let s := j.waiting.foldl (fun s b => sendMessage s k (message 2 0 b)) s
        if j.ended then sendFin s k else s
      | .pool pt n =>
        let s := j.waiting.foldl (fun s b => takeBlock s pt n b) s
        if j.ended then prefillEnds s tag { j with waiting := [] } else s
      | _ => s

/-- Blocks written for a tenant at KV_ADDR, each from a 64-byte boundary (R309). -/
def writeBlocks (s : State) (t base off : Nat) : List (List Byte) → State × Nat
  | [] => (s, off)
  | b :: bs => writeBlocks (engWrite s t (base + off) b) t base (roundUp (off + b.length) 64) bs

/-- The blocks of a layer, and the head block behind the last one. -/
def layerBlocks (s : State) (j : PrefillJob) (layer : Nat) : List (List Byte) :=
  let bytes := imageBytes s j.image
  let m := j.image.md
  (upto (blocksPer j.tokens.length)).map (cacheBlock bytes m j.tokens j.seqId layer) ++
    (if layer + 1 = tyLayers m then [headBlock bytes m j.tokens j.seqId] else [])

/-- The group of a running prefill, when it can no longer run. -/
def prefillGroupFault (s : State) (tag : Nat) : Option Status :=
  match look s.requests tag with
  | none => none
  | some r => match r.pipe with
    | none => groupFault s r (bodyB r 44 % 16) true
    | some p => match (planRecords 8 p.plan).find? (fun x => rdB x.1 0 % 8 == 7) with
      | some x => groupFault s r (rdB x.1 2 % 16) true
      | none => none

/-- A streamed layer may compute once its units lie in the window (15 R331). -/
def layerCopied (s : State) (tag : Nat) (im : Image) : Bool :=
  decide (tyExec im.md ≠ 1) || decide (((mtxOf s tag).layers + 1) * tyUnits im.md ≤ (mtxOf s tag).units)

/-- One layer completes: its blocks ship, wait, or are written (R304, R308, R309). -/
def layerDone (s : State) (tag : Nat) (j : PrefillJob) : State :=
  let m := mtxOf s tag
  if j.ended ∨ tyLayers j.image.md ≤ m.layers ∨ !layerCopied s tag j.image then s
  else
  let t := match look s.requests tag with | some r => r.tenant | none => 0
  let s := segsRead s t j.image (layerSegs j.image m.layers)
  match prefillGroupFault s tag, layerBad s tag j.image m.layers with
    | some st, _ => prefillBreaks s tag st
    | none, some st => prefillBreaks s tag st
    | none, none =>
      let bs := layerBlocks s j m.layers
      let last := decide (m.layers + 1 = tyLayers j.image.md)
      let s := setMtx s tag { m with layers := m.layers + 1, unitAt := max m.unitAt ((m.layers + 1) * tyUnits j.image.md) }
      let j := { j with blocks := j.blocks + bs.length, ended := last }
      match j.target with
      | .memory =>
        let (s, off) := writeBlocks s t (kvAddr s tag) j.written bs
        let j := { j with written := off }
        if last then prefillEnds s tag j else setPrefill s tag j
      | _ => shipBlocks (setPrefill s tag { j with waiting := j.waiting ++ bs }) tag

/-- PREFILL_LAYER_DONE (01 R30). -/
def execPrefillLayerDone (tag : Nat) (s : State) : Result :=
  .next (if !alive s then s else match look s.prefills tag with | some j => layerDone s tag j | none => s)

/-! ## What the flow of a prefill reports (R309, 01 R32) -/

/-- An open that had to wait for a flow number has been sent. -/
def bindFlow (s : State) (k tag : Nat) : State :=
  match look s.prefills tag with
  | some j => if j.target = .waits then setPrefill s tag { j with target := .flow k } else s
  | none => s

/-- An acknowledgement on a prefill's flow: ACCEPT lets the blocks go; with the head block acknowledged the prefill ends. -/
def prefillAcked (s : State) (k tag : Nat) : State :=
  let s := bindFlow s k tag
  match look s.prefills tag, look s.strand.flows k with
  | some j, some f =>
    if !f.accepted then s
    else
      let s := if j.accepted then s else setPrefill s tag { j with accepted := true }
      let s := shipBlocks s tag
      match look s.prefills tag, look s.strand.flows k with
      | some j, some f =>
        let open_ := f.queue.any (fun x => x.typ != 6) || f.sent.any (fun x => x.2.frame.typ != 6)
        if j.ended ∧ j.waiting.isEmpty ∧ !open_ then prefillEnds s tag j else s
      | _, _ => s
  | _, _ => s

/-- A prefill's flow was refused, reset or lost: the prefill completes with that status (R309, 01 Corners). -/
def prefillClosed (s : State) (tag st : Nat) : State :=
  prefillFails s tag ((statusOfCode st).getD .peerLost)

end Sys2Proof.Machine
end

