-- ==== Sys2Proof/Machine/SpiNor.lean ====
section
/-! DEFINITION. SpiNor: the layout of the tray's SPI NOR and the commands that the Assay controllers issue to it (23 R507 to R509; 06 R124;
07 R161; 20 R442). -/
namespace Sys2Proof.Machine

/-- Command bytes (23 R507). -/
def NorCmd.code : NorCmd → Byte
  | .readId => 0x9F#8
  | .readSfdp => 0x5A#8
  | .fastRead => 0x6C#8
  | .writeEnable => 0x06#8
  | .readStatus => 0x05#8
  | .pageProgram => 0x12#8
  | .sectorErase => 0x21#8

/-- Base and length of an image copy (true: B; 23 Table - SPI NOR layout). -/
def norCopy (b : Bool) : Nat × Nat := (if b then 0x800000 else 0, 0x800000)

/-- Base and length of the boot record. -/
def norBoot : Nat × Nat := (0x1000000, 0x10000)

/-- Base and length of what is kept: retired rows, grown bad blocks and the Chain gain. -/
def norKept : Nat × Nat := (0x1010000, 0xFF0000)

/-- An area is read. -/
def norRead (s : State) (area : Nat × Nat) : State := emit s (.nor [.fastRead] area.1 area.2)

/-- Commands that write an area: its sectors are erased, and pages programmed. -/
def norWriteCmds : List NorCmd := [.writeEnable, .sectorErase, .readStatus, .writeEnable, .pageProgram, .readStatus]

/-- An area is written (note 169: how much of it, and how often each command, is not stated). -/
def norWrite (s : State) (area : Nat × Nat) : State := emit s (.nor norWriteCmds area.1 area.2)

/-- What the Assay controller keeps changes. -/
def norKeep (s : State) (n : Nor) : State := norWrite { s with nor := n } norKept

/-- A new image is written to a copy and read back (R509). -/
def norImage (s : State) (copy : Bool) : State := norRead (norWrite s (norCopy copy)) (norCopy copy)

/-- What the active controller reads as it boots (R504 step 4, R508): the device's identity, the boot record, what is kept, and the preferred
copy, then the other when `again`, the first not having passed. -/
def norBootReads (s : State) (again : Bool) : State :=
  let s := norRead (norRead (emit s (.nor [.readId, .readSfdp] 0 0)) norBoot) norKept
  let s := norRead s (norCopy s.nor.preferB)
  if again then norRead s (norCopy (!s.nor.preferB)) else s

end Sys2Proof.Machine
end

