-- ==== Sys2Proof/Machine/Flash.lean ====
section
/-! DEFINITION. Flash: extent reads, decoding and read retry, NAND command issue, and flash jobs (07). -/
namespace Sys2Proof.Machine

/-! ## Extent reads (07 R147 to R149) -/

/-- First codeword of an extent within its block. -/
def extentCw (s : State) (e : List Byte) : Nat :=
  let a := rdLe e 0 6
  nfld a 10 12 * cwPer s (fcaChannel a) + a % 8

/-- Codewords of the block of an address. -/
def blockCws (s : State) (a : Nat) : Nat := chPages s (fcaChannel a) * cwPer s (fcaChannel a)

/-- The check of an extent for a tenant (07 R148; 06 R121): the three cases of BAD_EXTENT, the tenant's flash regions, then the unit. The
reserved bytes 12 to 15 are none of the three cases. -/
def extentFault (s : State) (t : Nat) (e : List Byte) : Option Status :=
  let a := rdLe e 0 6
  let st := rdLe e 6 2
  let len := rdLe e 8 4
  if !fcaValid s a ∨ 4095 < st ∨ len = 0 ∨ 1048576 < len then some .badExtent
  else if blockCws s a * 4096 < extentCw s e * 4096 + st + len then some .badExtent
  else if !inFlashRegion s t (fcaBlock a) (fcaBlock a) then some .outOfRegion
  else if !lunLive s (fcaLun a) then some .tierFenced
  else none

/-- The class of an engine's reads (07 R156). -/
def engineClass : FlashEngine → NandClass
  | .prefetch => .latency | .rescore => .latency | .clasp => .latency | .loader => .bulk

/-- The engine reads extents for requests of this opcode (07 R149): the stages of a PIPELINE, or the request that is its own. -/
def engineServes (e : FlashEngine) (opcode : Nat) : Bool :=
  match e with
  | .prefetch => opcode == 0x15 || opcode == 0x20
  | .rescore => opcode == 0x17 || opcode == 0x20
  | .clasp => opcode == 0x18 || opcode == 0x20
  | .loader => opcode == 0x1B

/-- The read that an engine makes of an extent for a tenant. -/
def extentJob (s : State) (tag : Nat) (cls : NandClass) (t : Nat) (e : List Byte) : ExtentRead :=
  ⟨tag, cls, t, 0, e, fcaBlock (rdLe e 0 6), extentCw s e, rdLe e 6 2, rdLe e 8 4, 0, 0, [], [], none⟩

/-- An engine asks for an extent on behalf of a request: a bad one ends at once, any other is queued (07 R148, R155). -/
def extentRead (s : State) (id tag : Nat) (eng : FlashEngine) (e : List Byte) : State :=
  match look s.requests tag with
  | none => s
  | some r =>
    if (look s.flash.reads id).isSome || !engineServes eng r.opcode then s
    else
      let rd := extentJob s tag (engineClass eng) r.tenant e
      match extentFault s r.tenant e with
      | some st => endRead s id rd (some st)
      | none => ensureRead s id rd

/-! ## Issue, polls and timeouts (07 R141, R142, R156, R157) -/

/-- Rank of a waiting command (07 R156): an update that has waited 10 ms goes before reads of items 2 and 3. -/
def nandRank (aged : Bool) (c : NandCmd) : Nat :=
  match c.cls with
  | .reRead => 0 | .update => if aged then 1 else 4 | .latency => 2 | .bulk => 3

/-- No command accepted earlier touches the block of the i-th waiting command (07 R157); a re-read's page was accepted before. -/
def blockTurn (q : List NandCmd) (i : Nat) : Bool :=
  match q[i]? with
  | none => false
  | some c => (q.take i).all (fun d => d.op.block != c.op.block)

/-- Position of the command of a LUN that is issued next: the first rank that has one, in it the tenant whose turn it is, else the
oldest (07 R156). -/
def nextIssue (q : List NandCmd) (t : NandTurn) : Option Nat :=
  let ok := (upto q.length).filter (blockTurn q)
  (upto 5).findSome? (fun k =>
    let here := ok.filter (fun i => match q[i]? with | some c => nandRank t.aged c == k | none => false)
    (here.find? (fun i => t.tenant.isSome && (q[i]?.map (·.tenant)) == t.tenant)).or here.head?)

/-- Planes of a LUN of a channel (07 FLS_CH_CFG). -/
def planesOf (s : State) (ch : Nat) : Nat := 2 ^ fld (chCfg s ch) 8 2

/-- Two waiting commands can be parts of one multi-plane operation (07 R139): of one kind, on different planes. -/
def planeMates (s : State) (lun : Nat) (q : List NandCmd) (i j : Nat) : Bool :=
  match q[i]?, q[j]? with
  | some c, some d => c.op.sameKind d.op && decide (c.op.block % planesOf s (lun / 32) ≠ d.op.block % planesOf s (lun / 32))
  | _, _ => false

/-- The commands issued together with the i-th (07 R154): those that the controller joins to it, as far as they may go. -/
def issueParts (s : State) (lun : Nat) (q : List NandCmd) (i : Nat) (also : List Nat) : List Nat :=
  also.foldl (fun is k => if blockTurn q k && is.all (planeMates s lun q k) then is ++ [k] else is) [i]

/-- Commands in flight on a channel (07 R154). -/
def inFlightOn (s : State) (ch : Nat) : Nat := (s.flash.inFlight.filter (fun p => p.1 / 32 == ch)).length

/-- A free LUN takes its next operation (07 R154 to R157), at the read-retry level it needs (R151). -/
def nandIssue (s : State) (lun : Nat) (t : NandTurn) : State :=
  let q := lunQueue s lun
  if (look s.flash.inFlight lun).isSome ∨ !lunLive s lun ∨ 64 ≤ inFlightOn s (lun / 32) then s
  else match nextIssue q t with
    | none => s
    | some i => match q[i]? with
      | none => s
      | some c =>
        let is := issueParts s lun q i t.planes
        let parts := is.filterMap (fun k => q[k]?)
        let rest := ((upto q.length).filter (fun k => !is.contains k)).filterMap (fun k => q[k]?)
        emit (setFlight (setQueue (setLevel s lun c.op.levelCode) lun rest) lun (some ⟨parts, false, false⟩)) (.nand lun (parts.map (·.op)))

/-- NAND_COMMAND_ISSUE (07 R156). -/
def execNandCommandIssue (lun : Nat) (turn : NandTurn) (s : State) : Result := .next (if alive s then nandIssue s lun turn else s)

/-- The pages of a block leave the model's record of what was programmed. -/
def erasePages (m : KMap PageData) (b : Nat) : KMap PageData := m.filter (fun p => p.1 / 2 ^ 12 != b)

/-- A program breaks a rule of R160 that the model can see: its page, or a later one of its block, was programmed since the
block was last erased. -/
def programBreaks (s : State) (p : Nat) : Bool := s.flash.pages.any (fun x => decide (x.1 / 2 ^ 12 = p / 2 ^ 12) && decide (p ≤ x.1))

/-- The effect of one part of an array operation that has ended well. -/
def nandEffect (s : State) (c : NandCmd) : State :=
  match c.op with
  | .read _ _ _ => s
  | .program p =>
    let v := if programBreaks s p then PageData.undef else PageData.data c.data
    { s with flash := { s.flash with pages := place s.flash.pages p v } }
  | .erase b =>
    { s with flash := { s.flash with pages := erasePages s.flash.pages b,
                                     erased := if s.flash.erased.contains b then s.flash.erased else s.flash.erased ++ [b] } }

/-- Updates have ended; when a job has no more of them its entry has ended. -/
def updateEnded (s : State) (lun : Nat) : State :=
  match look s.flash.jobs (lun / 128) with
  | some j => if j.work = .updates ∧ updatesWait s (lun / 128) = false ∧ updatesFly s (lun / 128) = false then entryDone s (lun / 128) else s
  | none => s

/-- A target reports one part of an update as failed (07 R161): the block joins the grown bad-block list, and the job of the facet, whose
update it is, will stop at its entry. -/
def updateFailed (s : State) (lun : Nat) (op : NandOp) : State :=
  let b := op.block
  let f := lun / 128
  let full := decide (4096 ≤ s.nor.badBlocks.length) && !s.nor.badBlocks.contains b
  let s := { s with flash := { s.flash with pages := nandBroken s.flash.pages op } }
  let s := if s.nor.badBlocks.contains b then s
    else if full then { s with flash := { s.flash with refused := s.flash.refused ++ [b] } }
    else norKeep s { s.nor with badBlocks := s.nor.badBlocks ++ [b] }
  let (fca, what) := match op with | .program p => (p * 2 ^ 10, 2) | _ => (b * 2 ^ 22, 1)
  let s := raise s 0 .flashBlockBad 3 f 0xFF (fca + what * 2 ^ 56)
  match look s.flash.jobs f with
  | some j => dropUpdates (setJob s f { j with after := if j.after = 0 then (if full then 4 else 2) else j.after, cut := true }) f
  | none => s

/-- The parts of an update end, each well or not. -/
def updateParts (s : State) (lun : Nat) (f : NandFlight) (which : List Nat) : State :=
  let bad := fun (i : Nat) => decide (f.parts.length = 1) || which.contains i
  updateEnded (((upto f.parts.length).zip f.parts).foldl (fun s p => if bad p.1 then updateFailed s lun p.2.op else nandEffect s p.2)
    (setFlight s lun none)) lun

/-- The target is taken offline: its bit is set, FENCE_CHANGED names it, and its channel follows when no present target of it is
left (07 R142); the grants are evaluated (06 R131). -/
def targetLost (s : State) (lun : Nat) : State :=
  let tgt := lun / 4
  let ch := lun / 32
  let s := markFenced s 7 tgt 7
  if (upto 8).all (fun e => !bitOf (chCfg s ch) (24 + e) || targetOff s (8 * ch + e)) then fenceUnit s 6 ch 7 else evalNow s

/-- An operation passes its timeout or its target does not answer (07 R142). -/
def nandTimeout (s : State) (lun : Nat) : State :=
  match look s.flash.inFlight lun with
  | none => s
  | some f =>
    if f.done then s
    else if f.retried then targetLost s lun
    else emit (emit (setFlight s lun (some { f with retried := true })) (.nandReset lun)) (.nand lun (f.parts.map (·.op)))

/-- A page read is ready: the codewords that reads wait for are selected, and a page that a scan waits for is ticked off; with the last
of them the scan's bytes go to the host (07 R139, R159). -/
def readReady (s : State) (lun : Nat) (f : NandFlight) : State :=
  let s := setFlight s lun (some { f with done := true })
  let wants := (s.flash.reads.filter (fun p => f.parts.any (fun c => c.num == p.2.waits))).map (fun p => p.2.fca s)
  let s := wants.eraseDups.foldl (fun s a => selectCw s lun a) s
  let fct := lun / 128
  let s := match look s.flash.jobs fct with
    | some j => match j.work with
      | .scan left marks a b =>
        let left := left.filter (fun p => !f.parts.any (fun c => c.op == .read p 0 0))
        if left.isEmpty then
          jobFlush (setJob s fct { j with work := .write a ((upto marks.length).map (fun i =>
            if s.nor.badBlocks.contains (b + i) then 2#8 else if marks.getD i false then 1#8 else 0#8)) }) fct
        else setJob s fct { j with work := .scan left marks a b }
      | _ => s
    | none => s
  releaseLun s lun

/-- A status poll answers (07 R139, R141, R142, R161). A page read reports no failure of its own: decoding judges it. -/
def statusPoll (s : State) (lun : Nat) (st : NandStatus) : State :=
  match look s.flash.inFlight lun with
  | none => s
  | some f =>
    if f.done then s
    else
      let s := emit s (.nandStatus lun (decide (fld (chCfg s (lun / 32)) 10 2 ≠ 0)))
      match st with
      | .busy => s
      | .noAnswer => nandTimeout s lun
      | .ready => if f.isUpdate then updateEnded (f.parts.foldl nandEffect (setFlight s lun none)) lun else readReady s lun f
      | .failed which => if f.isUpdate then updateParts s lun f which else readReady s lun f

/-- READ_STATUS_POLL (07 R141). -/
def execReadStatusPoll (lun : Nat) (st : NandStatus) (s : State) : Result := .next (if alive s then statusPoll s lun st else s)

/-- NAND_TIMEOUT (07 R142). -/
def execNandTimeout (lun : Nat) (s : State) : Result := .next (if alive s then nandTimeout s lun else s)

/-- ZQ_CALIBRATION_SHORT (07 R139): each NV-LPDDR4 target, by one of its LUNs. -/
def execZqCalibrationShort (lun : Nat) (s : State) : Result :=
  .next (if alive s && lunLive s lun && bitOf (chCfg s (lun / 32)) (24 + lun / 4 % 8) && decide (4 ≤ fld (chCfg s (lun / 32)) 12 4) then
    emit s (.zq lun) else s)

/-! ## Decoding (07 R144, R145, R150 to R153) -/

/-- CRC-32C of a sector: over CW_ADDR and its 512 bytes (07 R145). -/
def sectorCrc (addr data : List Byte) : Nat := (crc32c (addr ++ data)).toNat

/-- Bytes 0 to 4,143 of the codeword of the 4,096 bytes of DATA at an FCA: DATA, SECTOR_CRC, CW_ADDR, FORMAT, reserved (07 R144). -/
def codewordHead (fca : Nat) (data : List Byte) : List Byte :=
  let addr := leBytes 6 fca
  data ++ (upto 8).flatMap (fun i => leBytes 4 (sectorCrc addr (slice data (512 * i) 512))) ++ addr ++ [1#8] ++ List.replicate 9 0#8

/-- The codeword that the controller programs: its LDPC parity, whose code the spec does not give, follows (07 R144, R146; note 147). -/
def buildCodeword (fca : Nat) (data : List Byte) : List Byte :=
  let h := codewordHead fca data
  h ++ (upto 504).map (Config.ldpcParity h)

/-- Zero bits of a codeword. -/
def zeroBits (cw : List Byte) : Nat := (cw.map (fun b => 8 - popN 8 b.toNat)).sum

/-- What the array holds at a codeword, as far as the model knows it (07 R157, R160): programmed bytes, erased, undefined, or
what the transfer shows. -/
inductive CwSource where
  | known (cw : List Byte) | erased | undef | shown
  deriving DecidableEq, Repr

/-- The source of the codeword at an FCA. -/
def cwSource (s : State) (fca : Nat) : CwSource :=
  match look s.flash.pages (fcaPage fca) with
  | some (.data d) => .known (buildCodeword fca (slice d (4096 * (fca % 8)) 4096))
  | some .undef => .undef
  | none => if s.flash.erased.contains (fcaBlock fca) then .erased else .shown

/-- Sectors of a decoded codeword whose CRC fails, among those from byte `off` on, n bytes (07 R152). -/
def badSectors (cw : List Byte) (off n : Nat) : List Nat :=
  (rangeFrom (off / 512) ((off + n - 1) / 512 - off / 512 + 1)).filter (fun i =>
    sectorCrc (slice cw 4128 6) (slice cw (512 * i) 512) ≠ rdLe cw (4096 + 4 * i) 4)

/-- Facet of a channel's flash controller. -/
def fcaFacet (a : Nat) : Nat := fcaChannel a / 4

/-- Poisonings of one codeword's delivery: one for each flit of the read that carries poisoned bytes and was not counted
before (08 R174). `ranges` are offsets in the delivered data. -/
def flashPoison (s : State) (t fca : Nat) (ranges : List (Nat × Nat)) (last : Option Nat) : State × Option Nat :=
  let flits := (ranges.flatMap (fun p => rangeFrom (flitOf p.1) (flitOf (p.1 + p.2 - 1) - flitOf p.1 + 1))).eraseDups
  (flits.filter (fun k => some k != last)).foldl (fun x k => (poisoning x.1 (fcaFacet fca) .flash true fca (some t), some k)) (s, last)

/-- Bytes of flit `k` of a read among those delivered from offset `base` on, n bytes. -/
def flitPart (base n k : Nat) : Option (Nat × Nat) :=
  let lo := max base (flitStart k)
  let hi := min (base + n) (flitStart (k + 1))
  if lo < hi then some (lo, hi - lo) else none

/-- Delivers the bytes of the present codeword, some of them poisoned, across the fabric to the reader, and moves on (07 R147, R149, R151,
R152; 08 R168): the target returns to its default level. -/
def deliverCw (s : State) (id : Nat) (r : ExtentRead) (fab : Nat × FabricSeen) (cw : List Byte) (bad : Nat → Nat → List (Nat × Nat)) : State :=
  let n := min r.left (4096 - r.off)
  let base := r.data.length
  let fca := r.fca s
  let op := r.op s
  let ranges := (bad r.off n).map (fun p => (base + (p.1 - r.off), p.2))
  let (s, last) := flashPoison s r.tenant fca ranges r.badFlit
  let torn := fab.2.bad.filterMap (fun k => (flitPart base n k).map (fun p => (k, p)))
  let seen := (ranges.flatMap (fun p => rangeFrom (flitOf p.1) (flitOf (p.1 + p.2 - 1) - flitOf p.1 + 1)))
  let s := fabricMeets s fab.1 ⟨fab.2.replays, fab.2.corrected, torn.map (·.1)⟩ ((torn.map (·.1)).filter (fun k => !seen.contains k)) true
    (fun _ => fca) (some r.tenant)
  let r' := { r with cw := r.cw + 1, off := 0, left := r.left - n, level := 0, soft := 0,
                     data := r.data ++ (slice cw r.off n ++ List.replicate (n - (slice cw r.off n).length) 0#8),
                     bad := r.bad ++ ranges.map (fun p => (p.1, p.2, Origin.flash)) ++ torn.map (fun p => (p.2.1, p.2.2, Origin.fabric)),
                     badFlit := last }
  let s := if op.levelCode = 0 then s else setLevel s op.lun 0
  let s := if r'.left = 0 then endRead s id r' none else ensureRead s id r'
  releaseLun s op.lun

/-- Every byte asked of a codeword. -/
def allBad (off n : Nat) : List (Nat × Nat) := [(off, n)]

/-- The bytes asked that lie in a sector, as an offset and a length. -/
def sectorPart (off n i : Nat) : Nat × Nat :=
  let lo := max off (512 * i)
  (lo, min (off + n) (512 * i + 512) - lo)

/-- A codeword has decoded at a level, or by soft decision (07 R150 to R153). -/
def decoded (s : State) (id : Nat) (r : ExtentRead) (fab : Nat × FabricSeen) (cw : List Byte) : State :=
  let f := fcaFacet (r.fca s)
  let soft := decide (r.soft ≠ 0)
  let s := bump s (fKey f (if soft then 0x30038 else if r.level = 0 then 0x30030 else 0x30034)) 0 32 1
  let s := if soft ∨ (1 ≤ r.level ∧ regFld s (fKey f 0x30200) 8 4 ≤ r.level) then
      raise s 0 .flashWeak 3 f 0xFF (r.fca s + r.level * 2 ^ 48 + (if soft then 2 ^ 52 else 0))
    else s
  if rdLe cw 4128 6 ≠ r.fca s then deliverCw (bump s (fKey f 0x30040) 0 32 1) id r fab cw allBad
  else
    let n := min r.left (4096 - r.off)
    let bs := badSectors cw r.off n
    deliverCw (bump s (fKey f 0x3003C) 0 16 bs.length) id r fab cw (fun off n => bs.map (sectorPart off n))

/-- A codeword that no step decodes (07 R152). -/
def uncorrectable (s : State) (id : Nat) (r : ExtentRead) (fab : Nat × FabricSeen) (cw : List Byte) : State :=
  deliverCw (bump s (fKey (fcaFacet (r.fca s)) 0x3003C) 16 16 1) id r fab cw allBad

/-- Read-retry levels tried for a LUN's target (07 R151): those its parameter page declares, up to FLS_RETRY_X.MAX. -/
def retryLevels (s : State) (lun : Nat) : Nat :=
  min (fld (regGet s (fKey (lun / 128) 0x30200)) 0 4) (match look s.flash.targets (lun / 4) with | some t => t.retries | none => 0)

/-- The page is read again for a read, at another level or for soft decision, and its present data leave the LUN. -/
def readAgain (s : State) (id : Nat) (r : ExtentRead) (lun : Nat) : State := releaseLun (ensureRead s id r) lun

/-- The present codeword did not decode (07 R151): the next read-retry level while there is one, then two soft reads unless SOFT_OFF, then
none. -/
def retryCw (s : State) (id : Nat) (r : ExtentRead) (fab : Nat × FabricSeen) (cw : List Byte) : State :=
  let lun := (r.op s).lun
  if r.soft ≠ 0 then uncorrectable s id r fab cw
  else if r.level < retryLevels s lun then readAgain s id { r with level := r.level + 1 } lun
  else if !bitOf (regGet s (fKey (fcaFacet (r.fca s)) 0x30200)) 16 then readAgain s id { r with soft := 1 } lun
  else uncorrectable s id r fab cw

/-- The read fails on an erased codeword, none of whose bytes is delivered (07 R150). -/
def erasedCw (s : State) (id : Nat) (r : ExtentRead) : State :=
  let op := r.op s
  releaseLun (endRead (if op.levelCode = 0 then s else setLevel s op.lun 0) id r (some .erasedRead)) op.lun

/-- A codeword of a read has been transferred (07 R150 to R153). Soft decision needs the second of its two reads too. -/
def codewordDecode (s : State) (id : Nat) (ok : Bool) (fab : Nat × FabricSeen) (cw : List Byte) : State :=
  match look s.flash.reads id with
  | none => s
  | some r =>
    if !transfers s (r.op s).lun r.waits then s
    else match cwSource s (r.fca s) with
      | .erased => erasedCw s id r
      | .undef => uncorrectable s id r fab cw
      | .known k =>
        if r.soft = 1 then readAgain s id { r with soft := 2 } (r.op s).lun
        else if ok then decoded s id r fab k else retryCw s id r fab k
      | .shown =>
        if decide (cw.length = 4648) && decide (zeroBits cw < 64) then erasedCw s id r
        else if r.soft = 1 then readAgain s id { r with soft := 2 } (r.op s).lun
        else if ok then decoded s id r fab cw else retryCw s id r fab cw

/-- CODEWORD_DECODE (07 R151). -/
def execCodewordDecode (id : Nat) (decodes : Bool) (fabric : Nat × FabricSeen) (cw : List Byte) (s : State) : Result :=
  .next (if alive s then codewordDecode s id decodes fabric cw else s)

/-! ## Flash jobs (07 R158 to R162) -/

/-- START (07 R162): ignored while a job runs, refused unless SEALED. A list of 0 entries is done at once. -/
def jobStart (s : State) (f port : Nat) : State :=
  if (look s.flash.jobs f).isSome then s
  else if !isSealedNow s then jobStatus s f 3 5 0
  else
    let n := regFld s (fKey f 0x30108) 0 16
    if n = 0 then jobStatus s f 2 0 0
    else jobAsk (jobStatus (setJob s f ⟨port, pair (regGet s) (fKey f 0x30100), n, 0, .fetch, 0, false⟩) f 1 0 0) f

/-- FLS_JOB_START (07 R162). -/
def execFlsJobStart (facet port : Nat) (s : State) : Result :=
  .next (if alive s && decide (facet < 8) && fabricLive s facet && decide (port < 2) then jobStart s facet port else s)

/-- FLS_JOB_ABORT (07 R162): the reason is ABORTED. -/
def execFlsJobAbort (facet : Nat) (s : State) : Result :=
  .next (if alive s && decide (facet < 8) && fabricLive s facet then stopJob s facet 7 else s)

/-- A job waits for the data of its next entry; one of a function in D3hot, or of a fenced port, pauses (16 R350, 02 R46). -/
def jobReady (s : State) (f : Nat) : Option FlashJob :=
  match look s.flash.jobs f with
  | some j => if alive s && isSealedNow s && decide (j.work = .fetch) && !(funcOf s ⟨j.port, 0⟩).d3hot && hostLive s (portFacet j.port) then some j else none
  | none => none

/-- The checks that every entry has (07 R158, R159): the list read, reserved fields, ranges, this facet (note 146). -/
def entryBad (s : State) (f : Nat) (e : List Byte) : Bool :=
  let op := rdB e 0
  let n := rdLe e 2 2
  let a := rdLe e 4 6
  let ch := fcaChannel a
  decide (op = 0) || decide (4 < op) || decide (rdB e 1 ≠ 0) || !zeroAt e 10 6 || !zeroAt e 24 8 || decide (a % 8 ≠ 0) ||
  !fcaValid s a || decide (ch / 4 ≠ f) || decide (n = 0) || (decide (op ≠ 1) && decide (rdLe e 16 8 % 4096 ≠ 0)) ||
  (if op = 1 ∨ op = 3 then decide (chBlocks s ch < nfld a 22 16 + n)
   else decide (4096 < n) || decide (chPages s ch < nfld a 10 12 + n))

/-- Runs one entry of a facet's job when it is of the given operation and its list read is good. Poisoned list data, and a list
address that does not translate, fail the entry. -/
def runEntry (s : State) (f op : Nat) (e : List Byte) (st : ReadStatus) (go : State → FlashJob → State) : State :=
  match jobReady s f with
  | none => s
  | some j =>
    let t := hostBack s ⟨j.port, 0⟩ (j.addr + 32 * j.entry) 32
    match heard s ⟨j.port, 0⟩ st with
    | .poisoned => stopJob (hostPoison t ⟨j.port, 0⟩ 32) f 1
    | .xlate => stopJob t f 1
    | .good =>
      if rdB e 0 ≠ op ∧ 1 ≤ rdB e 0 ∧ rdB e 0 ≤ 4 then s
      else
      let s := t
      if entryBad s f e then stopJob s f 1
      else if !lunLive s (fcaLun (rdLe e 4 6)) then stopJob s f 8
      else go s j

/-- A block is refused to programs and erases (07 R161). -/
def blockRefused (s : State) (b : Nat) : Bool := s.nor.badBlocks.contains b || s.flash.refused.contains b

/-- Queues the updates of an entry, each with what it writes; with none, the entry has ended. `after` stops the job once they have ended,
and then the entry has work that will not run. -/
def queueUpdates (s : State) (f : Nat) (j : FlashJob) (ops : List (NandOp × List Byte)) (after : Nat) : State :=
  let s := setJob s f { j with work := .updates, after := after, cut := decide (after ≠ 0) }
  let s := ops.foldl (fun s c => enqueue s c.1 .update 0 c.2) s
  if ops.isEmpty then entryDone s f else s

/-- ERASE (07 R159, R161): blocks up to the first refused one. -/
def jobErase (f : Nat) (e : List Byte) (s : State) (j : FlashJob) : State :=
  let bs := rangeFrom (fcaBlock (rdLe e 4 6)) (rdLe e 2 2)
  let ok := bs.takeWhile (fun b => !blockRefused s b)
  queueUpdates s f j (ok.map (fun b => (.erase b, []))) (if ok.length < bs.length then 3 else 0)

/-- JOB_ERASE (07 R159). -/
def execJobErase (facet : Nat) (entry : List Byte) (st : ReadStatus) (s : State) : Result :=
  .next (runEntry s facet 1 entry st (jobErase facet entry))

/-- PROGRAM (07 R146, R159, R161; 08 R170, Corners): the host buffer is read, pages before the first whose data came poisoned or not at all are
programmed, and that one stops the job with BAD_ENTRY. -/
def jobProgram (f : Nat) (e data : List Byte) (dataSt : List ReadStatus) (s : State) (j : FlashJob) : State :=
  let a := rdLe e 4 6
  let n := rdLe e 2 2
  let sz := 4096 * cwPer s (fcaChannel a)
  let fn : FnId := ⟨j.port, 0⟩
  if blockRefused s (fcaBlock a) then stopJob s f 3
  else if data.length ≠ n * sz then s
  else
    let sts := (upto n).map (fun i => heard s fn (dataSt.getD i .good))
    let ok := (sts.takeWhile (fun st => st == .good)).length
    let s := hostBack (hostAsk s fn (rdLe e 16 8) (n * sz)) fn (rdLe e 16 8) (n * sz)
    let s := if sts[ok]? = some .poisoned then hostPoison s fn sz else s
    queueUpdates s f j ((upto ok).map (fun i => (.program (fcaPage a + i), slice data (i * sz) sz))) (if ok < n then 1 else 0)

/-- JOB_PROGRAM (07 R159). -/
def execJobProgram (facet : Nat) (entry : List Byte) (st : ReadStatus) (data : List Byte) (dataSt : List ReadStatus) (s : State) : Result :=
  .next (runEntry s facet 2 entry st (jobProgram facet entry data dataSt))

/-- Queues a page read of a scan, unless one whose data has not come yet serves it. -/
def scanPage (s : State) (p : Nat) : State :=
  match queuedRead s (.read p 0 0) with
  | some n => if transfers s (NandOp.lun (.read p 0 0)) n then enqueue s (.read p 0 0) .bulk 0 [] else s
  | none => enqueue s (.read p 0 0) .bulk 0 []

/-- SCAN (07 R159): the first and the last page of each block are read through the queue; `marks` tells of each block whether the ONFI
defect mark will be found in either. -/
def jobScan (f : Nat) (e : List Byte) (marks : List Bool) (s : State) (j : FlashJob) : State :=
  let a := rdLe e 4 6
  let b := fcaBlock a
  let n := rdLe e 2 2
  if marks.length ≠ n then s
  else
    let ps := ((upto n).flatMap (fun i => [(b + i) * 4096, (b + i) * 4096 + (chPages s (fcaChannel a) - 1)])).eraseDups
    ps.foldl scanPage (setJob s f { j with work := .scan ps marks (rdLe e 16 8) b })

/-- JOB_SCAN (07 R159). -/
def execJobScan (facet : Nat) (entry : List Byte) (st : ReadStatus) (marks : List Bool) (s : State) : Result :=
  .next (runEntry s facet 3 entry st (jobScan facet entry marks))

/-- READ (07 R156, R159): its pages are read as the extents of the engines are, by R150 to R153 and with the class of the weight
loader. -/
def jobRead (f : Nat) (e : List Byte) (id : Nat) (s : State) (j : FlashJob) : State :=
  let a := rdLe e 4 6
  if (look s.flash.reads id).isSome then s
  else
    let s := setJob s f { j with work := .reading (rdLe e 16 8) }
    ensureRead s id ⟨jobReader f, .bulk, 0, 0, [], fcaBlock a, nfld a 10 12 * cwPer s (fcaChannel a), 0,
      rdLe e 2 2 * cwPer s (fcaChannel a) * 4096, 0, 0, [], [], none⟩

/-- JOB_READ (07 R159). -/
def execJobRead (facet : Nat) (entry : List Byte) (st : ReadStatus) (id : Nat) (s : State) : Result :=
  .next (runEntry s facet 4 entry st (jobRead facet entry id))

end Sys2Proof.Machine
end

