-- ==== Sys2Proof/Machine/Weights.lean ====
section
/-! DEFINITION. Weights: LOAD_WEIGHTS, the checks of a troy image, its sources and segments, swaps and unloads, and serving peers
(15 R318 to R340). -/
namespace Sys2Proof.Machine

/-! ## The check of an image (R324, R330) -/

/-- First failing header field of the metadata, by image offset. -/
def troyHeaderBad (m : List Byte) : Option Nat :=
  let kind := tyKind m
  let gen := kind == 2
  let cross := kind == 1
  if rdLe m 0 4 ≠ 0x594F5254 then some 0
  else if rdLe m 4 2 ≠ 1 then some 4
  else if 2 < kind then some 6
  else if 1 < tyExec m ∨ (tyExec m = 1 ∧ !gen) then some 7
  else if tyLen m < tyMeta m ∨ 2 ^ 38 < tyLen m then some 16
  else if tyMeta m < 4096 ∨ 1048576 < tyMeta m ∨ tyMeta m % 4096 ≠ 0 ∨ m.length < tyMeta m then some 28
  else if crcBlanked m 24 ≠ BitVec.ofNat 32 (rdLe m 24 4) then some 24
  else if tyLayers m = 0 ∨ 255 < tyLayers m then some 32
  else if tyUnits m = 0 ∨ 4 < tyUnits m ∨ (tyExec m = 0 ∧ tyUnits m ≠ 1) then some 34
  else if rdB m 35 ≠ 0 then some 35
  else if tySegs m = 0 ∨ 65536 < tySegs m then some 36
  else if rdLe m 40 4 % 8 ≠ 0 ∨ tyMeta m < rdLe m 40 4 + 32 * tySegs m then some 40
  else if tyOps m = 0 ∨ 65536 < tyOps m then some 44
  else if rdLe m 48 4 % 8 ≠ 0 ∨ tyMeta m < rdLe m 48 4 + 16 * tyOps m then some 48
  else if tyHidden m = 0 ∨ 65536 < tyHidden m then some 52
  else if (if kind = 0 then tyVocab m ≠ 0 else tyVocab m < 256 ∨ 262144 < tyVocab m) then some 56
  else if tyContext m = 0 ∨ (if gen then 131072 else 65536) < tyContext m then some 60
  else if (if gen then tyHeads m = 0 ∨ 64 < tyHeads m else tyHeads m ≠ 0) then some 64
  else if (if gen then tyCache m = 0 ∨ 3 < tyCache m else tyCache m ≠ 0) then some 65
  else if (if gen then tyHeadDim m < 64 ∨ 256 < tyHeadDim m ∨ tyHeadDim m % 32 ≠ 0 else tyHeadDim m ≠ 0) then some 66
  else if 3 < tyEmb m then some 68
  else if (if kind = 0 then 2 < rdB m 69 else rdB m 69 ≠ 0) then some 69
  else if !zeroAt m 70 2 then some 70
  else if (if cross then tyFix m % 8 ≠ 0 ∨ tyMeta m < tyFix m + 8 + 4 * tyFixCount m else tyFix m ≠ 0) then some 72
  else if (if cross then 1024 < tyFixCount m else tyFixCount m ≠ 0) then some 76
  else if !zeroAt m 80 176 then some 80
  else if cross ∧ (rdLe m (tyFix m) 2 + rdLe m (tyFix m + 2) 2 + rdLe m (tyFix m + 4) 2 ≠ tyFixCount m ∨ !zeroAt m (tyFix m + 6) 2) then
    some (tyFix m)
  else none

/-- A layer and unit that a segment or an operation may name (R321). -/
def layerUnitOk (m : List Byte) (layer unit : Nat) : Bool :=
  if layer = 0xFFFF then decide (unit = 0) else decide (layer < tyLayers m) && decide (unit < tyUnits m)

/-- Offset of the first failing field of segment i, which follows image offset `prev` (R324). -/
def segBad (m block : List Byte) (prev i : Nat) : Option Nat :=
  let g := segOf m i
  let o := rdLe m 40 4 + 32 * i
  let len := (placeOf block g.hbm g.facet).2
  if !layerUnitOk m g.layer g.unit then some (if layerUnitOk m g.layer 0 then o + 2 else o)
  else if g.rsv ∨ (g.layer ≠ 0xFFFF ∧ g.hbm ≠ decide (tyExec m = 1)) then some (o + 3)
  else if g.off % 256 ≠ 0 ∨ g.off < tyMeta m ∨ g.off < prev then some (o + 8)
  else if g.dest % 256 ≠ 0 then some (o + 16)
  else if g.len = 0 ∨ tyLen m < g.off + g.len then some (o + 24)
  else if len < g.dest + g.len then some (o + 16)
  else none

/-- The segments in order, from number i on (R324). -/
def segsBad (m block : List Byte) : Nat → Nat → Nat → Option Nat
  | 0, _, _ => none
  | n + 1, i, prev =>
    match segBad m block prev i with
    | some o => some o
    | none => let g := segOf m i; segsBad m block n (i + 1) (g.off + g.len)

/-- The first segment whose destination overlaps that of an earlier one. -/
def destBad (m : List Byte) : List (Nat × Seg) → List Seg → Option Nat
  | [], _ => none
  | (i, g) :: rest, seen =>
    if seen.any (fun h => h.hbm == g.hbm && h.facet == g.facet && decide (h.dest < g.dest + g.len) && decide (g.dest < h.dest + h.len)) then
      some (rdLe m 40 4 + 32 * i + 16)
    else destBad m rest (g :: seen)

/-- Offset of the first failing field of operation i (R324; 02 R47). -/
def opBad (s : State) (m : List Byte) (i : Nat) : Option Nat :=
  let x := opOf m i
  let o := rdLe m 48 4 + 16 * i
  if !layerUnitOk m x.layer x.unit then some (if layerUnitOk m x.layer 0 then o + 2 else o)
  else if 2 < x.fmt then some (o + 3)
  else if x.k = 0 ∨ 65536 < x.k then some (o + 4)
  else if x.n = 0 ∨ 65536 < x.n then some (o + 8)
  else if x.rsv then some (o + 12)
  else match x.pin with
    | some p => if bitOf s.mfg.fuse p && !bitOf (fenceA s (p / 8)) (p % 8) then none else some (o + 12)
    | none => none

/-- The window of a streamed image does not fit on some facet, or a slice segment lies in it (R330). -/
def windowBad (m block : List Byte) : Option Nat :=
  if tyExec m ≠ 1 then none
  else if (upto 8).any (fun f => decide ((placeOf block false f).2 < 2 * windowHalf m f)) then some (rdLe m 40 4)
  else ((upto (tySegs m)).find? (fun i => let g := segOf m i; !g.hbm && decide (g.dest < 2 * windowHalf m g.facet))).map
    (fun i => rdLe m 40 4 + 32 * i + 16)

/-- The check of an image's metadata under a placement (R324): offset of the first field that fails. -/
def troyCheck (s : State) (m block : List Byte) : Option Nat :=
  match troyHeaderBad m with
  | some o => some o
  | none => match segsBad m block (tySegs m) 0 0 with
    | some o => some o
    | none => match destBad m ((upto (tySegs m)).zip (segsOf m)) [] with
      | some o => some o
      | none => match (upto (tyOps m)).findSome? (opBad s m) with
        | some o => some o
        | none => windowBad m block

/-! ## The bandwidth of a streamed image (R332, R228) -/

/-- Row cycles r and largest chunk of a format. -/
def fmtRows (fmt : Nat) : Nat × Nat := if fmt = 2 then (4, 128) else (1, 1024)

/-- The least finish time takes the next tile. -/
def giveTile (cost : Nat) (free : List Nat) : List Nat :=
  match free with
  | [] => []
  | x :: xs =>
    let lo := xs.foldl min x
    let i := ((x :: xs).findIdx (· == lo))
    setAt (x :: xs) i (lo + cost)

/-- Cycles of consecutive tiles on `a` arrays, each taking the next as it gets free (R228). -/
def makespan (a : Nat) (tiles : List Nat) : Nat := (tiles.foldl (fun free c => giveTile c free) (List.replicate a 0)).foldl max 0

/-- C_group of one operation of at most 65,536 rows (R227, R228). -/
def opCycles (fmt k n a rows : Nat) : Nat :=
  let (r, mm) := fmtRows fmt
  let tk := (k + 127) / 128
  let tn := (n + 127) / 128
  let chunks := List.replicate (rows / mm) mm ++ (if rows % mm = 0 then [] else [rows % mm])
  let tiles := chunks.length * tn
  let sp := if tiles < a then min ((a + tiles - 1) / tiles) tk else 1
  let lens := (upto sp).map (fun i => tk / sp + (if i < tk % sp then 1 else 0))
  makespan a (chunks.flatMap (fun m => (upto tn).flatMap (fun _ => lens.map (fun l => l * max (r * (m + 1)) 128)))) + 384

/-- C_group of an operation (R322): more than 65,536 rows run as consecutive operations. -/
def groupCycles (fmt k n a rows : Nat) : Nat :=
  ((upto (rows / 65536)).map (fun _ => opCycles fmt k n a 65536)).sum + (if rows % 65536 = 0 then 0 else opCycles fmt k n a (rows % 65536))

/-- ⌈B_f⌉ of a facet in GB/s for arrays whose lowest ceiling is `khz` (R332). -/
def bandNeed (m : List Byte) (a khz rows f : Nat) : Nat :=
  ((unitsOf m).map (fun x =>
    let cyc := (((opsOf m).filter (fun o => o.layer == x.1 && o.unit == x.2)).map (fun o => groupCycles o.fmt o.k o.n a rows)).sum
    if cyc = 0 then 0 else (unitBytes m x f * khz + cyc * 1000000 - 1) / (cyc * 1000000))).foldl max 0

/-- The reservation check of a streamed image (R332): its need, and the first facet whose reservation falls short. -/
def bandCheck (s : State) (t : Nat) (m : List Byte) (arrays : List Nat) (rows : Nat) : Nat × Option Nat :=
  let khz := ((arrays.map (fun p => pclkKhz (regFld s (pmaxAt p).1 (pmaxAt p).2 7))).min?).getD 0
  let needs := (upto 8).map (bandNeed m arrays.length khz rows)
  (needs.foldl max 0, (upto 8).find? (fun f => decide (fld (resvWord s (resvIndex t f .hbm)) 0 16 < needs.getD f 0)))

/-! ## The load block (R325) -/

/-- A source entry: KIND, ADDR, COUNT, and whether it is well formed. -/
structure Src where
  kind : Nat
  addr : Nat
  count : Nat
  deriving DecidableEq, Repr

/-- Source entry i of a load block. -/
def srcOf (block : List Byte) (i : Nat) : Src := let o := 256 + 32 * i; ⟨rdB block o, rdLe block (o + 8) 8, rdLe block (o + 16) 4⟩

/-- Number of sources: entries before the first KIND 0. -/
def srcCount (block : List Byte) : Nat := ((upto 4).find? (fun i => (srcOf block i).kind == 0)).getD 4

/-- A source entry is malformed. -/
def srcBad (block : List Byte) (i : Nat) : Bool :=
  let x := srcOf block i
  let o := 256 + 32 * i
  !zeroAt block (o + 1) 7 || !zeroAt block (o + 20) 12 ||
  (match x.kind with
   | 1 => decide (x.addr % 4096 ≠ 0) || decide (x.count ≠ 0)
   | 2 => decide (x.count = 0) || decide (65536 < x.count)
   | 3 => decide (nfld x.addr 6 2 ≠ 0) || decide (2 ^ 14 ≤ x.addr) || decide (x.count ≠ 0)
   | _ => true)

/-- A nonzero placement range lies inside one region of the tenant, on its own tier and facet (R325). -/
def placeBad (s : State) (t : Nat) (block : List Byte) (hbm : Bool) (f : Nat) : Option Status :=
  let (a, n) := placeOf block hbm f
  if a = 0 ∧ n = 0 then none
  else if n = 0 ∨ a % (if hbm then 2 ^ 21 else 65536) ≠ 0 then some .badField
  else if !inRegion s t a n ∨ !populated s a n then some .outOfRegion
  else if (if hbm then hbmOf f a && hbmOf f (a + n - 1) else onSlices f a && onSlices f (a + n - 1)) then none else some .outOfRegion

/-- Every check of a load block; two placements of one facet and tier lie in different tiers, so they cannot meet. -/
def blockBad (s : State) (t : Nat) (block : List Byte) : Option Status :=
  let n := srcCount block
  if n = 0 ∨ (upto n).any (srcBad block) then some .badField
  else (upto 8).findSome? (fun f => match placeBad s t block false f with | some st => some st | none => placeBad s t block true f)

/-- Two placements overlap on some facet and tier (R334). -/
def placesMeet (a b : List Byte) : Bool :=
  [false, true].any (fun h => (upto 8).any (fun f =>
    let x := placeOf a h f
    let y := placeOf b h f
    decide (x.1 < y.1 + y.2) && decide (y.1 < x.1 + x.2)))

/-! ## LOAD_WEIGHTS (R339) -/

/-- OP. -/
def lwOp (r : Request) : Nat := bodyB r 20 / 64
/-- The slot named. -/
def lwSlot (r : Request) : Nat := bodyLe r 16 4

/-- LOAD_WEIGHTS' check of its body and extension. -/
def loadBad (r : Request) : Bool :=
  let op := lwOp r
  decide (op = 3) || (nbit (bodyB r 20) 5 && decide (op ≠ 1)) || nbit (bodyB r 20) 4 || !bodyZero r 21 3 || decide (131072 < bodyLe r 32 4) ||
  decide (bodyLe r 24 8 % 64 ≠ 0) || !bodyZero r 36 28 || !zeroAt (extOf r) 0 64 ||
  (decide (op = 2) && (decide (bodyLe r 24 8 ≠ 0) || decide (bodyLe r 32 4 ≠ 0)))

/-- Checks of a LOAD_WEIGHTS against its slot (R318, R319, R337, R339): its body, the assignment, and the slot's state. -/
def slotRefusal (s : State) (r : Request) : Option Status :=
  let n := lwSlot r
  let t := troyOf s n
  if loadBad r then some .badField
  else if 64 ≤ n ∨ !(r.tenant == 0 || fld (forceGet s (aKey (0xA0400 + 4 * n))) 0 8 == r.tenant) ∨ t.unload.isSome then some .notFound
  else if t.state = .loading ∨ t.load.isSome ∨ t.claim.isSome ∨ t.swapWait.isSome then some .imageBusy
  else match lwOp r with
    | 0 => if t.state = .empty then none else some .imageBusy
    | 1 => if t.state = .ready then none else some .imageBusy
    | _ => if t.state = .empty then some .notFound else none

/-- A SWAP or UNLOAD acts on its slot as the slot's state at its fetch decides (R334, R337, Corners): one refused keeps its status; a SWAP
claims the slot, which IN_PLACE turns to LOADING; an UNLOAD makes the slot refuse every later descriptor. -/
def claimSlot (s : State) (tag : Nat) (r : Request) : State :=
  if r.opcode ≠ 0x1B ∨ r.headFault.isSome ∨ lwOp r = 0 ∨ lwOp r = 3 ∨ noService s then s
  else match slotRefusal s r with
    | some st => setRequest s tag { r with judged := some st }
    | none =>
      let n := lwSlot r
      let pinned := pinNames s (fun y => y == .troy n (troyOf s n).gen)
      if lwOp r = 2 then setTroy pinned n { troyOf s n with unload := some tag }
      else if nbit (bodyB r 20) 5 then setTroy pinned n { troyOf s n with claim := some tag, state := .loading }
      else setTroy s n { troyOf s n with claim := some tag }

/-- A request holds its slot since its fetch. -/
def holdsSlot (s : State) (tag : Nat) (r : Request) : Bool :=
  let t := troyOf s (lwSlot r)
  t.claim == some tag || t.unload == some tag

/-- The refusal of a LOAD_WEIGHTS that starts: what its fetch decided, or, for a LOAD, the slot as it is now. -/
def startRefusal (s : State) (tag : Nat) (r : Request) : Option Status :=
  if holdsSlot s tag r then none else match r.judged with | some st => some st | none => slotRefusal s r

/-- The state with a slot's load replaced. -/
def setLoad (s : State) (n : Nat) (l : TroyLoad) : State := setTroy s n { troyOf s n with load := some l }

/-- Asks a peer for a range of its image, in pieces of at most 1 MiB (19 Table - Message bodies; note 46). -/
def askPeer (s : State) (k slot : Nat) : Nat → Nat → Nat → State
  | 0, _, _ => s
  | fuel + 1, off, len =>
    if len = 0 then s
    else
      let n := min len 1048576
      askPeer (sendMessage s k (message 0x20 off (leBytes 1 slot ++ leBytes 7 0 ++ leBytes 8 off ++ leBytes 4 n ++ leBytes 4 0))) k slot fuel
        (off + n) (len - n)

/-- A load turns to its present source: a peer is asked for the image's first 4,096 bytes (R326, note 46). -/
def startSource (s : State) (n : Nat) : State :=
  match (troyOf s n).load with
  | none => s
  | some l =>
    let x := srcOf l.block l.src
    if x.kind ≠ 3 then setLoad s n { l with flow := none, pieces := [] }
    else match flowBar s with
      | some st => loadFail s n st 0
      | none =>
        let m := message 0x20 0 (leBytes 1 (nfld x.addr 8 6) ++ leBytes 7 0 ++ leBytes 8 0 ++ leBytes 4 4096 ++ leBytes 4 0)
        let (s, k) := openFlow s (nfld x.addr 0 6) 3 (.load n) m
        setLoad s n { l with flow := k, pieces := [] }

/-- A LOAD or SWAP starts (R325, R334). A SWAP that ends here leaves its slot as a failed load does: empty after IN_PLACE. -/
def loadStart (s : State) (tag : Nat) (r : Request) (mode : TroyMode) : State :=
  match startRefusal s tag r with
  | some st => finish s tag st [0, 0xFF000000, 0, 0]
  | none =>
    let n := lwSlot r
    if !someEngine s 5 then finish s tag .noEngine [0, 0xFF000000, 0, 0]
    else
      let x := match checkAccess s r.tenant (bodyLe r 24 8) 384 with
        | some st => (s, Got.fail st)
        | none => if !anySlice (bodyLe r 24 8) then (s, Got.fail .badField) else devRead s r.tenant (bodyLe r 24 8) 384
      match x.2 with
      | .wait => s
      | .fail st => finish x.1 tag st [0, 0xFF000000, 0, 0]
      | .ok block =>
        let s := x.1
        match blockBad s r.tenant block with
        | some st => finish s tag st [0, 0xFF000000, 0, 0]
        | none =>
          let t := troyOf s n
          let meets := match t.image with | some im => placesMeet im.block block | none => false
          if mode = .swap ∧ meets = true then finish s tag .badField [0, 0xFF000000, 0, 0]
          else
            let s := if mode = .inPlace then pinNames s (fun y => y == .troy n t.gen) else s
            let l : TroyLoad := ⟨tag, mode, block, 0, 0, 0, none, false, [], [], 0, decide (mode = .inPlace), none, []⟩
            startSource (setTroy s n { troyOf s n with load := some l, claim := none, state := if mode = .swap then t.state else .loading }) n

/-- A load of this request is under way. -/
def loadUnderWay (s : State) (tag : Nat) : Bool :=
  s.troy.any (fun p => (match p.2.load with | some l => l.tag == tag | none => false) ||
    (match p.2.swapWait with | some (g, _, _) => g == tag | none => false))

/-- Runs a LOAD_WEIGHTS that has not begun, when its OP is the one the command names. -/
def loadRun (s : State) (tag : Nat) (op : Nat) (f : State → Request → State) : State :=
  match running s tag 0x1B with
  | some r =>
    if lwOp r ≠ op ∨ loadUnderWay s tag then s
    else if noService s then finish s tag (serviceStatus s ((startRefusal s tag r).getD .noPartition)) [0, 0xFF000000, 0, 0]
    else f s r
  | none => s

/-- LOAD_WEIGHTS_LOAD (R326). An OP of 3 is refused here. -/
def execLoadWeightsLoad (tag : Nat) (s : State) : Result :=
  .next (match running s tag 0x1B with
    | some r => if lwOp r = 3 then finish s tag .badField [0, 0xFF000000, 0, 0] else loadRun s tag 0 (fun s r => loadStart s tag r .load)
    | none => s)

/-- LOAD_WEIGHTS_SWAP (R334). -/
def execLoadWeightsSwap (tag : Nat) (s : State) : Result :=
  .next (loadRun s tag 1 (fun s r => loadStart s tag r (if nbit (bodyB r 20) 5 then .inPlace else .swap)))

/-! ## Unloads and switches that wait (R334, R337) -/

/-- The unload that a request asked for has not started: it was fetched, and waits for its command. -/
def unloadPends (s : State) (tag : Nat) : Bool := match look s.requests tag with | some r => r.judged.isNone | none => false

/-- A slot's unload or switched swap ends once no request uses the image it waits for; earlier images that nothing uses are gone. -/
def troySettle (s : State) (n : Nat) : State :=
  let t := troyOf s n
  let s := match t.unload with
    | some tag =>
      if nameHeld s (.troy n t.gen) || unloadPends s tag then s
      else finish (setTroy s n { t with state := .empty, image := none, unload := none, gen := t.gen + 1 }) tag .ok [0, 0xFF000000, 0, 0]
    | none => s
  let t := troyOf s n
  let s := if t.olds.all (fun x => nameHeld s (.troy n x.1)) then s
    else setTroy s n { t with olds := t.olds.filter (fun x => nameHeld s (.troy n x.1)) }
  let t := troyOf s n
  match t.swapWait with
  | some (tag, g, ws) =>
    if nameHeld s (.troy n g) then s
    else finish (setTroy s n { t with swapWait := none, olds := t.olds.filter (fun x => x.1 != g) }) tag .ok ws
  | none => s

/-- LOAD_WEIGHTS with OP UNLOAD (R337): its slot has refused new descriptors since its fetch; it is judged OK and waits for those that
resolved the slot. -/
def unloadStart (s : State) (tag : Nat) (r : Request) : State :=
  match startRefusal s tag r with
  | some st => finish s tag st [0, 0xFF000000, 0, 0]
  | none =>
    let n := lwSlot r
    let s := pinNames s (fun y => y == .troy n (troyOf s n).gen)
    troySettle (setTroy (setRequest s tag { r with judged := some .ok }) n { troyOf s n with unload := some tag }) n

/-- LOAD_WEIGHTS_UNLOAD (R337). -/
def execLoadWeightsUnload (tag : Nat) (s : State) : Result := .next (loadRun s tag 2 (fun s r => unloadStart s tag r))

/-- SLOT_UNLOAD_DONE (09 R181; 15 R334, R337): each unload, and each swap that has switched, ends when its last request has
completed. -/
def execSlotUnloadDone (s : State) : Result :=
  .next (if alive s then (upto 64).foldl troySettle (clpEmpty (srchEmpty (tokEmpty s))) else s)

/-- IN_PLACE_SWAP_START (R334): the first byte may be written once every request on the old image has completed. -/
def swapStart (s : State) (n : Nat) : State :=
  match (troyOf s n).load with
  | some l => if l.waiting ∧ !nameHeld s (.troy n (troyOf s n).gen) then setLoad s n { l with waiting := false } else s
  | none => s

/-- IN_PLACE_SWAP_START (R334). -/
def execInPlaceSwapStart (slot : Nat) (s : State) : Result := .next (if alive s then swapStart s slot else s)

/-! ## Sources (R326 to R328) -/

/-- n bytes at an image offset out of a list of extents read for a request. -/
def extentsRead (s : State) (tag : Nat) : List (List Byte) → Nat → Nat → Got (List Byte)
  | _, _, 0 => .ok []
  | [], _, _ + 1 => .fail .badExtent
  | e :: es, off, n + 1 =>
    let len := rdLe e 8 4
    if len ≤ off then extentsRead s tag es (off - len) (n + 1)
    else
      let k := min (n + 1) (len - off)
      match flashBytes s tag e off k with
      | .ok b => (match extentsRead s tag es 0 (n + 1 - k) with | .ok c => .ok (b ++ c) | .wait => .wait | .fail st => .fail st)
      | .wait => .wait
      | .fail st => .fail st

/-- What a source gives for n bytes at an image offset: the bytes, a wait, a failure of the source, or one of the load. -/
inductive SrcGot where
  | ok (b : List Byte) | wait | source (st : Status) | load (st : Status)
  deriving DecidableEq, Repr

/-- The extent list of a NAND source, read from the tenant's slices (R325; 06 R127; 08 R174); other sources have none. -/
def srcList (s : State) (r : Request) (l : TroyLoad) : Reading (List (List Byte)) :=
  let x := srcOf l.block l.src
  if x.kind ≠ 2 then (s, .ok [])
  else if !anySlice x.addr then (s, .fail ((checkAccess s r.tenant x.addr (16 * x.count)).getD .badField))
  else Got.andThen (devRead s r.tenant x.addr (16 * x.count)) (fun s d => (s, .ok ((upto x.count).map (fun i => slice d (16 * i) 16))))

/-- n bytes at an image offset from a load's present source, whose extent list is given (R326, R327). A host address that does not
translate fails the load. -/
def srcGet (s : State) (r : Request) (l : TroyLoad) (es : List (List Byte)) (off n : Nat) : State × SrcGot :=
  let x := srcOf l.block l.src
  match x.kind with
  | 1 =>
    let y := hostGet s r (x.addr + off) n
    (y.1, match y.2 with
      | .ok b => .ok b | .wait => .wait | .fail st => if st = .xlateFault then .load st else .source st)
  | 2 => (s, match extentsRead s l.tag es off n with
    | .ok b => .ok b | .wait => .wait | .fail st => .source st)
  | _ =>
    let bs := (rangeFrom off n).map (hostByte l.pieces)
    (s, if bs.any Option.isNone then .wait else .ok (bs.map (fun b => match b with | some (v, _) => v | none => 0#8)))

/-- n bytes at an image offset from a load's present source (R326 to R328): a failure to read the extent list fails the load. -/
def srcRead (s : State) (r : Request) (l : TroyLoad) (off n : Nat) : State × SrcGot :=
  let x := srcList s r l
  match x.2 with
  | .ok es => srcGet x.1 r l es off n
  | .wait => (x.1, .wait)
  | .fail st => (x.1, .load st)

/-- The leading bytes of n at an image offset that a source gives clean, in whole flits of 256 (R327; 08 R170). -/
def cleanPrefix (s : State) (r : Request) (l : TroyLoad) (off n : Nat) : List Byte :=
  match (srcList s r l).2 with
  | .ok es => (((upto ((n + 255) / 256)).map (fun i => srcGet s r l es (off + 256 * i) (min 256 (n - 256 * i)))).takeWhile
      (fun x => match x.2 with | .ok _ => true | _ => false)).flatMap (fun x => match x.2 with | .ok b => b | _ => [])
  | _ => []

/-- The origin of the poison that a status names. -/
def poisonOrigin : Status → Option Origin
  | .poisonMemory => some .memory | .poisonFlash => some .flash | .poisonHost => some .host | .poisonFabric => some .fabric | _ => none

/-- A source fails (R327): the next one takes over, counted in WGT_FALLBACK; the last one's failure fails the load (R328). -/
def sourceFails (s : State) (n : Nat) (st : Status) : State :=
  match (troyOf s n).load with
  | none => s
  | some l =>
    let l := { l with failed := l.failed ||| 2 ^ l.src, firstStatus := if l.failed = 0 then statusCode st else l.firstStatus }
    if l.src + 1 < srcCount l.block then
      let s := match l.flow with | some k => abandonFlow s k 0x60 | none => s
      let f := match look s.requests l.tag with | some r => portFacet (requestFn r).port | none => 0
      startSource (setLoad (bump s (fKey f 0xA0804) 0 32 1) n
        { l with src := l.src + 1, flow := none, pieces := [], compared := false, asked := [] }) n
    else loadFail (setLoad s n l) n st 0

/-- The segments under way: the first 64 that are not complete, in image order (R326). -/
def inFlight (m : List Byte) (done : List Nat) : List Nat := ((upto (tySegs m)).filter (fun i => !done.contains i)).take 64

/-- A peer is asked for the segments under way that it has not been asked for (R326, R327, note 46). -/
def askSegments (s : State) (n : Nat) : State :=
  match (troyOf s n).load with
  | some l => match l.flow, l.metaOk with
    | some k, some m =>
      let slot := nfld (srcOf l.block l.src).addr 8 6
      let new := (inFlight m l.done).filter (fun i => !l.asked.contains i)
      let s := setLoad s n { l with asked := l.asked ++ new }
      new.foldl (fun s i => let g := segOf m i; askPeer s k slot (g.len / 1048576 + 1) g.off g.len) s
    | _, _ => s
  | none => s

/-- The facet with segments that an image's placement entry leaves empty, or the other way round (R325). -/
def entryMismatch (m block : List Byte) : Bool :=
  (upto 8).any (fun f => !(segsOf m).any (fun g => g.facet == f) &&
    !zeroAt block (32 * f) 32 && decide (windowHalf m f = 0))

/-- The metadata of a first source is checked (R324, R332). -/
def metaFirst (s : State) (n : Nat) (r : Request) (l : TroyLoad) (m : List Byte) : State :=
  match troyCheck s m l.block with
  | some o => loadFail s n .badImage o
  | none =>
    let streamed := decide (tyExec m = 1)
    if entryMismatch m l.block ∨ (bodyLe r 32 4 = 0) = streamed then loadFail s n .badField 0
    else if !streamed then askSegments (setLoad s n { l with metaOk := some m, compared := true }) n
    else
      let g := groupOf r (bodyB r 20 % 16)
      let arrays := groupArrays s r.tenant g
      if g = 0 then loadFail s n .notFound 0
      else if arrays.isEmpty then loadFail s n .noArray 0
      else
        let b := bandCheck s r.tenant m arrays (bodyLe r 32 4)
        let s := setLoad s n { l with need := b.1 }
        match b.2 with
        | some f => loadFail s n .resvInsufficient f
        | none => askSegments (setLoad s n { l with need := b.1, metaOk := some m, compared := true }) n

/-- Metadata of a source arrives (R324, R327): the first is checked, a later source's is compared byte for byte. -/
def metaArrives (s : State) (n : Nat) : State :=
  match (troyOf s n).load with
  | none => s
  | some l =>
    match look s.requests l.tag with
    | none => s
    | some r =>
      let take := fun (len : Nat) (go : State → List Byte → State) =>
        let x := srcRead s r l 0 len
        match x.2 with
        | .ok b => go x.1 b | .wait => keepReads s x.1 | .source st => sourceFails x.1 n st | .load st => loadFail x.1 n st 0
      take 4096 (fun s' h =>
        let len := rdLe h 28 4
        let ok := decide (4096 ≤ len) && decide (len ≤ 1048576) && decide (len % 4096 = 0)
        match l.metaOk with
        | none => if ok then take len (fun s m => metaFirst s n r l m) else metaFirst s' n r l h
        | some m => take m.length (fun s m' =>
            if m' = m then askSegments (setLoad s n { l with compared := true }) n else sourceFails s n .badImage))

/-- TROY_METADATA_ARRIVAL (R324). -/
def execTroyMetadataArrival (slot : Nat) (s : State) : Result := .next (if alive s then metaArrives s slot else s)

/-- WGT_BYTES of a facet after a segment: the MiB its placements have taken in this load, counted as they fill (note 47). -/
def countBytes (s : State) (m : List Byte) (done : List Nat) (g : Seg) : State :=
  let before := (((done.map (segOf m)).filter (fun h => h.facet == g.facet)).map (·.len)).sum
  bump s (fKey g.facet 0xA0800) 0 32 ((before + g.len) / 2 ^ 20 - before / 2 ^ 20)

/-- The last segment is complete (R326, R334): the slot is READY, or the swap switches. -/
def loadDone (s : State) (n : Nat) (l : TroyLoad) (m : List Byte) : State :=
  let t := troyOf s n
  let s := match l.flow with | some k => sendFin s k | none => s
  let im : Image := ⟨m, l.block⟩
  let ws := loadWords l (loadPages l) l.src 0
  match l.mode, t.image with
  | .swap, some old =>
    let s := pinNames s (fun y => y == .troy n t.gen)
    let lost := decide (t.state = .lost)
    troySettle (setTroy s n { t with
      state := .ready, image := some im, gen := t.gen + 1, load := none,
      olds := if lost then t.olds else t.olds ++ [(t.gen, old)], swapWait := some (l.tag, t.gen, ws) }) n
  | _, _ => finish (setTroy s n { t with state := .ready, image := some im, gen := t.gen + 1, load := none }) l.tag .ok ws

/-- The flits of a segment in which the fabric code found an error that it could not correct (08 R168). -/
def badFlits (g : Seg) (fab : FabricSeen) : List Nat := (fab.bad.eraseDups).filter (fun k => decide (flitStart k < g.len))

/-- A segment is written at its destination (08 R169): flits that the fabric spoils are stored poisoned. -/
def segmentWrite (s : State) (t a : Nat) (g : Seg) (b : List Byte) (fab : FabricSeen) : State :=
  let ks := badFlits g fab
  let s := fabricMeets (engWrite s t a b) g.facet { fab with bad := ks } ks false (fun k => a + flitStart k) (some t)
  ks.foldl (fun s k => poisonRange s (a + flitStart k) (min g.len (flitStart (k + 1)) - flitStart k) .fabric) s

/-- A source fails within a segment (R327): the clean flits before its first poisoned one have been written, and so has that one, with its
poison, when poison is what failed it. The segment is rewritten whole from the next source. -/
def segmentTorn (s : State) (r : Request) (l : TroyLoad) (a : Nat) (g : Seg) (st : Status) : State :=
  match poisonOrigin st with
  | some o =>
    let b := cleanPrefix s r l g.off g.len
    let s := if b.isEmpty then s else engWrite s r.tenant a b
    poisonRange s (a + b.length) (min 256 (g.len - b.length)) o
  | none => s

/-- A segment has been accepted whole (R326, R328): it is one of those under way, of a source whose metadata has been accepted. Poison at
its destination fails the load at once. -/
def segmentDone (s : State) (n : Nat) (x : SegDone) : State :=
  match (troyOf s n).load with
  | none => s
  | some l =>
    match l.metaOk, look s.requests l.tag with
    | some m, some r =>
      if l.waiting ∨ !l.compared ∨ !(inFlight m l.done).contains x.seg then s
      else
        let g := segOf m x.seg
        let a := segAddr ⟨m, l.block⟩ g
        match checkAccess s r.tenant a g.len with
        | some st => loadFail s n st 0
        | none =>
          let y := srcRead s r l g.off g.len
          match y.2 with
          | .wait => keepReads s y.1
          | .source st => sourceFails (segmentTorn y.1 r l a g st) n st
          | .load st => loadFail y.1 n st 0
          | .ok b =>
            let s := segmentWrite y.1 r.tenant a g b x.fabric
            match memPoison s a g.len with
            | some o => loadFail s n (poisonStatus o) 0
            | none =>
              let s := countBytes s m l.done g
              let l := { l with done := l.done ++ [x.seg] }
              if l.done.length = tySegs m then loadDone s n l m else askSegments (setLoad s n l) n
    | _, _ => s

/-- SEGMENT_COMPLETE (R326). -/
def execSegmentComplete (slot : Nat) (seg : SegDone) (s : State) : Result := .next (if alive s then segmentDone s slot seg else s)

/-! ## The window at run time (R331) -/

/-- Unit number k of an image fills its half of every facet's window (R330, R331): in which order its segments lie there is not
stated, so the half holds free values (note 127). -/
def windowFilled (s : State) (im : Image) (k : Nat) : State :=
  (upto 8).foldl (fun s f => let w := windowRange im k f; spoilArea s w.1 w.2) s

/-- Unit u has operations. -/
def unitRuns (m : List Byte) (u : Nat) : Bool := (opsOf m).any (fun o => opUnit m o == some u)

/-- The unit that computes, or comes to compute next: one without operations has ended as soon as it is in the window. -/
def unitNow (m : List Byte) (at_ : Nat) : Nat :=
  ((rangeFrom at_ (tyLayers m * tyUnits m - at_)).find? (unitRuns m)).getD (tyLayers m * tyUnits m)

/-- A streamed unit is copied into its window half on every facet (R331): a half is reused only when its unit has ended. A fence or poison
that the copy meets stays with the unit (R338). -/
def unitCopied (s : State) (tag t : Nat) (im : Image) : State :=
  let m := im.md
  let j := mtxOf s tag
  if tyExec m ≠ 1 ∨ tyLayers m * tyUnits m ≤ j.units ∨ unitNow m j.unitAt + 1 < j.units then s
  else
    let x := readEach (fun s g => handleRead s t (segAddr im g) g.len) s (unitSegs im j.units)
    match x.2 with
    | .wait => x.1
    | y =>
      let bad := match y with | .fail st => some st | _ => windowFault s im j.units (fun _ _ => none)
      let gone := if j.units < 2 then none else windowFault s im (j.units - 2) (memPoison s)
      let note := fun (k : Nat) (o : Option Status) => match o with | some st => [(k, st)] | none => []
      let j := { j with units := j.units + 1, windowBad := j.windowBad ++ note (j.units - 2) gone ++ note j.units bad }
      setMtx (if bad.isSome then x.1 else windowFilled x.1 im (j.units - 1)) tag j

/-- WINDOW_UNIT_COPY_DONE (R331). -/
def execWindowUnitCopyDone (tag : Nat) (s : State) : Result :=
  .next (if !alive s then s
    else match look s.requests tag, look s.prefills tag, look s.pools tag with
      | some r, some j, _ => unitCopied s tag r.tenant j.image
      | some r, none, some p => unitCopied s tag r.tenant p.image
      | _, _, _ => s)

/-! ## Peers (R340; 19 Table - Message bodies) -/

/-- A piece of the image arrives from the peer: with the first, the rest of the metadata is asked for. -/
def weightData (s : State) (n k : Nat) (m : List Byte) : State :=
  match (troyOf s n).load with
  | none => s
  | some l =>
    if l.flow ≠ some k then s
    else
      let off := rdLe m 16 8
      let d := m.drop 32
      let first := l.pieces.isEmpty
      let s := setLoad s n { l with pieces := l.pieces ++ [⟨off, d, .good⟩] }
      let len := rdLe d 28 4
      if first ∧ off = 0 ∧ 4096 < len ∧ len ≤ 1048576 then
        askPeer s k (nfld (srcOf l.block l.src).addr 8 6) 2 4096 (len - 4096)
      else s

/-- A peer source refused, failed or was lost (R327). -/
def loadFlowClosed (s : State) (n k st : Nat) : State :=
  match (troyOf s n).load with
  | none => s
  | some l => if l.flow = some k then sourceFails (setLoad s n { l with flow := none }) n ((statusOfCode st).getD .peerLost) else s

/-- A load whose open waited for a flow number knows its flow now. -/
def bindLoad (s : State) (n k : Nat) : State :=
  match (troyOf s n).load with
  | some l => if l.flow.isNone ∧ (srcOf l.block l.src).kind = 3 then setLoad s n { l with flow := some k } else s
  | none => s

/-- The entry of WGT_SERVE in force that serves a package a slot: its tenant (R340). -/
def serveTenant (s : State) (base pkg slot : Nat) : Option Nat :=
  (upto 16).findSome? (fun i =>
    let w := forceGet s (aKey (base + 4 * i))
    if bitOf w 31 ∧ fld w 24 6 = pkg ∧ fld w 0 6 = slot then some (fld w 16 7) else none)

/-- Where len bytes at an image offset lie, segment by segment. -/
def servedParts (im : Image) (off len : Nat) : List (Nat × Nat) :=
  ((segsOf im.md).filter (fun g => decide (g.off < off + len) && decide (off < g.off + g.len))).map (fun g =>
    (segAddr im g + (max off g.off - g.off), min (off + len) (g.off + g.len) - max off g.off))

/-- The tenant under which a flow of a peer is served (17 R384). -/
def servedTenant (s : State) (k : Nat) : Nat := match s.requests.find? (fun p => p.2.source == .peer k) with | some p => p.2.tenant | none => 0

/-- What reading the live ones among some parts does (08 R174). -/
def partsRead (s : State) (t : Nat) (ps : List (Nat × Nat)) : State :=
  ps.foldl (fun s p => if rangeLive s p.1 p.2 then engRead s t p.1 p.2 else s) s

/-- The answer to one WEIGHT_REQ on a flow that serves an image (R340): the bytes, or a STATUS; poison abandons the flow (08 R170). -/
def weightAnswer (s : State) (k slot gen : Nat) (m : List Byte) : State :=
  let t := troyOf s slot
  let tag := rdLe m 8 8
  let off := rdLe m 24 8
  let len := rdLe m 32 4
  match (if gen = t.gen then t.image else look t.olds gen) with
  | none => sendMessage s k (statusMsg 0x24 0 tag)
  | some im =>
    if rdB m 16 ≠ slot then sendMessage s k (statusMsg 0x24 0 tag)
    else if len = 0 ∨ 1048576 < len ∨ tyLen im.md < off + len then sendMessage s k (statusMsg 0x21 0 tag)
    else
      let ps := servedParts im off len
      let s := partsRead s (servedTenant s k) ps
      if ps.any (fun p => !rangeLive s p.1 p.2) then sendMessage s k (statusMsg 0x83 0 tag)
      else if ps.any (fun p => (memPoison s p.1 p.2).isSome) then abandonFlow s k 0x60
      else sendMessage s k (message 0x21 tag (leBytes 8 off ++ leBytes 8 0 ++ slice (imageBytes s im) off len))

end Sys2Proof.Machine
end

