-- ==== Sys2Proof/Machine/SearchRun.lean ====
section
/-! DEFINITION. SearchRun: SEARCH from its start to its end, alone, as a pipeline's stages and for a peer: list choice, scan,
prefetch copies, shards (12 R254 to R277, 19 R419). -/
namespace Sys2Proof.Machine

/-! ## A pipeline's stage as a request (01 R18, R19) -/

/-- The record of stage n in a pipeline's plan. -/
def stageRecord (p : Pipeline) (n : Nat) : Option (List Byte × Option (List Byte)) :=
  (planRecords 8 p.plan).find? (fun x => rdB x.1 0 % 8 == n)

/-- The request of a stage: the stage's own body, extension and opcode in place of the PIPELINE's. -/
def stageRequest (r : Request) (p : Pipeline) (n : Nat) : Request :=
  match stageRecord p n with
  | some x => { r with body := x.1.drop 16, ext := x.2, opcode := stageOp n }
  | none => r

/-- Zeros in place of n bytes at `off`. -/
def blank (l : List Byte) (off n : Nat) : List Byte := l.take off ++ List.replicate n 0#8 ++ l.drop (off + n)

/-- A SEARCH body without its link fields (12 R274): QUERY_ADDR, QUERY_DEV, Q_FMT, OUT_ADDR, OUT_LEN, OUT_DEV. -/
def unlinkSearch (b : List Byte) : List Byte :=
  let b := blank (blank b 0 8) 24 12
  setAt b 20 (BitVec.ofNat 8 (rdB b 20 / 64 * 64 + rdB b 20 % 4))

/-- The SEARCH that a request runs now: its own, or the search stage of a pipeline. -/
def searchReq (s : State) (tag : Nat) : Option Request :=
  match look s.requests tag with
  | none => none
  | some r =>
    if r.opcode = 0x15 then some r
    else match r.pipe with
      | some p => if p.next = 3 then (let x := stageRequest r p 3; some { x with body := unlinkSearch x.body }) else none
      | none => none

/-! ## Ends (12 R267, R271, R277) -/

/-- The answer to a SHARD_QUERY: its entries or its status; the flow's work is done (19 R419). -/
def answerShard (s : State) (tag k : Nat) (msg : List Byte) : State :=
  let s := dropJobs s tag
  let s := { s with requests := remove s.requests tag }
  let busy := s.requests.any (fun p => p.2.source == .peer k)
  let s := setWorks (sendMessage s k msg) k busy
  settle (match look s.strand.flows k with
    | some f => if f.finGot && !busy then sendFin s k else s
    | none => s)

/-- A search fails with a status. -/
def searchFails (s : State) (tag : Nat) (st : Status) : State :=
  let s := match look s.searches tag with | some j => countWaste s j | none => s
  let s := { s with searches := remove s.searches tag }
  match look s.requests tag with
  | none => s
  | some r => match r.source with
    | .peer k => answerShard s tag k (statusMsg (statusCode (serviceStatus s st)) 0 r.user.toNat)
    | .ring _ _ _ _ _ => finishStage s tag [] (serviceStatus s st)

/-- Candidates handed to the next stage of a pipeline. -/
def handCands (s : State) (tag : Nat) (es : List Entry) : State :=
  match look s.requests tag with
  | some r => match r.pipe with
    | some p => setRequest s tag { r with pipe := some { p with cands := es, candidates := es.length } }
    | none => s
  | none => s

/-- Flows of a search's shards get their FIN: no query follows (19 R420). -/
def finShards (s : State) (tag : Nat) : State :=
  (flowsOf s (fun u => match u with | .shardOut t _ => t == tag | _ => false)).foldl (fun s k =>
    match look s.strand.flows k with
    | some f => sendFin (setFlow s { f with use := .fresh }) k
    | none => s) s

/-- A search ends with its entries; under register-only service it does not (02 R51). -/
def searchEnds (s : State) (tag : Nat) (j : SearchJob) (b : List Byte) : State :=
  if noService s then searchFails s tag .noPartition else
  let es := mergeShards (ixL2 b) j
  let s := countWaste s j
  let (words, st) := searchWords j es.length (nbUsed b j)
  let s := finShards { s with searches := remove s.searches tag } tag
  match look s.requests tag with
  | none => s
  | some r => match r.source with
    | .peer k => answerShard s tag k (message 0x11 r.user.toNat (leBytes 4 es.length ++ leBytes 12 0 ++ entriesBytes es))
    | .ring _ _ _ _ _ =>
      if r.pipe.isSome then finishStage (handCands s tag es) tag words st
      else finish (writeOut s r (nbit (bodyB r 36) 4) (bodyLe r 40 8) (entriesBytes es)) tag st words

/-- Blob of the index that a search runs on: a slot keeps its blob while a request uses it. -/
def searchBlob (s : State) (j : SearchJob) : List Byte := match look s.idx j.q.slot with | some x => x.blob | none => []

/-! ## Shards (12 R270 to R273) -/

/-- Body of a SHARD_QUERY that asks for k entries (19 Table - Message bodies). -/
def shardQueryBody (q : SearchQ) (b : List Byte) (slot k : Nat) : List Byte :=
  leBytes 1 slot ++ leBytes 1 (rdB b 6) ++ leBytes 1 q.fmt ++ leBytes 1 (if q.pred.isSome then 1 else 0) ++ leBytes 2 q.nprobe ++
  leBytes 2 (ixDim b) ++ leBytes 4 k ++ leBytes 4 0 ++ q.pred.getD (List.replicate 128 0#8) ++ q.query

/-- The queries of a search's first run, one flow per peer shard. -/
def openShards (s : State) (tag : Nat) (j : SearchJob) (b : List Byte) (ms : List (Nat × Nat × Nat)) : State :=
  ms.foldl (fun s m =>
    let body := shardQueryBody j.q b m.2.2 j.q.k
    let s := (openFlow s m.2.1 2 (.shardOut tag m.1) (message 0x10 0 body)).1
    match look s.searches tag with
    | some j => { s with searches := place s.searches tag { j with shards := j.shards ++ [⟨m.1, m.2.1, 0, none, none⟩] } }
    | none => s) s

/-- Flows to a peer shard of a search. -/
def shardFlows (s : State) (tag num : Nat) : List Nat := flowsOf s (fun u => u == .shardOut tag num)

/-- The widening re-run of a search with shards (12 R268, R272): shard 0 is scanned again, and every peer whose flow is open is asked again,
whatever it gave. -/
def widenShards (s : State) (tag t : Nat) (j : SearchJob) (b : List Byte) : State :=
  let x := scanOnce s t b j.q j.copies (j.lists.getD []) (wideK j.q)
  match x.2 with
  | .wait => s
  | .fail st => searchFails x.1 tag st
  | .ok es =>
    let asked := fun (h : Shard) => h.bad ≠ some 0 && !(shardFlows s tag h.num).isEmpty
    let j' := { j with entries := some es, widened := true,
                       shards := j.shards.map (fun h => if asked h then { h with entries := none, bad := none } else { h with entries := none }) }
    let s := { x.1 with searches := place x.1.searches tag j' }
    let members := shardMembers s (match searchReq s tag with | some r => bodyB r 37 % 16 | none => 1)
    (j.shards.filter asked).foldl (fun s h =>
      let slot := match members.find? (fun m => m.1 == h.num) with | some m => m.2.2 | none => 0
      (shardFlows s tag h.num).foldl (fun s k =>
        sendMessage s k (message 0x10 1 (shardQueryBody j.q b slot (wideK j.q)))) s) s

/-- A search goes on once it has all it waits for: a re-run of its shards, or its end (12 R268, R273). After the deadline no peer
is asked again (note 48). -/
def searchSettle (s : State) (tag : Nat) : State :=
  match look s.searches tag, look s.requests tag with
  | some j, some r =>
    if !searchReady j then s
    else
      let b := searchBlob s j
      if !j.shards.isEmpty && !j.widened && !j.expired && mustWiden j.q (mergeShards (ixL2 b) j).length then
        let s := widenShards s tag r.tenant j b
        match look s.searches tag with
        | some j => if searchReady j then searchEnds s tag j b else s
        | none => s
      else searchEnds s tag j b
  | _, _ => s

/-- What a peer shard of a search gave before its deadline: entries, or a status that refused, failed or lost it (0 when its package is lost). -/
def shardGives (s : State) (tag num : Nat) (es : Option (List Entry)) (bad : Option Nat) : State :=
  match look s.searches tag with
  | none => s
  | some j =>
    let hit := fun (h : Shard) => !j.expired && h.num == num && h.entries.isNone && h.bad.isNone
    let j := { j with shards := j.shards.map (fun h => if hit h then { h with entries := es, bad := bad } else h) }
    searchSettle { s with searches := place s.searches tag j } tag

/-! ## Start (12 R274 to R276) -/

/-- A search whose inputs are known starts: its job, then its queries to peers. -/
def searchBegin (s : State) (tag : Nat) (r : Request) (q : SearchQ) (b : List Byte) : State :=
  let j : SearchJob := ⟨q, none, [], [], s.freeCount, none, false, [], false⟩
  let s := { s with searches := place s.searches tag j, freeCount := s.freeCount + 1 }
  let set := bodyB r 37 % 16
  if set = 0 then s else openShards s tag j b (shardMembers s set)

/-- A search with a shard set does not take a bitmap (12 R273). -/
def shardBitmap (r : Request) : Bool := decide (bodyB r 37 % 16 ≠ 0) && nbit (bodyB r 36) 7

/-- The start of a SEARCH on what gives its query vector. -/
def searchStart (s : State) (tag : Nat) (r : Request) (query : State → List Byte → Reading (List Byte × Nat)) : State :=
  if shardBitmap r then searchFails s tag .badField
  else
    let x := searchInputs s r query
    match x.2 with
    | .wait => keepReads s x.1
    | .fail st => searchFails x.1 tag st
    | .ok (q, b) =>
      if noService s then searchFails s tag .noPartition
      else match (if bodyB r 37 % 16 ≠ 0 then flowBar s else none) with
        | some st => searchFails s tag st
        | none => searchBegin x.1 tag r q b

/-- The query vector that a SEARCH's body names, and its format (12 R274). -/
def ownQuery (r : Request) (s : State) (b : List Byte) : Reading (List Byte × Nat) :=
  let fmt := bodyB r 36 / 4 % 4
  Got.andThen (readAt s r (nbit (bodyB r 36) 5) (bodyLe r 16 8) (ixDim b * fmtSize fmt)) (fun s v => (s, .ok (v, fmt)))

/-- SEARCH issued alone (12 R274): room for K entries at an output that the tenant may write. -/
def searchAlone (s : State) (tag : Nat) (r : Request) : State :=
  if (look s.searches tag).isSome then s
  else if searchBad r then searchFails s tag .badField
  else if bodyLe r 48 4 < 16 * bodyLe r 32 4 then searchFails s tag .resultShort
  else match outCheck s r (nbit (bodyB r 36) 4) (bodyLe r 40 8) (16 * bodyLe r 32 4) with
    | some st => searchFails s tag st
    | none =>
      searchStart s tag r (ownQuery r)

/-- SEARCH (12 R274). -/
def execSearch (tag : Nat) (s : State) : Result :=
  .next (match running s tag 0x15 with | some r => if (r.source matches .ring ..) then searchAlone s tag r else s | none => s)

/-- The search stage of a pipeline on a query vector (12 R276). -/
def searchStage (s : State) (tag : Nat) (r : Request) (vec : List Byte) (fmt : Nat) : State :=
  if (look s.searches tag).isSome then s
  else searchStart s tag { r with body := unlinkSearch r.body } (fun s b =>
    if vec.length ≠ ixDim b * fmtSize fmt then (s, .fail .badField) else (s, .ok (vec, fmt)))

/-! ## List choice and scan (12 R254, R258) -/

/-- A search under way whose request may act. -/
def searching (s : State) (tag : Nat) : Option (Request × SearchJob) :=
  match searchReq s tag, look s.searches tag with
  | some r, some j => if r.started && !srcAsleep s r && alive s then some (r, j) else none
  | _, _ => none

/-- Every centroid read of the centroid pass; the first failure, if any. -/
def centroidReads (s : State) (t : Nat) (b : List Byte) : Reading Unit :=
  let fs := ixFacets b
  (upto fs.length).foldl (fun x i => Got.andThen x (fun s _ =>
    Got.andThen (handleRead s t (rdLe b (stripeEntry i) 8) (centroidsOn b i * ixDim b * fmtSize (ixCent b))) (fun s _ => (s, .ok ()))))
    (s, .ok ())

/-! ## Neighbour-list prefetch (12 R261, R262, R275) -/

/-- Candidate prefetch runs for a search on a facet (12 R263, R275): inside a pipeline that reaches stage 5, not turned off. -/
def candOn (s : State) (tag : Nat) (r : Request) (f : Nat) : Bool :=
  let last := match (look s.requests tag).bind (·.pipe) with | some p => p.last | none => 0
  decide (5 ≤ last) && decide (bodyLe r 30 2 ≠ 65535) && !bitOf (regGet s (fKey f 0x50040)) 9

/-- Bytes of a candidate slot: the vector, padded, then PF_TEXT bytes of the record. -/
def slotBytesOf (b : List Byte) : Nat := roundUp (ixVecBytes b) 64 + rdLe b 88 4

/-- The lead of a facet: the slots that it uses (12 R263). -/
def leadOf (s : State) (tag : Nat) (r : Request) (j : SearchJob) (b : List Byte) (f : Nat) : Nat :=
  let w := if bodyLe r 30 2 = 0 then min (2 * j.q.k) 4096 else bodyLe r 30 2
  let n := (ixFacets b).length
  if candOn s tag r f then min ((w + n - 1) / n) ((j.q.scratch.getD f (0, 0)).2 / slotBytesOf b) else 0

/-- Bytes of the stripe of a list on stripe facet i. -/
def stripeBytes (s : State) (b : List Byte) (l i : Nat) : Nat :=
  (stripeSpan (listOf s b l).count (ixFacets b).length i).2 * ixMsub b

/-- The lists that stripe facet i scores, in the order in which it scores them (note 126). -/
def scoringOrder (b : List Byte) (order i : Nat) : List Nat :=
  ((upto (centroidsOn b i)).map (fun n => n * (ixFacets b).length + i)).mergeSort (fun k l =>
    decide ((Config.scoringTurn order k).toNat ≤ (Config.scoringTurn order l).toNat))

/-- Neighbours of a list, in table order. -/
def neighbourLists (s : State) (b : List Byte) (l : Nat) : List Nat :=
  (upto (rdB b 48)).map (fun m => rdLe (memRead s (rdLe b 40 8 + 4 * (l * rdB b 48 + m)) 4) 0 4)

/-- A list's stripe on stripe facet i is one that the prefetcher queues: cold, not empty and not queued already. A number that is no list's
is skipped like 0xFFFF_FFFF (note 126). -/
def queueable (s : State) (b : List Byte) (i : Nat) (queue : List Nat) (l : Nat) : Bool :=
  decide (l < ixNlist b) && !(listOf s b l).hot && decide (stripeBytes s b l i ≠ 0) && !queue.contains l

/-- One list is scored: the running rank, and the queue (12 R261). -/
def scoreOne (s : State) (b : List Byte) (q : SearchQ) (lead i : Nat) (x : List Entry × List Nat) (l : Nat) : List Entry × List Nat :=
  let rank := bestK (ixL2 b) lead (x.1 ++ [⟨listScore s b q l, 0, l⟩])
  if rank.any (fun e => e.id == l) then
    (rank, (l :: neighbourLists s b l).foldl (fun qu k => if queueable s b i qu k then qu ++ [k] else qu) x.2)
  else (rank, x.2)

/-- The cold stripes that the prefetcher of a facet queues, in queue order (12 R261). -/
def listQueue (s : State) (b : List Byte) (j : SearchJob) (f : Nat) : List Nat :=
  let x := regGet s (fKey f 0x50040)
  let i := (ixFacets b).findIdx (· == f)
  if bitOf x 8 ∨ !(ixFacets b).contains f then []
  else ((scoringOrder b j.order i).foldl (scoreOne s b j.q (fld x 0 7) i) ([], [])).2

/-- The stripe that a facet copies next, and its place in the list buffer: stripes lie one after another, in queue order, behind the
candidate slots; the first that does not fit whole ends the copying (12 R261, R275; note 127). -/
def nextCopy (s : State) (tag : Nat) (r : Request) (j : SearchJob) (b : List Byte) (f : Nat) : Option (Nat × Nat) :=
  let i := (ixFacets b).findIdx (· == f)
  let sc := j.q.scratch.getD f (0, 0)
  let held := ((j.copies.filter (fun c => c.facet == f)).map (fun c => stripeBytes s b c.list i)).sum
  let at_ := leadOf s tag r j b f * slotBytesOf b + held
  match (listQueue s b j f).find? (fun l => !j.copies.any (fun c => c.facet == f && c.list == l)) with
  | some l => if at_ + stripeBytes s b l i ≤ sc.2 then some (l, sc.1 + at_) else none
  | none => none

/-- The copy of a cold stripe into a facet's list buffer completes (12 R262): the next of the facet's queue. The copy is a read, its bytes and
their poison go to the buffer, and a fenced or busy home keeps it from completing. -/
def copyDone (s : State) (tag : Nat) (r : Request) (j : SearchJob) (f l : Nat) : State :=
  let b := searchBlob s j
  let i := (ixFacets b).findIdx (· == f)
  let a := stripeAddr b (listOf s b l) i
  let n := stripeBytes s b l i
  match nextCopy s tag r j b f with
  | none => s
  | some (k, at_) =>
    if k ≠ l ∨ j.entries.isSome ∨ !rangeLive s a n ∨ !rangeLive s at_ n ∨ cohBusy s a n then s
    else
      let s := noteRead (collect s a n true) r.tenant a n
      let s := memWriteP s at_ (memRead s a n) (memPoison s a n)
      { s with searches := place s.searches tag { j with copies := j.copies ++ [⟨f, l, at_⟩] } }

/-- NB_PREFETCH_COPY_DONE (12 R262). -/
def execNbPrefetchCopyDone (tag facet list : Nat) (s : State) : Result :=
  .next (match searching s tag with | some (r, j) => copyDone s tag r j facet list | none => s)

/-- The scan waits for the copy of a chosen stripe that was in flight at the list choice, while it can complete (12 R262). -/
def copyAwaited (s : State) (tag : Nat) (r : Request) (j : SearchJob) : Bool :=
  let b := searchBlob s j
  j.flying.any (fun x =>
    let i := (ixFacets b).findIdx (· == x.1)
    (j.lists.getD []).contains x.2 && rangeLive s (stripeAddr b (listOf s b x.2) i) (stripeBytes s b x.2 i) &&
    (match nextCopy s tag r j b x.1 with | some (l, at_) => l == x.2 && rangeLive s at_ (stripeBytes s b x.2 i) | none => false))

/-! ## List choice and scan (12 R254, R258) -/

/-- The pipeline of a request with a change. -/
def withPipe (s : State) (tag : Nat) (f : Pipeline → Pipeline) : State :=
  match look s.requests tag with
  | some r => match r.pipe with | some p => setRequest s tag { r with pipe := some (f p) } | none => s
  | none => s

/-- An engine takes part in a search (12 R259; 13 Corners). -/
def scans (s : State) (j : SearchJob) (u : CheckedUnit) : Bool :=
  (ixFacets (searchBlob s j)).any (fun f => match u with
    | .similarity g => nearestEngine s 0 f == some g
    | .selection g => nearestEngine s 1 f == some g
    | .gather _ => false)

/-- The facets exchange their best lists (12 R254); a row of more than 16,777,216 entries fails (13 R280). -/
def exchange (s : State) (tag : Nat) (r : Request) (j : SearchJob) : State :=
  let b := searchBlob s j
  if !someEngine s 0 then searchFails s tag .noEngine
  else
    let x := Got.andThen (centroidReads s r.tenant b) (fun s _ => handleRead s r.tenant (ixDir b) (16 * ixNlist b))
    match x.2 with
    | .wait => s
    | .fail st => searchFails x.1 tag st
    | .ok _ =>
      let s := x.1
      let lists := chooseLists s b j.q
      if 16777216 < rowLength s b lists then searchFails s tag .rowTooLong
      else
        let flying := (ixFacets b).filterMap (fun f => (nextCopy s tag r j b f).map (fun c => (f, c.1)))
        withPipe { s with searches := place s.searches tag { j with lists := some lists, flying := flying } } tag
          (fun p => { p with streams := some s.clk.grains.toNat })

/-- The exchange, with the mismatch that a similarity engine's check met in the centroid pass (08 R167). -/
def exchangeDone (s : State) (tag : Nat) (r : Request) (j : SearchJob) (check : Option Mismatch) : State :=
  if j.lists.isSome then s
  else
    let c := meetCheck s (fun u => match u with | .similarity _ => scans s j u | _ => false) check
    if c.2 then searchFails c.1 tag .computeCheck else exchange c.1 tag r j

/-- CENTROID_EXCHANGE (12 R254). -/
def execCentroidExchange (done : UnitDone) (s : State) : Result :=
  .next (match searching s done.tag with | some (r, j) => exchangeDone s done.tag r j done.check | none => s)

/-- The entries that a facet's selection ranks in the scan of a search, best first. -/
def facetRow (s : State) (b : List Byte) (j : SearchJob) (f : Nat) : List Entry :=
  let cb := memRead s (rdLe b 80 8) (256 * ixDim b * fmtSize (ixCb b))
  let xs := (chosenStripes b (j.lists.getD [])).filter (fun x => (ixFacets b)[x.2]? == some f)
  inOrder (ixL2 b) (xs.flatMap (stripeEntries s cb b j.q j.copies))

/-- The leading candidates of every facet at the end of the scan (12 R263). -/
def finalLeads (s : State) (tag : Nat) (r : Request) (j : SearchJob) (b : List Byte) : List (Nat × Nat) :=
  (ixFacets b).flatMap (fun f => ((facetRow s b j f).take (leadOf s tag r j b f)).map (fun e => (f, e.id)))

/-- The scan of shard 0 ends (12 R258, R266, R268). -/
def scanEnds (s : State) (tag : Nat) (r : Request) (j : SearchJob) (lists : List Nat) : State :=
  let b := searchBlob s j
  let x : Reading (List Entry × Bool) :=
    if j.shards.isEmpty then scanRun s r.tenant b j.q j.copies lists
    else Got.andThen (scanOnce s r.tenant b j.q j.copies lists j.q.k) (fun s es => (s, .ok (es, false)))
  match x.2 with
  | .wait => s
  | .fail st => searchFails { x.1 with searches := place x.1.searches tag { j with entries := some [] } } tag st
  | .ok (es, wide) =>
    let s := withPipe x.1 tag (fun p => { p with scanned := some s.clk.grains.toNat, leads := some (finalLeads x.1 tag r j b) })
    searchSettle { s with searches := place s.searches tag { j with entries := some es, widened := wide } } tag

/-- The scan of a search ends, with the mismatch its checks met (12 R258; 08 R167). -/
def scanDone (s : State) (tag : Nat) (r : Request) (j : SearchJob) (check : Option Mismatch) : State :=
  match j.lists with
  | none => s
  | some lists =>
    if j.entries.isSome || copyAwaited s tag r j then s
    else
      let c := meetCheck s (scans s j) check
      if c.2 then searchFails c.1 tag .computeCheck else scanEnds c.1 tag r j lists

/-- SCAN_DONE (12 R258). -/
def execScanDone (tag : Nat) (check : Option Mismatch) (s : State) : Result :=
  .next (match searching s tag with | some (r, j) => scanDone s tag r j check | none => s)

/-! ## Candidate prefetch (12 R263, R264) -/

/-- The extents that a candidate slot takes: the vector's, and the first PF_TEXT bytes of the record's. -/
def candExtents (s : State) (b : List Byte) (id : Nat) : List (List Byte) :=
  let rec_ := memRead s (rdLe b 64 8 + 16 * id) 16
  memRead s (rdLe b 56 8 + 16 * (id / ixVecPer b)) 16 ::
    (if rdLe b 88 4 = 0 then [] else [rec_.take 8 ++ leBytes 4 (min (rdLe b 88 4) (rdLe rec_ 8 4)) ++ rec_.drop 12])

/-- No read of a slot's extents is under way for the request. -/
def slotIdle (s : State) (tag : Nat) (c : CandSlot) : Bool :=
  !s.flash.reads.any (fun p => p.2.reader == tag && c.reads.contains p.2.extent)

/-- Place of a passage in a facet's row. -/
def rowPlace (row : List Entry) (id : Nat) : Nat := row.findIdx (fun e => e.id == id)

/-- A slot for a candidate that leads its facet while the scan runs: the one it has, a free one, or one whose candidate may have left the lead
and whose reads have completed; that one's data is discarded (12 R264). Which candidates have come is the scan's order, so any of the row may
lead (note 152). -/
def slotFor (s : State) (tag lead f id : Nat) (left : Nat → Bool) (p : Pipeline) : Option (State × Pipeline × CandSlot) :=
  let here := p.slots.filter (fun c => c.facet == f)
  match here.find? (fun c => c.id == id) with
  | some c => some (s, { p with slots := p.slots.erase c }, c)
  | none =>
    if here.length < lead then some (s, p, ⟨f, id, []⟩)
    else match (here.filter (fun c => slotIdle s tag c && left c.id)).head? with
      | some c => some (countSlots s [c], { p with slots := p.slots.erase c }, ⟨f, id, []⟩)
      | none => none

/-- A candidate that an extent read of the prefetcher is for: its facet, its passage, the facet's lead, and which passages may have left it. -/
structure CandRead where
  facet : Nat
  id : Nat
  lead : Nat
  left : Nat → Bool

/-- The candidate whose slot an extent read of the prefetcher fills. After the scan only the leading candidates have one. -/
def candFor (s : State) (tag : Nat) (r : Request) (p : Pipeline) (e : List Byte) : Option CandRead :=
  match (indexOf s r (bodyLe r 24 4)).map (·.blob) with
  | none => none
  | some b => match p.leads, look s.searches tag with
    | some ls, _ => (ls.find? (fun x => (candExtents s b x.2).contains e)).map (fun x =>
        ⟨x.1, x.2, (ls.filter (fun y => y.1 == x.1)).length, fun id => !ls.contains (x.1, id)⟩)
    | none, some j => (ixFacets b).findSome? (fun f =>
        let row := facetRow s b j f
        let lead := leadOf s tag r j b f
        (row.find? (fun c => (candExtents s b c.id).contains e)).map (fun c => ⟨f, c.id, lead, fun id => decide (lead ≤ rowPlace row id)⟩))
    | none, none => none

/-- The prefetcher of a pipeline's search stage asks for an extent (12 R263): the slot is taken, and the read issued once. -/
def prefetchRead (s : State) (id tag : Nat) (r : Request) (p : Pipeline) (e : List Byte) : State :=
  if p.next ≠ 3 then s
  else match candFor s tag (stageRequest r p 3) p e with
    | none => s
    | some c => match slotFor s tag c.lead c.facet c.id c.left p with
      | none => s
      | some (s, p, x) =>
        if x.reads.contains e then s
        else extentRead (setRequest s tag { r with pipe := some { p with slots := p.slots ++ [{ x with reads := x.reads ++ [e] }] } }) id tag .prefetch e

/-- EXTENT_READ (07 R148, R149; 12 R263). -/
def execExtentRead (id reader : Nat) (engine : FlashEngine) (extent : List Byte) (s : State) : Result :=
  .next (if !alive s || (look s.flash.reads id).isSome then s
    else if engine = .prefetch then
      (match look s.requests reader with
       | some r => (match r.pipe with | some p => prefetchRead s id reader r p extent | none => s)
       | none => s)
    else extentRead s id reader engine extent)

/-! ## Deadline (12 R273) -/

/-- The shard deadline of a search expires: peers that have not answered are missing. -/
def deadline (s : State) (tag : Nat) (r : Request) (j : SearchJob) : State :=
  if extField r 4 (rdLe (extOf r) 4 4) 0 = 0 ∨ (r.source matches .peer _) ∨ j.shards.isEmpty ∨ j.expired then s
  else searchSettle { s with searches := place s.searches tag { j with expired := true } } tag

/-- SHARD_DEADLINE_X (12 R273). -/
def execShardDeadlineX (tag : Nat) (s : State) : Result :=
  .next (match searching s tag with | some (r, j) => deadline s tag r j | none => s)

/-! ## Shards served for peers (12 R271; 17 R384) -/

/-- A SHARD_QUERY's body lies in its ranges (19 R419). -/
def shardQueryOk (m : List Byte) : Bool :=
  let dim := rdLe m 22 2
  decide (rdB m 17 ≤ 1) && decide (rdB m 18 ≤ 3) && decide (rdB m 19 ≤ 1) && decide (1 ≤ rdLe m 20 2) && decide (rdLe m 20 2 ≤ 4096) &&
  decide (1 ≤ rdLe m 24 4) && decide (rdLe m 24 4 ≤ 65536) && zeroAt m 28 4 && decide (m.length = 160 + dim * fmtSize (rdB m 18))

/-- The tenant that serves a query of a package, with the slot's blob; none: NOT_FOUND (12 R271). -/
def shardServed (s : State) (pkg : Nat) (m : List Byte) : Option (Nat × List Byte) :=
  match serveTenant s (0x50300) pkg (rdB m 16), look s.idx (rdB m 16) with
  | some t, some x =>
    if x.unloading ∨ ixDim x.blob ≠ rdLe m 22 2 ∨ rdB x.blob 6 ≠ rdB m 17 ∨ !assignedTo (forceGet s (aKey (0x50200 + 4 * rdB m 16))) t then none
    else some (t, x.blob)
  | _, _ => none

/-- A tag is free for a tenant (17 R384). -/
def tagFree (s : State) (t : Nat) : Option Nat := if tagsOf s t < quota s t then freeKey s.requests 0 65536 else none

/-- The request that stands for a peer's query or fetch, of an opcode, with its tag. -/
def peerRequest (s : State) (tag k t op runTag : Nat) (names : List SlotName) : Request :=
  { source := .peer k, tenant := t, user := BitVec.ofNat 64 runTag, noIrq := true, opcode := op, body := List.replicate 48 0#8,
    bodyStatus := .good, ext := none, poisoned := false, headFault := none, expert := expertOf s t,
    groups := (upto 16).map (groupMask s t), fetched := s.clk.grains.toNat, started := true, late := false, attached := false, judged := none,
    hostIn := [], tag := tag, names := names, fence := none, pipe := none }

/-- A query runs under its tenant (12 R271): without prefetch and without bitmap. -/
def runShard (s : State) (k tag t : Nat) (b m : List Byte) : State :=
  let pred := if nbit (rdB m 19) 0 then some (slice m 32 128) else none
  let q : SearchQ := ⟨rdB m 16, m.drop 160, rdB m 18, rdLe m 20 2, rdLe m 24 4, none, pred, 0, []⟩
  let s := setWorks (setRequest s tag (peerRequest s tag k t 0x15 (rdLe m 8 8) [.index (rdB m 16)])) k true
  let bad := ixNlist b < q.nprobe ∨ (match pred with | some p => !predOk p (ixAttr b) | none => false) = true
  if bad then searchFails s tag .badField
  else if noService s then searchFails s tag .noPartition
  else { s with searches := place s.searches tag ⟨q, none, [], [], s.freeCount, none, false, [], false⟩, freeCount := s.freeCount + 1 }

end Sys2Proof.Machine
end

