-- ==== Sys2Proof/Machine/Arrays.lean ====
section
/-! DEFINITION. Arrays: matrix operations on the arrays of a group: exact products and sums, the checks of a tile pass, the
tile dispatcher, and the one rounding of an output tile (11 R217 to R234; 08 R167). -/
namespace Sys2Proof.Machine

/-! ## Operands and their exact sums (R217 to R225) -/

/-- m_max of a format (R217). -/
def rowsMax (f : MatFmt) : Nat := match f with | .bf16 => 128 | _ => 1024

/-- PCLK cycles that a row occupies each cell (R217): 4 for BF16, 1 for the 8-bit formats. -/
def rowCycles (f : MatFmt) : Nat := match f with | .bf16 => 4 | _ => 1

/-- The value of an activation code. -/
def valueA (f : MatFmt) (c : Nat) : Num :=
  match f with
  | .int8 => .fin (decide (sInt 8 c < 0)) (sInt 8 c).natAbs 0
  | .fp8 e5 _ => (if e5 then e5m2 else e4m3).decode c
  | .bf16 => bf16.decode c

/-- The value of a weight code. -/
def valueW (f : MatFmt) (c : Nat) : Num := match f with | .fp8 _ e5 => valueA (.fp8 e5 e5) c | _ => valueA f c

/-- Weight of the least bit of the accumulation format, as a power of two (R220, R221, R223). -/
def leastBit (f : MatFmt) : Int := match f with | .int8 => 0 | .fp8 _ _ => -32 | .bf16 => -280

/-- An exact sum (R220 to R223): no format's accumulation wraps or rounds. -/
def sumExact (ps : List Num) : Num := ps.foldl Num.add (.fin false 0 0)

/-- The exact sum of a block of up to 128 terms with the terms it flushes: only BF16 blocks flush (R222). -/
def blockSum (f : MatFmt) (ps : List Num) : Num × Nat :=
  match f with
  | .bf16 => let x := flushBlock ps; (sumExact x.1, x.2)
  | _ => (sumExact ps, 0)

/-- A column of a matrix. -/
def columnOf (w : List (List Num)) (n : Nat) : List Num := w.map (fun r => r.getD n (.fin false 0 0))

/-- Columns of a matrix of the given width. -/
def columns (w : List (List Num)) (width : Nat) : List (List Num) := (upto width).map (columnOf w)

/-- The products of one row with one column. -/
def products (a w : List Num) : List Num := List.zipWith Num.mul a w

/-- The contribution of a tile pass before faults, one list per row, and the terms flushed (R222, R229). -/
def contribution (f : MatFmt) (a cols : List (List Num)) : List (List Num) × Nat :=
  let bs := a.map (fun r => cols.map (fun c => blockSum f (products r c)))
  (bs.map (fun r => r.map (·.1)), (bs.map (fun r => (r.map (·.2)).sum)).sum)

/-- Elementwise sum of two matrices. -/
def addMatrix (x y : List (List Num)) : List (List Num) := List.zipWith (List.zipWith Num.add) x y

/-! ## Checksums (R229, R230) -/

/-- Two values are equal in every bit. -/
def sameNum (a b : Num) : Bool := (a.add b.neg).isZero

/-- The results with the differences that faults put on them. -/
def disturbed (f : MatFmt) (y : List (List Num)) (errs : List (Nat × Nat × Int)) : List (List Num) :=
  errs.foldl (fun y e => y.modify e.1 (fun r => r.modify e.2.1 (fun v =>
    v.add (.fin (decide (e.2.2 < 0)) e.2.2.natAbs (leastBit f))))) y

/-- Row check (R229): each row's results sum to its activations times the check column. -/
def rowCheck (y a w : List (List Num)) : Bool :=
  let checkCol := w.map sumExact
  (List.zip y a).all (fun p => sameNum (sumExact p.1) (sumExact (products p.2 checkCol)))

/-- Column check (R229): each column's results sum to the check row times its weights. -/
def columnCheck (y a cols : List (List Num)) (width k : Nat) : Bool :=
  let checkRow := (columns a k).map sumExact
  (List.zip (columns y width) cols).all (fun p => sameNum (sumExact p.1) (sumExact (products checkRow p.2)))

/-- A pass is not checked (R230): a nonzero flush count of its blocks or check sums, or an operand that is not finite. -/
def passUnchecked (f : MatFmt) (a w : List (List Num)) (k flushed : Nat) : Bool :=
  (a ++ w).any (fun r => r.any (fun v => !v.isFin)) || decide (flushed ≠ 0) ||
  (w ++ columns a k).any (fun r => decide ((blockSum f r).2 ≠ 0))

/-- How a tile pass ends on its array. -/
inductive PassEnd where
  | clean | unchecked | cleared | failed
  deriving DecidableEq, Repr

/-- What a tile pass leaves: how it ended, the contribution to use, the terms flushed (R229 to R232). -/
def passResult (p : TilePass) (width k : Nat) : PassEnd × List (List Num) × Nat :=
  let f := p.op.fmt
  let a := p.a.map (fun r => r.map (valueA f))
  let w := p.w.map (fun r => r.map (valueW f))
  let cols := columns w width
  let y := contribution f a cols
  let y1 := disturbed f y.1 p.err1
  let y2 := disturbed f y.1 p.err2
  let good := fun z => rowCheck z a w && columnCheck z a cols width k
  if passUnchecked f a w k y.2 then (.unchecked, y1, y.2)
  else if good y1 then (.clean, y1, 0)
  else if good y2 then (.cleared, y2, 0)
  else (.failed, [], 0)

/-! ## Rounding (R226) -/

/-- The integer of an exact sum of INT8 products. -/
def intOf (v : Num) : Int := match v with | .fin neg m e => scaledInt neg m e 0 | _ => 0

/-- The output code of an exact sum, and whether it counts in RANGE (R226). -/
def roundOut (o : MatOut) (v : Num) : Nat × Bool :=
  match o with
  | .int32 =>
    let x := intOf v
    let c := max (-2147483648) (min 2147483647 x)
    ((c % 4294967296).toNat, decide (c ≠ x))
  | .int64 => ((intOf v % 18446744073709551616).toNat, false)
  | .float c =>
    let f := fmtOf c
    (f.writeSum v, match v with | .fin _ m e => decide (f.maxCode < f.roundCode m e) | _ => true)

/-! ## The tile dispatcher (R224, R228, R232) -/

/-- Weight tiles along K, row chunks and N slices of an operation. -/
def tilesK (o : MatrixOp) : Nat := (o.k + 127) / 128
/-- Row chunks of an operation. -/
def chunksOf (o : MatrixOp) : Nat := (o.m + rowsMax o.fmt - 1) / rowsMax o.fmt
/-- N slices of an operation. -/
def slicesOf (o : MatrixOp) : Nat := (o.n + 127) / 128

/-- An operation within the limits of R217 and R219: no other ever starts. -/
def opOk (o : MatrixOp) : Bool :=
  let inRange := fun x => decide (1 ≤ x) && decide (x ≤ 65536)
  inRange o.m && inRange o.n && inRange o.k && decide (o.group < 16) &&
  (match o.fmt, o.out with
   | .int8, .float _ => false
   | .int8, _ => true
   | _, .float c => decide (c ≤ 3)
   | _, _ => false)

/-- The K ranges of one output tile split s ways, the longer ones first (R228). -/
def kRanges (tk s : Nat) : List (Nat × Nat) :=
  (upto s).map (fun i => (tk / s * i + min i (tk % s), tk / s * (i + 1) + min (i + 1) (tk % s)))

/-- The ways each output tile's K is split for A qualifying arrays (R228). -/
def splitWays (o : MatrixOp) (arrays : Nat) : Nat :=
  let t := chunksOf o * slicesOf o
  if arrays ≤ t then 1 else min ((arrays + t - 1) / t) (tilesK o)

/-- The dispatcher's queue of an operation: row chunk first, then N slice, then K range (R228). -/
def tileQueue (o : MatrixOp) (arrays : Nat) : List OutTile :=
  (upto (chunksOf o)).flatMap (fun c => (upto (slicesOf o)).flatMap (fun n =>
    (kRanges (tilesK o) (splitWays o arrays)).map (fun r => ⟨c, n, r.1, r.2⟩)))

/-- Rows of a chunk. -/
def chunkRows (o : MatrixOp) (c : Nat) : Nat := min (rowsMax o.fmt) (o.m - rowsMax o.fmt * c)
/-- Columns of a slice. -/
def sliceCols (o : MatrixOp) (n : Nat) : Nat := min 128 (o.n - 128 * n)
/-- Reduction rows of a weight tile. -/
def tileDepth (o : MatrixOp) (t : Nat) : Nat := min 128 (o.k - 128 * t)

/-- A tile taken by an array: its sums are 0. -/
def takenTile (o : MatrixOp) (t : OutTile) : TileWork :=
  ⟨t, t.kFrom, List.replicate (chunkRows o t.chunk) (List.replicate (sliceCols o t.slice) (.fin false 0 0))⟩

/-- An operation has no tile left. -/
def runEnded (d : MatrixRun) : Bool := d.queue.isEmpty && d.busy.isEmpty

/-- Arrays that hold a tile of any operation. -/
def busyArrays (s : State) : List Nat :=
  s.mtx.flatMap (fun p => match p.2.run with | some d => keysOf d.busy | none => [])

/-- Arrays of the group of a request's operation that can take work. A pinned operation runs on its array while that can take work; an array
that is suspect has lost its pins (R235). -/
def opArrays (s : State) (tag : Nat) (o : MatrixOp) (pin : Option Nat) : List Nat :=
  match look s.requests tag with
  | some r =>
    let all := groupArrays s r.tenant (groupOf r o.group)
    (match pin with | some p => if all.contains p then [p] else all | none => all)
  | none => []

/-- Idle arrays take tiles from the head of the queue, the lower partition number first (R228). -/
def takeTiles (o : MatrixOp) : List Nat → List OutTile → KMap TileWork → List OutTile × KMap TileWork
  | p :: ps, t :: q, b => takeTiles o ps q (place b p (takenTile o t))
  | _, q, b => (q, b)

/-- The dispatcher hands tiles of a request's operation to its idle arrays (R228). -/
def feedTiles (s : State) (tag : Nat) : State :=
  let j := mtxOf s tag
  match j.run with
  | none => s
  | some d =>
    let idle := (opArrays s tag d.op d.pin).filter (fun p => !(busyArrays s).contains p)
    let x := takeTiles d.op idle d.queue d.busy
    setMtx s tag { j with run := some { d with queue := x.1, busy := x.2 } }

/-- A tile in progress has left its array: a fenced partition loses any tile, a suspect array an unfinished one (R232, Corners). -/
def tileLost (s : State) (p : Nat × TileWork) : Bool :=
  !(partLive s p.1 && fabricLive s (p.1 / 8)) || (!arrayUsable s p.1 && decide (p.2.next < p.2.tile.kTo))

/-- Tiles of a request whose arrays are gone return to the head of the queue, in partition order, and count in MOVED (R232). -/
def reclaimTiles (s : State) (tag : Nat) : State :=
  let j := mtxOf s tag
  match j.run with
  | none => s
  | some d =>
    let lost := d.busy.filter (tileLost s)
    setMtx s tag { j with
      moved := j.moved + lost.length
      run := some { d with queue := lost.map (fun p => p.2.tile) ++ d.queue, busy := d.busy.filter (fun p => !tileLost s p) } }

/-- The dispatchers of all groups after arrays are lost or freed (R228, R232). -/
def redispatch (s : State) : State :=
  let s := (keysOf s.mtx).foldl reclaimTiles s
  (keysOf s.mtx).foldl feedTiles s

/-- An operation begins (R228). -/
def beginRun (s : State) (tag : Nat) (o : MatrixOp) (pin : Option Nat) : State :=
  setMtx s tag { mtxOf s tag with run := some ⟨o, pin, tileQueue o (opArrays s tag o pin).length, [], [], []⟩ }

/-! ## The image's operations (R217, R235; 15 R322, R331) -/

/-- An image that a request runs, with the group it runs on and the rows of the request, where the request fixes them (15 R322). -/
structure ImageRun where
  image : Image
  group : Nat
  rows : Option Nat
  deriving DecidableEq, Repr

/-- Sequences that a step of a pool runs through the layers. -/
def stepRows (p : Pool) : Nat := (p.seqs.filter (fun x => runsLayers x.2)).length

/-- The image that EMBED, RERANK or a stage of these runs. The rows of a cross-encoder depend on its candidates' passages. -/
def ownRun (s : State) (r : Request) (g rows : Nat) : Option ImageRun :=
  let at_ := if r.opcode = 0x14 then 44 else 56
  match imageFor s r (bodyLe r at_ 4) with
  | .ok im => some ⟨im, g, if r.opcode = 0x14 then some rows else none⟩
  | .error _ => none

/-- The image that a request runs now. -/
def imageRun (s : State) (tag : Nat) (r : Request) : Option ImageRun :=
  match look s.prefills tag, look s.pools tag with
  | some j, _ =>
    let g := match r.pipe with
      | some p => (match stageRecord p 7 with | some x => rdB x.1 2 % 16 | none => 0)
      | none => bodyB r 44 % 16
    some ⟨j.image, g, some j.tokens.length⟩
  | none, some p => some ⟨p.image, bodyB r 63 % 16, some (stepRows p)⟩
  | none, none => match r.pipe with
    | none => if r.opcode = 0x14 then ownRun s r (bodyB r 30 % 16) (bodyLe r 24 4) else if r.opcode = 0x17 then ownRun s r (bodyB r 60 % 16) 0 else none
    | some p =>
      let q := stageRequest r p p.next
      let g := match stageRecord p p.next with | some x => rdB x.1 2 % 16 | none => 0
      if p.next = 5 then ownRun s q g 0
      else if p.next = 2 then (ownRun s q g 0).map (fun x =>
        { x with rows := some ((if p.first = 2 then rdLe p.input 4 4 else p.rows.length) / (tyHidden x.image.md * fmtSize (tyEmb x.image.md))) })
      else none

/-- Rows of one of the consecutive operations that n rows make: 65,536, or what is left (15 R322). -/
def rowsPart (n m : Nat) : Bool := (decide (65536 ≤ n) && decide (m = 65536)) || (decide (m = n % 65536) && decide (m ≠ 0))

/-- Format code of an operation. -/
def fmtCode (f : MatFmt) : Nat := match f with | .int8 => 0 | .fp8 _ _ => 1 | .bf16 => 2

/-- The operation that a pass names is one of the image's operation table, which fixes its format, K and N, on the request's group and rows
(R217; 15 R322). -/
def opOfImage (x : ImageRun) (o : MatrixOp) : Bool :=
  let t := opOf x.image.md o.entry
  decide (o.entry < tyOps x.image.md) && decide (fmtCode o.fmt = t.fmt) && decide (o.k = t.k) && decide (o.n = t.n) &&
  decide (o.group = x.group) && (match x.rows with | some n => rowsPart n o.m | none => true)

/-! ## Tile passes (R229 to R234) -/

/-- A request that has matrix work under way now. -/
def matrixRunning (s : State) (tag : Nat) : Option Request :=
  match look s.requests tag with
  | some r => if r.started && isMatrixOp r.opcode && alive s then some r else none
  | none => none

/-- Matrix work of a request fails. A decode pool's fault reaches its sequences at their next step (14 R315). -/
def matrixFails (s : State) (tag : Nat) (st : Status) : State :=
  if (look s.pools tag).isSome then s
  else if (look s.prefills tag).isSome then prefillBreaks s tag st
  else finishStage { s with mtx := remove s.mtx tag } tag [] (serviceStatus s st)

/-- One second in grains. -/
def secondGrains : Nat := 125000000

/-- A mismatch of the array of partition p is recorded (R231, R232; MTX_CHK_STAT, MTX_CHK_LAST). -/
def noteMismatch (s : State) (p : Nat) (second : Bool) : State :=
  let s := bump s (fKey (p / 8) 0x40000) 16 16 1
  regSet s (fKey (p / 8) 0x40004) (BitVec.ofNat 32 (2 ^ 31 + (if second then 8 else 0) + p % 8))

/-- A first mismatch cleared on array p (R231): at LIMIT of them within 1 s the array becomes suspect (R233). -/
def noteCleared (s : State) (p : Nat) : State :=
  let s := bump (bump s (fKey (p / 8) 0x40000) 0 16 1) (fKey (p / 8) 0x00048) 16 16 1
  let now := s.clk.grains.toNat
  let recent := now :: ((look s.mtxCleared p).getD []).filter (fun g => decide (now < g + secondGrains))
  let s := { s with mtxCleared := place s.mtxCleared p recent }
  let limit := regFld s (fKey (p / 8) 0x40100) 0 8
  if limit ≠ 0 ∧ limit ≤ recent.length then fenceUnit s 2 p 2 else s

/-- The counts of a pass whose contribution is used (R222, R230; MTX_FLUSH, MTX_UNCHECKED). -/
def passCounts (s : State) (tag p flushed : Nat) (unchecked : Bool) : State :=
  let s := bump s (fKey (p / 8) 0x40008) 0 32 flushed
  let s := if unchecked then bump s (fKey (p / 8) 0x4000C) 0 32 1 else s
  let j := mtxOf s tag
  setMtx s tag { j with flushed := j.flushed + flushed, unchecked := j.unchecked + (if unchecked then 1 else 0) }

/-- The array streamed its data rows (MTX_BUSY). -/
def busyCycles (s : State) (p cycles : Nat) : State := bump s (fKey (p / 8) (0x40020 + 4 * (p % 8))) 0 32 cycles

/-- A pass's contribution joins its tile's sums (R223, R229). -/
def addPass (s : State) (tag p : Nat) (w : TileWork) (y : List (List Num)) : State :=
  let j := mtxOf s tag
  match j.run with
  | some d => setMtx s tag { j with run := some { d with busy := place d.busy p { w with next := w.next + 1, acc := addMatrix w.acc y } } }
  | none => s

/-- One more recompute of a request (R231). -/
def countRecompute (s : State) (tag : Nat) : State :=
  let j := mtxOf s tag
  setMtx s tag { j with recomputes := j.recomputes + 1 }

/-- A tile pass of the given shape ends on the array of partition p (R229 to R233). -/
def passEnds (s : State) (tag p : Nat) (w : TileWork) (x : TilePass) : State :=
  let res := passResult x (sliceCols x.op w.tile.slice) (tileDepth x.op w.next)
  let cycles := rowCycles x.op.fmt * x.a.length
  match res.1 with
  | .clean => addPass (passCounts (busyCycles s p cycles) tag p res.2.2 false) tag p w res.2.1
  | .unchecked => addPass (passCounts (busyCycles s p cycles) tag p res.2.2 true) tag p w res.2.1
  | .cleared =>
    noteCleared (countRecompute (addPass (noteMismatch (busyCycles s p (2 * cycles)) p false) tag p w res.2.1) tag) p
  | .failed =>
    fenceUnit (countRecompute (noteMismatch (noteMismatch (busyCycles s p (2 * cycles)) p false) p true) tag) 2 p 1

/-- The rows and weights of a pass are those of its tile. -/
def passShaped (x : TilePass) (w : TileWork) : Bool :=
  let depth := tileDepth x.op w.next
  decide (x.a.length = chunkRows x.op w.tile.chunk) && x.a.all (fun r => decide (r.length = depth)) &&
  decide (x.w.length = depth) && x.w.all (fun r => decide (r.length = sliceCols x.op w.tile.slice)) &&
  decide (w.next < w.tile.kTo)

/-- An operation of a streamed image may begin (15 R331): every byte of its unit is in the window, and no later unit has begun. -/
def unitReady (s : State) (tag : Nat) (x : ImageRun) (o : MatrixOp) : Bool :=
  match opUnit x.image.md (opOf x.image.md o.entry) with
  | some u => decide (tyExec x.image.md ≠ 1) || (decide (u < (mtxOf s tag).units) && decide ((mtxOf s tag).unitAt ≤ u))
  | none => true

/-- An operation of a request begins: the unit that computes is its unit (15 R331). -/
def startRun (s : State) (tag : Nat) (x : ImageRun) (o : MatrixOp) : State :=
  let j := mtxOf s tag
  let at_ := match opUnit x.image.md (opOf x.image.md o.entry) with | some u => max j.unitAt u | none => j.unitAt
  beginRun (setMtx s tag { j with unitAt := at_ }) tag o (opOf x.image.md o.entry).pin

/-- The state with the operation of a pass begun, when the request runs none (R228). -/
def withOperation (s : State) (tag : Nat) (x : ImageRun) (o : MatrixOp) : State :=
  match (mtxOf s tag).run with
  | some d => if runEnded d && unitReady s tag x o then startRun s tag x o else s
  | none => if unitReady s tag x o then startRun s tag x o else s

/-- The tile that partition p holds of an operation. -/
def heldTile (s : State) (tag p : Nat) (o : MatrixOp) : Option TileWork :=
  match (mtxOf s tag).run with
  | some d => if d.op = o then look d.busy p else none
  | none => none

/-- The request fails when no array of its group is left with tiles to do (02 R42, R234), or no partition of it (02 R49). -/
def arraysLeft (s : State) (tag : Nat) : State :=
  match (mtxOf s tag).run, look s.requests tag with
  | some d, some r =>
    if !runEnded d && (opArrays s tag d.op none).isEmpty then
      matrixFails s tag (if (groupParts s r.tenant (groupOf r d.op.group)).isEmpty then .noPartition else .noArray)
    else s
  | _, _ => s

/-- A tile pass on the array of partition p (R229; 08 R167, R171). -/
def tilePass (s : State) (tag p : Nat) (im : ImageRun) (x : TilePass) : State :=
  let s := redispatch (withOperation s tag im x.op)
  match heldTile s tag p x.op with
  | none => arraysLeft s tag
  | some w =>
    if !passShaped x w then s
    else match x.poison with
      | some o => matrixFails s tag (poisonStatus o)
      | none =>
        if 2 ≤ x.vector then matrixFails (unitCheck s 1 p x.vector) tag .computeCheck
        else arraysLeft (redispatch (passEnds (unitCheck s 1 p x.vector) tag p w x)) tag

/-- TILE_PASS_DONE (R229): an array that takes no work ends no pass, and no pass is of an operation that the image does not hold. -/
def execTilePassDone (tag part : Nat) (pass : TilePass) (s : State) : Result :=
  .next (match (matrixRunning s tag).bind (imageRun s tag) with
    | some im => if decide (part < 64) && opOk pass.op && opOfImage im pass.op then tilePass s tag part im pass else s
    | none => s)

/-! ## Output tiles (R224, R226, R228) -/

/-- A finished range joins the others of its output tile (R224): the weight tiles covered, and the exact sums. -/
def joinPart (d : MatrixRun) (w : TileWork) : Nat × List (List Num) :=
  let n := w.tile.kTo - w.tile.kFrom
  match d.parts.find? (fun p => p.1 == (w.tile.chunk, w.tile.slice)) with
  | some p => (p.2.1 + n, addMatrix p.2.2 w.acc)
  | none => (n, w.acc)

/-- The range of partition p is finished: with all of K, the output tile is rounded once (R226) and RANGE counts. -/
def tileEnds (s : State) (tag p : Nat) (d : MatrixRun) (w : TileWork) : State :=
  let at_ := (w.tile.chunk, w.tile.slice)
  let x := joinPart d w
  let others := d.parts.filter (fun q => q.1 != at_)
  let d := { d with busy := remove d.busy p }
  let j := mtxOf s tag
  if x.1 < tilesK d.op then setMtx s tag { j with run := some { d with parts := others ++ [(at_, x)] } }
  else
    let out := x.2.map (fun r => r.map (roundOut d.op.out))
    setMtx s tag { j with
      range := j.range + (out.map (fun r => (r.filter (·.2)).length)).sum
      run := some { d with parts := others, outs := d.outs ++ [(at_, out.map (fun r => r.map (·.1)))] } }

/-- An array finishes its output tile and takes the next one (R228). -/
def tileDone (s : State) (tag p : Nat) : State :=
  let s := redispatch s
  match (mtxOf s tag).run with
  | none => s
  | some d => match look d.busy p with
    | some w => if w.next = w.tile.kTo then redispatch (tileEnds s tag p d w) else s
    | none => arraysLeft s tag

/-- OUTPUT_TILE_DONE (R228). -/
def execOutputTileDone (tag part : Nat) (s : State) : Result :=
  .next (if (matrixRunning s tag).isSome && decide (part < 64) then tileDone s tag part else s)

end Sys2Proof.Machine
end

