-- ==== Sys2Proof/Machine/Balls.lean ====
section
/-! DEFINITION. Balls: the ball map, internal pulls, what pins do while nothing drives them, and the boundary scan order (26 R547 to
R551, R556, R558, R563). -/
namespace Sys2Proof.Machine

/-- Package rails and ground (26 Table - Package rails). -/
inductive Rail where
  | core | sram | hbm | ddqHbm | vppHbm | ddqLp | lpPhy | ccqNand | serdes | pcie | aon | pll | chain | io18 | vss
  deriving DecidableEq, Repr

/-- Signals of one LPDDR channel (26 Table - LPDDR channel balls); `t` tells the true side of a pair. -/
inductive LpSignal where
  | dq (n : Nat) | dmi (n : Nat) | wck (n : Nat) (t : Bool) | rdqs (n : Nat) (t : Bool) | ck (t : Bool) | ca (n : Nat) | cs (n : Nat)
  | reset | vss
  deriving DecidableEq, Repr

/-- Signals of one ONFI channel (26 Table - ONFI channel balls). -/
inductive OnfiSignal where
  | dq (n : Nat) | dqs (t : Bool) | re (t : Bool) | we | ale | cle | wp | ce (n : Nat) | vss
  deriving DecidableEq, Repr

/-- What a ball carries (26 R549, R551). Channels, lanes and ports are global (02 R34); `tx` tells a transmitter and `p` the positive side of a
pair. -/
inductive Ball where
  | lp (channel : Nat) (sig : LpSignal) | onfi (channel : Nat) (sig : OnfiSignal)
  | pcie (port lane : Nat) (tx p : Bool) | strand (lane : Nat) (tx p : Bool) | perst (port : Nat)
  | lpZq (facet : Nat) | nandZq (facet : Nat) | serCal (facet : Nat) | noFunction | rail (r : Rail)
  | powerGood | assaySel | trayPos | rackSlot (n : Nat) | eject | pwrBrake | enumIn | enumOut | thermTrip | testMode
  | spiClk | spiCs | spiIo (n : Nat) | tck | tms | tdi | tdo | trst | chain (p : Bool) | pcieRef (p : Bool) | strandRef (p : Bool)
  | xtalIn | xtalOut
  deriving DecidableEq, Repr

/-! ## The ball map (R547 to R551) -/

/-- Signal k of an LPDDR channel. -/
def lpBall (k : Nat) : LpSignal :=
  if k < 8 then .dq k else if k = 8 then .dmi 0 else if k < 11 then .wck 0 (k == 9) else if k < 13 then .rdqs 0 (k == 11)
  else if k < 21 then .dq (k - 5) else if k = 21 then .dmi 1 else if k < 24 then .wck 1 (k == 22) else if k < 26 then .rdqs 1 (k == 24)
  else if k < 28 then .ck (k == 26) else if k < 35 then .ca (k - 28) else if k < 37 then .cs (k - 35)
  else if k = 37 then .reset else .vss

/-- Signal k of an ONFI channel. -/
def onfiBall (k : Nat) : OnfiSignal :=
  if k < 8 then .dq k else if k < 10 then .dqs (k == 8) else if k < 12 then .re (k == 10) else if k = 12 then .we else if k = 13 then .ale
  else if k = 14 then .cle else if k = 15 then .wp else if k < 24 then .ce (k - 16) else .vss

/-- The supply and ground balls of a facet block, from index 524. -/
def facetRail (i : Nat) : Rail :=
  if i < 528 then .vss else if i < 704 then .core else if i < 744 then .sram else if i < 760 then .hbm else if i < 776 then .ddqHbm
  else if i < 780 then .vppHbm else if i < 796 then .ddqLp else if i < 804 then .lpPhy else if i < 812 then .ccqNand
  else if i < 820 then .serdes else if i < 828 then .pcie else .vss

/-- Local index i of facet f (R549, R550): PCIe lanes and PERST# have a function on F0 and F4 only. -/
def facetBall (f i : Nat) : Ball :=
  if i < 320 then .lp (8 * f + i / 40) (lpBall (i % 40))
  else if i < 448 then .onfi (4 * f + (i - 320) / 32) (onfiBall ((i - 320) % 32))
  else if i < 512 then
    if f % 4 = 0 then .pcie (f / 4) ((i - 448) / 4) (decide ((i - 448) % 4 < 2)) (decide (i % 2 = 0)) else .noFunction
  else if i < 520 then .strand (2 * f + (i - 512) / 4) (decide ((i - 512) % 4 < 2)) (decide (i % 2 = 0))
  else if i = 520 then (if f % 4 = 0 then .perst (f / 4) else .noFunction)
  else if i = 521 then .lpZq f else if i = 522 then .nandZq f else if i = 523 then .serCal f
  else .rail (facetRail i)

/-- Central index j (R551). -/
def centralBall (j : Nat) : Ball :=
  match j with
  | 0 => .powerGood | 1 => .assaySel | 2 => .trayPos
  | 3 => .rackSlot 0 | 4 => .rackSlot 1 | 5 => .rackSlot 2 | 6 => .rackSlot 3 | 7 => .rackSlot 4 | 8 => .rackSlot 5
  | 9 => .eject | 10 => .pwrBrake | 11 => .enumIn | 12 => .enumOut | 13 => .thermTrip | 14 => .testMode
  | 16 => .spiClk | 17 => .spiCs | 18 => .spiIo 0 | 19 => .spiIo 1 | 20 => .spiIo 2 | 21 => .spiIo 3
  | 23 => .tck | 24 => .tms | 25 => .tdi | 26 => .tdo | 27 => .trst | 29 => .chain true | 30 => .chain false
  | 33 => .pcieRef true | 34 => .pcieRef false | 36 => .strandRef true | 37 => .strandRef false | 39 => .xtalIn | 40 => .xtalOut
  | _ =>
    if j < 48 then .rail .vss else if j < 64 then .rail .aon else if j < 72 then .rail .pll else if j < 76 then .rail .chain
    else if j < 80 then .rail .io18 else .rail .vss

/-- Origin of facet f's block (R548). -/
def blockOrigin (f : Nat) : Nat × Nat := [(1, 1), (33, 1), (65, 1), (65, 33), (1, 33), (1, 65), (33, 65), (65, 65)].getD f (0, 0)

/-- Coordinate of local index i of facet f. -/
def facetCoord (f i : Nat) : Nat × Nat := ((blockOrigin f).1 + i % 32, (blockOrigin f).2 + i / 32)

/-- Coordinate of central index j. -/
def centralCoord (j : Nat) : Nat × Nat := (41 + j % 16, 41 + j / 16)

/-- The facet whose block starts at a column and a row. -/
def blockFrom (o : Nat × Nat) : Option Nat := (upto 8).find? (fun f => blockOrigin f == o)

/-- The facet whose block holds a column and a row. -/
def blockAt (c r : Nat) : Option Nat := blockFrom ((c - 1) / 32 * 32 + 1, (r - 1) / 32 * 32 + 1)

/-- The ball at a coordinate; none where there is no ball (R547). -/
def ballAt (c r : Nat) : Option Ball :=
  if c = 0 ∨ 96 < c ∨ r = 0 ∨ 96 < r then none
  else match blockAt c r with
    | some f => some (facetBall f ((r - (blockOrigin f).2) * 32 + (c - (blockOrigin f).1)))
    | none => if 41 ≤ c ∧ c ≤ 56 ∧ 41 ≤ r ∧ r ≤ 56 then some (centralBall ((r - 41) * 16 + (c - 41))) else none

/-! ## Boundary scan (R563) -/

/-- A ball has boundary cells: the single-ended balls of central row 41, the SPI and TRST# balls, and the ONFI signals. -/
def scanned : Ball → Bool
  | .onfi _ .vss => false
  | .onfi _ _ => true
  | .powerGood | .assaySel | .trayPos | .rackSlot _ | .eject | .pwrBrake | .enumIn | .enumOut | .thermTrip | .testMode => true
  | .spiClk | .spiCs | .spiIo _ | .trst => true
  | _ => false

/-- The scanned balls of one row, in ascending columns. -/
def scanRow (r : Nat) : List Ball :=
  ((rangeFrom 1 96).filterMap (fun c => ballAt c r)).filter scanned

/-- The scanned balls in the order of the boundary register. -/
def scanOrder : List Ball := (rangeFrom 1 96).flatMap scanRow

/-- Cells of the boundary register: input, output and output enable of each scanned ball. -/
def boundaryBits : Nat := 3 * scanOrder.length

/-! ## Pins that nothing drives (R556, R558) -/

/-- What a pin does. -/
inductive Pad where
  | low | high | highZ | released | electricalIdle
  deriving DecidableEq, Repr

/-- The state of a pin while PWR_GOOD is low (26 Table - Pin states before and after PWR_GOOD); none for pins that it does not name. -/
def padOff : Ball → Option Pad
  | .enumOut => some .low
  | .lp _ .reset => some .low
  | .lp _ .vss => none
  | .lp _ _ => some .highZ
  | .onfi _ (.ce _) => some .high
  | .onfi _ .wp => some .low
  | .onfi _ .vss => none
  | .onfi _ _ => some .highZ
  | .pcie _ _ tx _ => if tx then some .electricalIdle else none
  | .strand _ tx _ => if tx then some .electricalIdle else none
  | .spiClk | .spiCs | .spiIo _ => some .highZ
  | .chain _ => some .highZ
  | .thermTrip => some .released
  | .tdo => some .highZ
  | _ => none

/-- What the package does with a pin: THERMTRIP# while latched, ENUM_OUT at its level, and every other as padOff gives while PWR_GOOD is low
or THERMTRIP# is latched (R556, R567); none where the pin's interface decides. -/
def padOf (s : State) (b : Ball) : Option Pad :=
  match b with
  | .thermTrip => some (if s.supply.thermtrip then .low else .released)
  | .enumOut => some (if bitOf (regGet s (cKey 0x20)) 16 then .high else .low)
  | b => if !s.supply.powerGood || s.supply.thermtrip then padOff b else none

/-- Level to which an internal pull takes an unconnected pin (R558): true is a pull-up. -/
def pullOf : Ball → Option Bool
  | .eject | .pwrBrake | .tms | .tdi | .spiCs => some true
  | .enumIn | .trst | .testMode => some false
  | _ => none

end Sys2Proof.Machine
end

