-- ==== Sys2Proof/Machine/MemoryCmds.lean ====
section
/-! DEFINITION. MemoryCmds: scrubbing, row retirement, grants and lost PHYs (06 R121 to R135). -/
namespace Sys2Proof.Machine

/-- A patrol scrub read of the granule at an address (06 R122, R123): a correction is counted, written back and added to its
row; an uncorrectable error is counted and stays; stored poison and clean cells change nothing. -/
def scrub (s : State) (a row : Nat) (found : CellCheck) : State :=
  let g := a / granule a * granule a
  if !alive s || !populated s g (granule a) || !rangeLive s g (granule a) || (look s.mem.poison g).isSome then s
  else match found with
    | .clean => s
    | .correctable =>
      let s := bump { s with mem := { s.mem with weak := remove s.mem.weak g } } (eccKey a) 16 16 1
      match rowAt s a row with | some r => rowCorrected s r | none => s
    | .uncorrectable =>
      let s := bump s (eccKey a) 0 16 1
      if s.mem.broken.contains g then s
      else { s with mem := { s.mem with broken := s.mem.broken ++ [g], weak := remove s.mem.weak g } }

/-- SCRUB_READ (06 R123). -/
def execScrubRead (addr row : Nat) (found : CellCheck) (s : State) : Result := .next (scrub s addr row found)

/-- The retired-row list takes a row once, up to 4,096 rows; a row retired while it is full counts in MEM_RETIRE_UNLISTED
(06 R125). -/
def listRow (s : State) (r : RowId) : State :=
  if s.nor.retired.contains (rowNo r) then s
  else if s.nor.retired.length < 4096 then norKeep s { s.nor with retired := s.nor.retired ++ [rowNo r] }
  else bump s (fKey (rowFacet r) 0x20024) 0 32 1

/-- A row left in service unrepaired (06 R124). -/
def rowUnrepaired (s : State) (r : RowId) : State := bump s (fKey (rowFacet r) 0x20020) 16 8 1

/-- A row's retirement copy ends (06 R124 to R126): soft repair in HBM when the bank has a repair left (`room`), redirection
in LPDDR while the channel's spare area has one of its 4,096 rows free. -/
def rowCopied (s : State) (r : RowId) (room : Bool) : State :=
  if !s.mem.copying.contains r then s
  else
    let s := { s with mem := { s.mem with copying := s.mem.copying.erase r, retired := s.mem.retired ++ [r] } }
    if r.hbm then
      if room then listRow (bump s (fKey r.unit 0x20020) 24 8 1) r else rowUnrepaired s r
    else
      let k := fKey (r.unit / 8) (0x20040 + 4 * (r.unit % 8))
      if regFld s k 0 13 < 4096 then
        listRow (bump (regSetFld s k 0 13 (regFld s k 0 13 + 1)) (fKey (r.unit / 8) 0x20020) 0 16 1) r
      else rowUnrepaired s r

/-- ROW_RETIRE_COPY_DONE (06 R124). -/
def execRowRetireCopyDone (hbm : Bool) (unit row : Nat) (room : Bool) (s : State) : Result :=
  .next (rowCopied s ⟨hbm, unit, row⟩ room)

/-- RESV_EVALUATION (06 R131). -/
def execResvEvaluation (s : State) : Result := .next (if alive s then evalGrants s else s)

/-- KIND and NUMBER of a PHY's unit (24 Table - Fence detail); none when there is no such unit. -/
def phyUnit : PhyUnit → Option (Nat × Nat)
  | .hbm f => if f < 8 then some (4, f) else none
  | .lpddr c => if c < 64 then some (5, c) else none
  | .link f d => if f < 8 then (neighbour f d).map (fun g => (9, 8 * min f g + max f g)) else none

/-- PHY_LOCK_LOST: the unit is fenced with cause PHY, its data is lost, grants are evaluated at once (06 R121, R131). -/
def execPhyLockLost (unit : PhyUnit) (s : State) : Result :=
  .next (match phyUnit unit with
    | some (k, n) => if alive s then fenceUnit s k n 6 else s
    | none => s)

end Sys2Proof.Machine
end

