-- ==== Sys2Proof/Machine/Ownership.lean ====
section
/-! DEFINITION. Ownership: the meanings of the coherence commands (05 R94 to R111). A command that names no message under
way, no line of a home or no partition of the package is no event of the machine and changes nothing (note 8). -/
namespace Sys2Proof.Machine

/-- The check of an access of partition code to a line (06 R121, R127): regions and units of the tenant that holds the partition. -/
def cacheCheck (s : State) (l p : Nat) : Option Status :=
  match partTenant s p with
  | none => some .outOfRegion
  | some t => checkAccess s t (lineAddr l) 128

/-- What a partition's access finds in its own cache (05 R95): a read of a line held, or a store to a line held in E or M, which the
cache performs silently. -/
def cacheHit (s : State) (l p : Nat) (store : Option (Nat × List Byte)) (req : LineReq) : Option State :=
  match look (cacheOf s p).lines l with
  | none => none
  | some h =>
    if readsOnly req then some s
    else if h.state = .shared then none
    else match store with
      | none => some s
      | some (off, n) => some (setCache s p { cacheOf s p with lines := place (cacheOf s p).lines l (storedLine h off n) })

/-- A partition's request to a home (05 R97, R101): a line that its cache may use as it stands is served there; otherwise its access is
checked, its miss register, when free, is taken, and the request is submitted. A partition that waits on a fence instruction
issues nothing (03 R61). -/
def cacheRequest (s : State) (l : Nat) (tid : Tid) (store : Option (Nat × List Byte)) (req : LineReq) : State :=
  if !alive s || !partLive s tid.part || decide (64 ≤ tid.part) || decide (32 ≤ tid.entry) || (homeOf l).isNone ||
      s.coh.fencing.contains tid.part then s
  else match cacheHit s l tid.part store req with
    | some s' => s'
    | none =>
      let c := cacheOf s tid.part
      if (look c.misses tid.entry).isSome then s
      else match cacheCheck s l tid.part with
        | some st => partFault s tid.part st
        | none => submitReq (setCache s tid.part { c with misses := place c.misses tid.entry ⟨l, store⟩ }) l req

/-- RD_S at the home (05 R98). -/
def execRdS (line : Nat) (tid : Tid) (s : State) : Result := .next (cacheRequest s line tid none (.rdS tid))

/-- RD_O at the home (05 R98). -/
def execRdO (line : Nat) (tid : Tid) (store : Option (Nat × List Byte)) (s : State) : Result :=
  .next (cacheRequest s line tid store (.rdO tid))

/-- UPG at the home (05 R98, Corners). -/
def execUpg (line : Nat) (tid : Tid) (store : Option (Nat × List Byte)) (s : State) : Result :=
  .next (cacheRequest s line tid store (.upg tid))

/-- The line a WB carries: that of the sender's buffer entry while it holds one, else the bytes of the command. -/
def wbLine (s : State) (l : Nat) (tid : Tid) (data : List Byte) : List Byte × Option Origin :=
  match look (cacheOf s tid.part).wbs tid.entry with
  | some w => if w.line = l then (w.data, w.poison) else (data, none)
  | none => (data, none)

/-- A cache that still holds the line in E or M gives it up to the writeback buffer entry the WB names, with the bytes the WB
carries, which hold its stores (05 R95, R105). -/
def wbEvict (s : State) (l : Nat) (tid : Tid) (data : List Byte) : State :=
  let c := cacheOf s tid.part
  match look c.lines l, look c.wbs tid.entry with
  | some h, none =>
    if 16 ≤ tid.entry ∨ h.state = .shared then s
    else setCache s tid.part { c with lines := remove c.lines l, wbs := place c.wbs tid.entry ⟨l, data, h.poison, nextAge c⟩ }
  | _, _ => s

/-- A WB of one of the 16 entries at the home (05 R97): accepted, discarded, or a protocol fault, which fences the sender with cause PROTOCOL (05 R106,
R107). -/
def writeback (s : State) (l : Nat) (tid : Tid) (data : List Byte) : State :=
  if !alive s || decide (64 ≤ tid.part) || decide (16 ≤ tid.entry) || (homeOf l).isNone then s
  else match takeWb (wbEvict s l tid data) l tid (wbLine (wbEvict s l tid data) l tid data) with
    | some s' => s'
    | none => fenceUnit s 1 tid.part 5

/-- WB (05 R106, R107). -/
def execWb (line : Nat) (tid : Tid) (data : List Byte) (s : State) : Result := .next (writeback s line tid data)

/-- A cache gives up an E or S line. -/
def dropClean (s : State) (l p : Nat) : State :=
  setCache s p { cacheOf s p with lines := remove (cacheOf s p).lines l }

/-- A cache holds a line in M. -/
def holdsM (s : State) (l p : Nat) : Bool :=
  match look (cacheOf s p).lines l with | some h => h.state == .modified | none => false

/-- The sender drops its E or S line and the home takes the notice; it answers a forward that still awaits its sender (05 R97,
R100). A cache that holds the line in M sends no EVICT (note 8). -/
def evictNotice (s : State) (l : Nat) (tid : Tid) : State :=
  if !alive s || decide (64 ≤ tid.part) || (homeOf l).isNone || holdsM s l tid.part then s
  else
  let s := dropClean s l tid.part
  if forwardOut s l tid.part then answerTxn s l tid.part none false
  else match dirOf s l with
    | .owned p => if p = tid.part then setDir s l .invalid else s
    | .shared v => let v' := setBit v tid.part false
      setDir s l (if v' = 0#64 then .invalid else .shared v')
    | .invalid => s

/-- EVICT (05 R97). -/
def execEvict (line : Nat) (tid : Tid) (s : State) : Result := .next (evictNotice s line tid)

/-- FWD_DATA at the home: discarded when the WB with its TID was consumed; otherwise it completes the pending request, and a
WB TID it carries becomes stale (05 R106). -/
def takeFwdData (s : State) (l p : Nat) : State :=
  match recvHome s l p (fun m => match m with | .fwdData k q _ _ _ _ => k == l && q == p | _ => false) with
  | some (.fwdData _ _ _ d po wbb, s1) =>
    match wbb with
    | some e =>
      let k := (tidNo ⟨p, e⟩, l)
      if s1.coh.consumed.contains k then
        countStale (setCoh s1 { s1.coh with consumed := s1.coh.consumed.erase k }) l
      else answerTxn (setCoh s1 { s1.coh with stale := s1.coh.stale ++ [k] }) l p (some (d, po)) false
    | none =>
      let keep := match look s1.coh.txn l with | some t => readsOnly t.req && partLive s1 p | none => false
      answerTxn s1 l p (some (d, po)) keep
  | _ => s

/-- FWD_DATA (05 R106): a fence instruction of its sender may then be complete (03 R61). -/
def execFwdData (line sender : Nat) (s : State) : Result := .next (settleFences (takeFwdData s line sender))

/-- ACK_INV at the home (05 R98). -/
def takeAckInv (s : State) (l p : Nat) : State :=
  match recvHome s l p (fun m => match m with | .ackInv k q _ => k == l && q == p | _ => false) with
  | some (_, s1) => settleFences (answerTxn s1 l p none false)
  | none => s

/-- ACK_INV (05 R98). -/
def execAckInv (line sender : Nat) (s : State) : Result := .next (takeAckInv s line sender)

/-- The fabric code's check of a line's data at the cache (08 R166, R168): the line travels in one flit. -/
def lineMeets (s : State) (l p : Nat) (fab : FabricSeen) (po : Option Origin) : State :=
  let bad := if fab.bad.isEmpty then [] else [0]
  fabricMeets s (p / 8) { fab with bad := bad } (if po.isNone then bad else []) false (fun _ => lineAddr l) (partTenant s p)

/-- The poison of a line's data once the fabric code has been checked: what it carried, else FABRIC where the check failed. -/
def seenPoison (fab : FabricSeen) (po : Option Origin) : Option Origin :=
  match po with | some o => some o | none => if fab.bad.isEmpty then none else some .fabric

/-- A grant at the cache: a full set first gives up the victim named; then the line is installed and the pending store is
performed (05 R97, R99). -/
def takeGrant (s : State) (l : Nat) (tid : Tid) (x : GrantSeen) : State :=
  match recvCache s l tid.part (fun m => match m with | .grant _ k t _ _ => k == l && t == tid | _ => false) with
  | some (.grant k _ _ d po, s1) =>
    let c := cacheOf s1 tid.part
    let c := match x.victim with | some (v, e) => evictLine c v e | none => c
    if 16 ≤ inSet c l ∧ (look c.lines l).isNone then s
    else
      let st := match look c.misses tid.entry with | some m => m.store | none => none
      let met := if k = .grantM then s1 else lineMeets s1 l tid.part x.fabric po
      settleFences (setCache met tid.part { c with
        lines := place c.lines l (installed k (look c.lines l) d (if k = .grantM then po else seenPoison x.fabric po) st)
        misses := remove c.misses tid.entry })
  | _ => s

/-- DATA_S, DATA_E, DATA_M or GRANT_M (05 R99). -/
def execDataGrant (line : Nat) (tid : Tid) (seen : GrantSeen) (s : State) : Result :=
  .next (takeGrant s line tid seen)

/-- A forward at the owner's cache (05 R105). -/
def takeFwd (s : State) (l p : Nat) (keep : Bool) : State :=
  match recvCache s l p (fun m => match m with
      | .fwdS k q _ => keep && k == l && q == p
      | .fwdO k q _ => !keep && k == l && q == p
      | _ => false) with
  | some (.fwdS _ _ tid, s1) => answerFwd s1 l p tid keep
  | some (.fwdO _ _ tid, s1) => answerFwd s1 l p tid keep
  | some (_, s1) => s1
  | none => s

/-- FWD_S (05 R98, R105). -/
def execFwdS (line part : Nat) (s : State) : Result := .next (takeFwd s line part true)

/-- FWD_O (05 R98, R105). -/
def execFwdO (line part : Nat) (s : State) : Result := .next (takeFwd s line part false)

/-- INV at a sharer's cache: the line is dropped and ACK_INV answers, whether or not the cache still holds it (05 R105,
Corners). -/
def takeInv (s : State) (l p : Nat) : State :=
  match recvCache s l p (fun m => match m with | .inv k q _ => k == l && q == p | _ => false) with
  | some (.inv _ _ tid, s1) =>
    let c := cacheOf s1 p
    cohSend (setCache s1 p { c with lines := remove c.lines l }) (.ackInv l p tid)
  | _ => s

/-- INV (05 R105). -/
def execInv (line part : Nat) (s : State) : Result := .next (takeInv s line part)

/-- WB_ACK at the cache: the writeback buffer entry is freed (05 R105). -/
def takeWbAck (s : State) (l : Nat) (tid : Tid) : State :=
  match recvCache s l tid.part (fun m => m == .wbAck l tid) with
  | some (_, s1) =>
    let c := cacheOf s1 tid.part
    settleFences (setCache s1 tid.part { c with wbs := remove c.wbs tid.entry })
  | none => s

/-- WB_ACK (05 R105). -/
def execWbAck (line : Nat) (tid : Tid) (s : State) : Result := .next (takeWbAck s line tid)

/-- A write of bytes inside one line. -/
def ioFits : IoOp → Bool
  | .read => true | .write off d => decide (off + d.length ≤ 128)

/-- Address and length of the bytes an I/O access names. -/
def ioRange (l : Nat) (op : IoOp) : Nat × Nat :=
  match op with | .read => (lineAddr l, 128) | .write off d => (lineAddr l + off, d.length)

/-- What reading the cells finds (06 R122): in each granule that the access reads, an error that is corrected or one that cannot be
stands in the cells from now on, and every read meets it; stored poison is no such error. -/
def cellsFound (s : State) (l : Nat) (op : IoOp) (found : List (Nat × Nat × CellCheck)) : State :=
  let (a, n) := ioRange l op
  let gs := if n = 0 then [] else (granulesOf a n).filter (fun g => op == .read || !covers a n g)
  found.foldl (fun s x =>
    let b := lineAddr l + x.1
    let g := b / granule b * granule b
    if !gs.contains g || (look s.mem.poison g).isSome || s.mem.broken.contains g then s
    else match x.2.2 with
      | .clean => s
      | .correctable => { s with mem := { s.mem with weak := place s.mem.weak g x.2.1 } }
      | .uncorrectable => { s with mem := { s.mem with broken := s.mem.broken ++ [g], weak := remove s.mem.weak g } }) s

/-- The check of an I/O access: a near store is no I/O agent's to reach (06 R116); then the tenant's regions and the units (06
R115, R121, R127; 18 R395). -/
def ioCheck (s : State) (t l : Nat) (op : IoOp) : Option Status :=
  match locOf (lineAddr l) with
  | .near _ _ => some .outOfRegion
  | _ => checkAccess s t (ioRange l op).1 (ioRange l op).2

/-- An access that passed its check: to a line of a home under one of its 2,048 credits, or, where the line has no home, straight to
the slice (05 R102, R108; 06 R117). -/
def ioRun (s : State) (id t l : Nat) (op : IoOp) (found : List (Nat × Nat × CellCheck)) : State :=
  match homeOf l with
  | none =>
    let s := cellsFound s l op found
    match op with
    | .read => ioResult (noteRead s t (lineAddr l) 128) id (lineOfMem s l)
    | .write off d => ioResult (memWrite (noteParts s t (lineAddr l + off) d.length) (lineAddr l + off) d) id ([], none)
  | some h =>
    if 2048 ≤ ioAt s h ∨ s.coh.waits.any (fun w => homeOf w.1 == some h) then s
    else submitReq (if (match dirOf s l with | .owned _ => true | _ => false) then s else cellsFound s l op found) l (.io id t op)

/-- An I/O agent's access (05 R108): one that fails its check moves nothing. -/
def ioAccess (s : State) (id t l : Nat) (op : IoOp) (found : List (Nat × Nat × CellCheck)) : State :=
  if !alive s || !ioFits op then s
  else match ioCheck s t l op with
    | some st => setCoh s { s.coh with ioFaults := s.coh.ioFaults ++ [(id, st)] }
    | none => ioRun s id t l op found

/-- IO_ACCESS (05 R108). -/
def execIoAccess (id tenant line : Nat) (op : IoOp) (found : List (Nat × Nat × CellCheck)) (s : State) : Result :=
  .next (ioAccess s id tenant line op found)

/-- The check of NS_FILL and NS_DRAIN: alignment (05 R109), then the tenant's regions (06 R116, R127). -/
def nsCheck (s : State) (p near mem len : Nat) : Option Status :=
  if mem % 128 ≠ 0 ∨ near % 128 ≠ 0 ∨ len % 128 ≠ 0 then some .badAlign
  else if 0x400000 < near + len then some .outOfRegion
  else match partTenant s p with
    | none => some .outOfRegion
    | some t => checkAccess s t mem len

/-- NS_FILL or NS_DRAIN, one home request per line, each under a credit (05 R102, R109); one that fails its check moves no line and
fails its request. -/
def nsTransfer (s : State) (p near mem len : Nat) (mk : Nat → LineReq) : State :=
  if !alive s || !isSealedNow s || !partLive s p || decide (64 ≤ p) || s.coh.fencing.contains p then s
  else match nsCheck s p near mem len with
    | some st => partFault s p st
    | none => (upto (len / 128)).foldl (fun s i => submitIo s (mem / 128 + i) (mk (near + 128 * i))) s

/-- NS_FILL (05 R109, R110). -/
def execNsFill (part mem near len : Nat) (s : State) : Result :=
  .next (nsTransfer s part near mem len (fun n => .nsFill part n))

/-- NS_DRAIN (05 R109). -/
def execNsDrain (part near mem len : Nat) (s : State) : Result :=
  .next (nsTransfer s part near mem len (fun n => .nsDrain part n))

/-- A partition's fence instruction (03 R61, 05 R111): it completes at once when nothing is outstanding, else when the last
transfer has been accepted. -/
def execFenceInstruction (part : Nat) (s : State) : Result :=
  .next (if !alive s || !partLive s part || decide (64 ≤ part) then s
    else settleFences (setCoh s { s.coh with fencing := s.coh.fencing ++ [part] }))

end Sys2Proof.Machine
end

