-- ==== Sys2Proof/Machine/Power.lean ====
section
/-! DEFINITION. Power: the cap and CAP frames, the brake, and the power loop (22 R482 to R495). -/
namespace Sys2Proof.Machine

/-! ## SipHash-2-4 (R485) -/

/-- State of SipHash. -/
structure Sip where
  v0 : DWord
  v1 : DWord
  v2 : DWord
  v3 : DWord
  deriving DecidableEq, Repr

/-- One SipHash round. -/
def sipRound (x : Sip) : Sip :=
  let a0 := x.v0 + x.v1
  let b1 := x.v1.rotateLeft 13 ^^^ a0
  let a0 := a0.rotateLeft 32
  let a2 := x.v2 + x.v3
  let b3 := x.v3.rotateLeft 16 ^^^ a2
  let c0 := a0 + b3
  let d3 := b3.rotateLeft 21 ^^^ c0
  let c2 := a2 + b1
  let d1 := b1.rotateLeft 17 ^^^ c2
  ⟨c0, d1, c2.rotateLeft 32, d3⟩

/-- Takes one message word: two compression rounds. -/
def sipWord (x : Sip) (m : DWord) : Sip :=
  let y := sipRound (sipRound { x with v3 := x.v3 ^^^ m })
  { y with v0 := y.v0 ^^^ m }

/-- SipHash-2-4 of a 16-byte message under a 16-byte key: 64 bits. -/
def sipHash (key msg : List Byte) : DWord :=
  let k0 := BitVec.ofNat 64 (rdLe key 0 8)
  let k1 := BitVec.ofNat 64 (rdLe key 8 8)
  let x : Sip := ⟨k0 ^^^ 0x736f6d6570736575#64, k1 ^^^ 0x646f72616e646f6d#64, k0 ^^^ 0x6c7967656e657261#64,
    k1 ^^^ 0x7465646279746573#64⟩
  let x := sipWord (sipWord x (BitVec.ofNat 64 (rdLe msg 0 8))) (BitVec.ofNat 64 (rdLe msg 8 8))
  let x := sipWord x 0x1000000000000000#64
  let x := sipRound (sipRound (sipRound (sipRound { x with v2 := x.v2 ^^^ 0xFF#64 })))
  x.v0 ^^^ x.v1 ^^^ x.v2 ^^^ x.v3

/-! ## The cap (R483, R490) -/

/-- Key of PWR_CAP. -/
def capKey : Nat := aKey 0xE0100
/-- Code of the cap in force. -/
def capCode (s : State) : Nat := regFld s capKey 0 8
/-- The limit of a code: 40% of it, rounded down to 5 W, while the brake is asserted. -/
def limitOf (brake : Bool) (code : Nat) : Nat := if brake then code * 2 / 5 else code
/-- An event of the power block to the owner. -/
def powerEvent (s : State) (c : EventCode) (detail : Nat) : State := raise s 0 c 0xE (activeFacet s) 0xFF detail

/-- LIMIT follows the cap and the brake. -/
def showLimit (s : State) : State := regSetFld s capKey 8 8 (limitOf s.power.brake (capCode s))

/-- The cap in force becomes a code from a source: CAP_CHANGED at a change (R483). -/
def setCap (s : State) (code src : Nat) : State :=
  if capCode s = code ∧ regFld s capKey 28 2 = src then s
  else powerEvent (showLimit (regSetFld (regSetFld s capKey 0 8 code) capKey 28 2 src)) .capChanged (code + src * 2 ^ 8)

/-- The rack key in force as 16 bytes (R485). -/
def rackKey (s : State) : List Byte := (upto 4).flatMap (fun i => leBytes 4 (forceGet s (0x70100 + 4 * i)).toNat)

/-- TAG that a CAP payload must carry (R485). -/
def capTag (s : State) (p : List Byte) : DWord := sipHash (rackKey s) ((leBytes 8 s.mfg.serial.toNat).reverse ++ p.take 8)

/-- Value of a big-endian byte string. -/
def beNat (l : List Byte) : Nat := leNat l.reverse

/-- A rejected CAP counts and is reported (R486): 0 TAG, 1 REPLAY, 2 RANGE. -/
def capReject (s : State) (why counter : Nat) : State :=
  powerEvent (bump s (aKey 0xE0110) (24 - 8 * why) 8 1) .capRejected (why + counter * 2 ^ 32)

/-- A CAP frame that was taken is judged (R486); an accepted one has the grants evaluated at once (R492). -/
def capJudge (s : State) (p : List Byte) : State :=
  let ctr := beNat (slice p 4 4)
  let code := beNat (slice p 2 2)
  let last := (regGet s (aKey 0xE010C)).toNat
  if beNat (slice p 8 8) ≠ (capTag s p).toNat then capReject s 0 ctr
  else if ctr = last ∧ s.chain.lastCap = some p then bump s (aKey 0xE0110) 0 8 1
  else if ctr ≤ last then capReject s 1 ctr
  else
    let s := regSet s (aKey 0xE010C) (BitVec.ofNat 32 ctr)
    if code < 60 ∨ 240 < code ∨ 128 ≤ rdB p 0 ∨ rdB p 1 ≠ 0 then capReject s 2 ctr
    else evalNow (setCap { s with chain := { s.chain with lastCap := some p } } code 1)

/-- A seal (R483, R486): the boot cap takes force unless a CAP frame was accepted since package reset; a new rack key
starts the counters anew. -/
def capAtSeal (s : State) (newKey : Bool) : State :=
  let s := if newKey then { (regSet s (aKey 0xE010C) 0#32) with chain := { s.chain with lastCap := none } } else s
  if regFld s capKey 28 2 = 1 then s else setCap s (fld (forceGet s 0x70110) 0 8) 0

/-! ## Shedding (R493) -/

/-- Class of a partition: the lowest CLASS of its tenant's nonzero reservations, or 3; none when no tenant holds it. -/
def partClass (s : State) (p : Nat) : Option Nat :=
  (partTenant s p).map (fun t =>
    let ws := ((upto 32).map (fun j => resvWord s (32 * t + j))).filter (· ≠ 0#32)
    (ws.map (fun w => fld w 16 2)).foldl min 3)

/-- Codes of the partitions, and p and engine duty of the facets, in their units. -/
structure Grants where
  codes : List Nat
  p : List Nat
  duty : List Nat
  deriving DecidableEq, Repr

/-- Every partition at its ceiling, unassigned ones at 0; every facet at p = 1.00 and duty 1.00. -/
def fullGrants (s : State) : Grants :=
  ⟨(upto 64).map (fun p => if (partTenant s p).isSome then regFld s (pmaxAt p).1 (pmaxAt p).2 7 else 0),
   List.replicate 8 20, List.replicate 8 20⟩

/-- One round over partitions, highest first: one step off each that stands above 0, while steps are left. -/
def shedRound (ps : List Nat) (n : Nat) (codes : List Nat) : Nat × List Nat :=
  ps.foldl (fun x p => if x.1 = 0 ∨ x.2.getD p 0 = 0 then x else (x.1 - 1, x.2.set p (x.2.getD p 0 - 1))) (n, codes)

/-- Rounds until the steps are spent or every partition is at 0 (a code is at most 104). -/
def shedRounds : Nat → List Nat → Nat → List Nat → Nat × List Nat
  | 0, _, n, codes => (n, codes)
  | k + 1, ps, n, codes => if n = 0 then (n, codes) else let x := shedRound ps n codes; shedRounds k ps x.1 x.2

/-- Partitions of a class on some facets, highest first. -/
def classParts (s : State) (fs : List Nat) (c : Nat) : List Nat :=
  ((upto 64).filter (fun p => fs.contains (p / 8) && partClass s p == some c)).reverse

/-- Sheds up to n steps of p and duty together on some facets. -/
def shedFacets (fs : List Nat) : Nat → Nat → Grants → Nat × Grants
  | 0, n, g => (n, g)
  | k + 1, n, g =>
    if n = 0 ∨ fs.all (fun f => g.p.getD f 20 ≤ 6 && g.duty.getD f 20 ≤ 5) then (n, g)
    else shedFacets fs k (n - 1) ⟨g.codes, fs.foldl (fun l f => l.set f (max 6 (l.getD f 20 - 1))) g.p,
      fs.foldl (fun l f => l.set f (max 5 (l.getD f 20 - 1))) g.duty⟩

/-- Sheds n steps on some facets in the order of R493: classes 3, 2 and 1, then p and duty, then class 0. -/
def shed (s : State) (fs : List Nat) (n : Nat) (g : Grants) : Grants :=
  let x := [3, 2, 1].foldl (fun (x : Nat × List Nat) c => shedRounds 104 (classParts s fs c) x.1 x.2) (n, g.codes)
  let y := shedFacets fs 15 x.1 { g with codes := x.2 }
  { y.2 with codes := (shedRounds 104 (classParts s fs 0) y.1 y.2.codes).2 }

/-- Every floor is reached. -/
def atFloor (g : Grants) : Bool := g.codes.all (· == 0) && g.p.all (· ≤ 6) && g.duty.all (· ≤ 5)

/-- p and duty of the facets take effect in PWR_MEMF (R495). -/
def setMemf (s : State) (p duty : Nat → Nat) : State :=
  (upto 8).foldl (fun s f => regSet s (fKey f 0xE0004) (BitVec.ofNat 32 (duty f * 2 ^ 16 + p f))) s

/-- Grants take effect: PCLK grants, p and duty. -/
def applyGrants (s : State) (g : Grants) : State :=
  let s := { s with clk := { s.clk with grant := (upto 64).foldl (fun m p => mapSet (fun _ => 104) m p (g.codes.getD p 0)) s.clk.grant } }
  let s := setMemf s (fun f => g.p.getD f 20) (fun f => g.duty.getD f 20)
  (upto 64).foldl retarget s

/-- The measurement is shown: PWR_PKG, PWR_PEAK, PWR_FACET. -/
def showPower (s : State) (m : PowerSample) : State :=
  let s := regSet s (aKey 0xE0104) (BitVec.ofNat 32 (m.pkg % 2 ^ 16))
  let s := peak s (aKey 0xE0108) 0 16 m.pkg
  (upto 8).foldl (fun s f =>
    let x := m.facets.getD f (0, 0, 0)
    regSet s (fKey f 0xE0000) (BitVec.ofNat 32 (x.1 % 2 ^ 16 * 2 ^ 16 + x.2.1 % 2 ^ 8 * 2 ^ 8 + x.2.2 % 2 ^ 8))) s

/-- A facet sheds alone at its throttle temperature, 105 °C (R494, 26 R566). -/
def shedThrottled (s : State) (m : PowerSample) (g : Grants) : Grants :=
  (upto 8).foldl (fun g f => if 105 ≤ (m.facets.getD f (0, 0, 0)).2.1 then shed s [f] (m.facetShed.getD f 0) g else g) g

/-- One iteration (R489, R492, R493). The spec does not give the estimate that ends shedding: the command carries the steps. -/
def powerLoop (s : State) (m : PowerSample) : State :=
  let s := showPower s m
  let g := shedThrottled s m (shed s (upto 8) m.shed (fullGrants s))
  let b := shed s (upto 8) m.brakeShed (fullGrants s)
  let s := { s with power := { s.power with
    brakeCodes := (upto 64).foldl (fun k p => mapSet (fun _ => 104) k p (b.codes.getD p 0)) s.power.brakeCodes
    brakeP := (upto 8).foldl (fun k f => mapSet (fun _ => 20) k f (b.p.getD f 20)) s.power.brakeP
    brakeDuty := (upto 8).foldl (fun k f => mapSet (fun _ => 20) k f (b.duty.getD f 20)) s.power.brakeDuty } }
  let s := evalNow (applyGrants s g)
  let lim := regFld s capKey 8 8
  if atFloor g ∧ 50 * lim < m.pkg then powerEvent s .powerFloor (m.pkg % 2 ^ 16 + lim * 2 ^ 16) else s

/-- POWER_LOOP_ITERATION (R492, R493). -/
def execPowerLoopIteration (m : PowerSample) (s : State) : Result := .next (if alive s then powerLoop s m else s)

/-! ## The brake (R489, R490) -/

/-- The brake is taken as asserted or released (R489, R490, 06 R131): the brake set applies at once. -/
def setBrake (s : State) (v : Bool) : State :=
  if s.power.brake = v then s
  else
    let s := showLimit (regSetFld { s with power := { s.power with brake := v } } capKey 31 1 (if v then 1 else 0))
    let s := if v then setMemf s (mapGet (fun _ => 20) s.power.brakeP) (mapGet (fun _ => 20) s.power.brakeDuty) else s
    evalNow (powerEvent ((upto 64).foldl retarget s) .brakeChanged (if v then 1 else 0))

/-- PWRBRAKE_ASSERTED (R489). -/
def execPwrbrakeAsserted (s : State) : Result := .next (if alive s then setBrake s true else s)
/-- PWRBRAKE_RELEASED (R490). -/
def execPwrbrakeReleased (s : State) : Result := .next (if alive s then setBrake s false else s)

end Sys2Proof.Machine
end

