-- ==== Sys2Proof/Machine/Strand.lean ====
section
/-! DEFINITION. Strand: lanes and their identity check, frames as they arrive, what their messages do, timers and peer loss
(19 R407 to R427; 26 R561). -/
namespace Sys2Proof.Machine

/-! ## Lanes (R407, R411 to R415) -/

/-- A lane's FEC locks (R411, R413): it begins identification and sends an LLDPDU. The reference that training needs has returned. -/
def fecLock (s : State) (l : Nat) (fast : Bool) : State :=
  if !laneUsable s l ∨ laneState s l ≠ 0 then s
  else
    let s := { s with supply := { s.supply with strandRef := true } }
    let k := laneKey l 0xB0008 4
    let s := regSetFld (setLane s l 1) k 4 2 (if fast then 2 else 1)
    sendLldp (identify s l) l 4

/-- FEC_LOCK (R411). -/
def execFecLock (lane : Nat) (fast : Bool) (s : State) : Result := .next (if alive s then fecLock s lane fast else s)

/-- A lane trains (R407). -/
def train (s : State) (l : Nat) : State := emit s (.train l (bitOf (regGet s (laneKey l 0xB0000 4)) 1))

/-- LANE_TRAINING_RETRY (R407): a lane that is enabled and DOWN trains again. -/
def execLaneTrainingRetry (lane : Nat) (s : State) : Result :=
  .next (if alive s && laneUsable s lane && laneState s lane == 0 then train s lane else s)

/-- LLDP_TRANSMIT (R411): Time To Live is 4 s. -/
def execLldpTransmit (lane : Nat) (s : State) : Result :=
  .next (if alive s && decide (lane < 16) && laneState s lane != 0 then sendLldp s lane 4 else s)

/-- A word of STR_LLDP_RX from its four bytes. -/
def rxWord (b : List Byte) (w : Nat) : Word := BitVec.ofNat 32 (rdLe b (4 * w) 4)

/-- The 64 bytes of STR_LLDP_RX for one ID: length, subtype, value. -/
def rxBytes (sub : Byte) (v : List Byte) : List Byte :=
  (BitVec.ofNat 8 v.length :: sub :: v.take 62) ++ List.replicate (62 - v.length) 0#8

/-- The identity received on a lane is recorded (R412). -/
def recordRx (s : State) (l : Nat) (csub : Byte) (chassis : List Byte) (psub : Byte) (port : List Byte) : State :=
  let b := rxBytes csub chassis ++ rxBytes psub port
  (upto 32).foldl (fun s w => regSet s (laneKey l 0xB0100 128 + 4 * w) (rxWord b w)) s

/-- The first identity that differs from the plan: 1 CHASSIS, 2 PORT, 0 none (R413, 22 R481). -/
def identityBad (s : State) (want : List Byte) (csub : Byte) (chassis : List Byte) (psub : Byte) (port : List Byte) : Nat :=
  if csub ≠ 7#8 ∨ chassis ≠ hex16 (serialInForce s) then 1 else if psub ≠ 7#8 ∨ port ≠ want then 2 else 0

/-- A lane is quarantined (R413, R414). -/
def quarantine (s : State) (l reason : Nat) : State :=
  raise (regSetFld (setLane s l 3) (laneKey l 0xB0008 4) 6 2 reason) 0 .strandQuarantine 0xB (l / 2) 0xFF (l + reason * 16)

/-- The lane's quarantine has been acknowledged (R414). -/
def isAcked (s : State) (l : Nat) : Bool := bitOf (regGet s (laneKey l 0xB0008 4)) 8

/-- An LLDPDU is compared with the plan in force (R413, R414). -/
def compareId (s : State) (l : Nat) (csub : Byte) (chassis : List Byte) (psub : Byte) (port : List Byte) : State :=
  match laneExpects s l with
  | none => s
  | some want =>
    let bad := identityBad s want csub chassis psub port
    match laneState s l with
    | 1 => if bad = 0 then setLane s l 2 else quarantine s l bad
    | 2 => if bad ≠ 0 ∧ !isAcked s l then quarantine s l bad else s
    | _ => s

/-- The received TTL of an UP lane expires (R413); an acknowledged lane stays UP until its next DOWN (R414). -/
def ttlExpiry (s : State) (l : Nat) : State := if laneState s l = 2 ∧ !isAcked s l then setLane s l 1 else s

/-- An LLDPDU arrives (R412, R413): a Time To Live of 0 expires at once. -/
def lldpArrives (s : State) (l : Nat) (csub : Byte) (chassis : List Byte) (psub : Byte) (port : List Byte) (ttl : Nat) : State :=
  if 16 ≤ l ∨ laneState s l = 0 then s
  else
    let s := recordRx s l csub chassis psub port
    let s := if isSealedNow s then compareId s l csub chassis psub port else s
    let s := if ttl = 0 then ttlExpiry s l else s
    pumpAll s

/-- LLDPDU_RECEIVED (R413). -/
def execLldpduReceived (lane : Nat) (csub : Byte) (chassis : List Byte) (psub : Byte) (port : List Byte) (ttl : Nat) (s : State) : Result :=
  .next (if alive s then lldpArrives s lane csub chassis psub port ttl else s)

/-- LLDP_TTL_EXPIRY (R413). -/
def execLldpTtlExpiry (lane : Nat) (s : State) : Result := .next (if alive s && decide (lane < 16) then ttlExpiry s lane else s)

/-- ACK of a quarantined lane (R414). -/
def laneAck (s : State) (l : Nat) : State :=
  if 16 ≤ l ∨ laneState s l ≠ 3 then s else pumpAll (regSetFld (setLane s l 2) (laneKey l 0xB0008 4) 8 1 1)

/-- STR_LANE_ACK (R414). -/
def execStrLaneAck (lane : Nat) (s : State) : Result := .next (if alive s then laneAck s lane else s)

/-- RETRAIN takes a lane DOWN and trains it again (STR_LANE_CTRL). -/
def laneRetrain (s : State) (l : Nat) : State :=
  if 16 ≤ l then s
  else let s := laneDown s l true; if laneUsable s l then train s l else s

/-- STR_LANE_RETRAIN (R407). -/
def execStrLaneRetrain (lane : Nat) (s : State) : Result := .next (if alive s then laneRetrain s lane else s)

/-- STRAND_LANE_DOWN (R413): `canSend` tells whether the link still carries the shutdown LLDPDU. -/
def execStrandLaneDown (lane : Nat) (canSend : Bool) (s : State) : Result :=
  .next (if alive s && decide (lane < 16) then laneDown s lane canSend else s)

/-- The strand reference is lost (26 R561): every lane goes DOWN until it returns. -/
def refLost (s : State) : State :=
  (upto 16).foldl (fun s l => laneDown s l false) { s with supply := { s.supply with strandRef := false } }

/-- STRAND_REFCLK_LOSS (26 R561). -/
def execStrandRefclkLoss (s : State) : Result := .next (if s.supply.powerGood then refLost s else s)

/-! ## What messages do (R419, R420) -/

/-- A flow of the peer's has gone, with a status: what its use does (R420, 22 Table - Peer outcomes). -/
def useClosed (s : State) (k : Nat) (use : FlowUse) (st : Nat) : State :=
  match use with
  | .prefill tag => prefillClosed s tag st
  | .pool pt n => discardSeq s pt n
  | .shardOut tag num => shardGives s tag num none (some st)
  | .load n => loadFlowClosed s n k st
  | _ => s

/-- A SEQ_OPEN's body lies in its ranges. -/
def seqOpenOk (m : List Byte) : Bool := decide (m.length = 1320) && zeroAt m 38 2

/-- A SEQ_OPEN at a flow's start (14 R311, R312): refused, admitted, or waiting with KEEPALIVE. -/
def seqOpen (s : State) (k : Nat) (f : Flow) (m : List Byte) : State :=
  if f.use ≠ .fresh ∨ !seqOpenOk m then useClosed (abandonFlow s k 0x21) k f.use 0x21
  else match openSeq s f.peer (rdB m 36) (rdB m 37) (rdLe m 16 8) (rdLe m 24 8) (rdLe m 32 4) (m.drop 40) (some k) none none with
    | (s, .error st) => refuseFlow s k (statusCode st)
    | (s, .ok (pt, n)) =>
      match look s.strand.flows k with
      | some f => if f.accepted then s else setFlow s { f with use := .pool pt n, works := true }
      | none => s

/-- The image of a pool, by the tag of its attach. -/
def poolImage (s : State) (pt : Nat) : List Byte := match look s.pools pt with | some p => p.image.md | none => []

/-- A KV_BLOCK (14 R308): the head block is the last, and this end has no message to send. A block whose length or shape is not the pool's is
malformed (R311; note 154). -/
def kvBlock (s : State) (k : Nat) (f : Flow) (m : List Byte) : State :=
  match f.use with
  | .pool pt n =>
    let b := m.drop 16
    if b.length ≠ 32 + rdLe b 24 4 ∨ !blockFits (poolImage s pt) b then discardSeq (abandonFlow s k 0x21) pt n
    else
      let s := takeBlock s pt n b
      if isHead b then sendFin s k else s
  | _ => useClosed (abandonFlow s k 0x21) k f.use 0x21

/-- A peer's message waits for a request tag (17 R384). -/
def waitTag (s : State) (k : Nat) (m : List Byte) : State :=
  setWorks { s with strand := { s.strand with tagWaits := s.strand.tagWaits ++ [(k, m)] } } k true

/-- A SHARD_QUERY that this package can serve, or refuses (12 R271). -/
def shardServe (s : State) (k : Nat) (f : Flow) (m : List Byte) : State :=
  match shardServed s f.peer m with
  | none => if f.use = .fresh then refuseFlow s k 0x24 else sendMessage s k (statusMsg 0x24 0 (rdLe m 8 8))
  | some (t, b) =>
    match tagFree s t with
    | none => waitTag s k m
    | some tag => runShard (if f.use = .fresh then admitFlow s k (.shardIn 0) else s) k tag t b m

/-- A SHARD_QUERY (12 R271, 19 R419). -/
def shardQuery (s : State) (k : Nat) (f : Flow) (m : List Byte) : State :=
  if !shardQueryOk m ∨ (f.use ≠ .fresh ∧ f.use ≠ .shardIn 0) then abandonFlow s k 0x21 else shardServe s k f m

/-- A SHARD_RESULT's body lies in its ranges: at most `cap` entries, all well formed. -/
def shardResult (m : List Byte) (cap : Nat) : Option (List Entry) :=
  let n := rdLe m 16 4
  if cap < n ∨ !zeroAt m 20 12 ∨ m.length ≠ 32 + 16 * n then none else entriesFrom (m.drop 32) n

/-- A peer's answer to a search (12 R272): an answer to the run under way. -/
def shardAnswer (s : State) (k tag num : Nat) (m : List Byte) : State :=
  match look s.searches tag with
  | none => s
  | some j =>
    if rdLe m 8 8 ≠ (if j.widened then 1 else 0) then s
    else if rdB m 0 = 0x30 then (if 0x20 ≤ statusOf m then shardGives s tag num none (some (statusOf m)) else s)
    else match shardResult m (if j.widened then wideK j.q else j.q.k) with
      | some es => shardGives s tag num (some es) none
      | none => shardGives (abandonFlow s k 0x21) tag num none (some 0x21)

/-- A WEIGHT_REQ's body lies in its ranges. -/
def weightReqOk (m : List Byte) : Bool := decide (m.length = 40) && zeroAt m 17 7 && decide (1 ≤ rdLe m 32 4) && decide (rdLe m 32 4 ≤ 1048576) && zeroAt m 36 4

/-- The first WEIGHT_REQ of a flow is admitted or refused (15 R340); it takes a tag of the entry's tenant (17 R384). -/
def weightOpen (s : State) (k : Nat) (f : Flow) (m : List Byte) : State :=
  let slot := rdB m 16
  let t := troyOf s slot
  match (if slot < 64 ∧ t.state = .ready ∧ t.unload.isNone then serveTenant s 0xA0500 f.peer slot else none) with
  | none => refuseFlow s k 0x24
  | some tn =>
    match tagFree s tn with
    | none => waitTag s k m
    | some tag =>
      let s := setRequest s tag (peerRequest s tag k tn 0xFF 0 [])
      weightAnswer (admitFlow s k (.serve slot t.gen)) k slot t.gen m

/-- A WEIGHT_REQ (15 R340). -/
def weightReq (s : State) (k : Nat) (f : Flow) (m : List Byte) : State :=
  if !weightReqOk m then abandonFlow s k 0x21
  else match f.use with
    | .fresh => weightOpen s k f m
    | .serve slot gen => weightAnswer s k slot gen m
    | _ => s

/-- Requests that stand for a peer whose flow has gone (22 Table - Peer outcomes): a fetch ends, a search runs to its end and its
result is discarded. -/
def orphanRequests (s : State) : State :=
  let gone := fun (r : Request) => match r.source with | .peer k => (look s.strand.flows k).isNone | _ => false
  { s with requests := (s.requests.filter (fun p => !(gone p.2 && p.2.opcode == 0xFF))).map (fun p =>
      if gone p.2 then (p.1, { p.2 with source := .peer (2 ^ 32) }) else p),
           strand := { s.strand with tagWaits := s.strand.tagWaits.filter (fun p => (look s.strand.flows p.1).isSome) } }

/-- A STATUS message on a flow (R419). -/
def statusArrives (s : State) (k : Nat) (f : Flow) (m : List Byte) : State :=
  match f.use with
  | .shardOut tag num => shardAnswer s k tag num m
  | .load n => sourceFails s n ((statusOfCode (statusOf m)).getD .peerLost)
  | .prefill tag => prefillBreaks s tag ((statusOfCode (statusOf m)).getD .peerLost)
  | _ => s

/-- A whole message of a flow does its work; its type was allowed for the flow's kind (R419). -/
def deliver (s : State) (k : Nat) (m : List Byte) : State :=
  match look s.strand.flows k with
  | none => s
  | some f =>
    match rdB m 0 with
    | 0x01 => seqOpen s k f m
    | 0x02 => kvBlock s k f m
    | 0x10 => shardQuery s k f m
    | 0x11 => (match f.use with | .shardOut tag num => shardAnswer s k tag num m | _ => s)
    | 0x20 => weightReq s k f m
    | 0x21 => (match f.use with | .load n => weightData s n k m | _ => s)
    | _ => statusArrives s k f m

/-- A peer has sent its last message: this end sends FIN once its own work on the flow is done (R420). -/
def peerDone (s : State) (k : Nat) : State :=
  match look s.strand.flows k with
  | some f => if f.mine ∨ s.requests.any (fun p => p.2.opcode == 0x15 && p.2.source == .peer k) then s else sendFin s k
  | none => s

/-- A flow has closed in both directions. -/
def useDone (s : State) (use : FlowUse) : State :=
  match use with
  | .prefill tag => (match look s.prefills tag with
      | some j => if j.ended ∧ j.waiting.isEmpty then prefillEnds s tag j else prefillClosed s tag 0x60
      | none => s)
  | .pool pt n => discardSeq s pt n
  | .shardOut tag num => shardGives s tag num none (some 0x60)
  | .load n => (match (troyOf s n).load with | some l => (match l.flow with | some k => loadFlowClosed s n k 0x60 | none => s) | none => s)
  | _ => s

/-- One event of a flow reaches the unit that uses it. -/
def flowEvent (s : State) (e : FlowEvent) : State :=
  match e with
  | .message k m => deliver s k m
  | .refused k use st => useClosed s k use st
  | .closed k use st => useClosed s k use st
  | .acked k => (match look s.strand.flows k with
      | some f => (match f.use with
        | .prefill tag => prefillAcked s k tag
        | .load n => bindLoad s n k
        | _ => s)
      | none => s)
  | .finished k => peerDone s k
  | .done use => useDone s use

/-! ## Frames (R416 to R422) -/

/-- Messages that waited for a tag are tried again. -/
def retryTags (s : State) : State :=
  let ws := s.strand.tagWaits
  ws.foldl (fun s w =>
    match look s.strand.flows w.1 with
    | some f => if rdB w.2 0 = 0x10 then shardServe s w.1 f w.2 else weightReq s w.1 f w.2
    | none => s) { s with strand := { s.strand with tagWaits := [] } }

/-- OPEN frames held beyond 4,096 accepted flows are taken as flows close (R421), at most n. -/
def retryHeld : Nat → State → State
  | 0, s => s
  | n + 1, s =>
    match s.strand.heldOpens with
    | [] => s
    | (l, b) :: rest =>
      if 4096 ≤ acceptedCount s then s
      else
        let (s, es) := takeOpen { s with strand := { s.strand with heldOpens := rest } } l (hdrOf b) b
        retryHeld n (es.foldl flowEvent s)

/-- What follows every change of the transport: users that have gone, tags and numbers that have become free, frames that may be
sent. -/
def strandSettle (s : State) : State :=
  let s := orphanRequests (finOrphans s)
  let s := if s.strand.tagWaits.isEmpty then s else retryTags s
  let s := retryHeld s.strand.heldOpens.length s
  pumpAll s

/-- A frame arrives and its events are carried out. -/
def arrive (s : State) (l : Nat) (b : List Byte) (fits : Hdr → Bool) : State :=
  let (s, es) := frameArrives s l b fits
  if es.isEmpty then s else settle (strandSettle (es.foldl flowEvent s))

/-- FLOW_OPEN (R420). -/
def execFlowOpen (lane : Nat) (frame : List Byte) (s : State) : Result := .next (arrive s lane frame (fun h => h.typ == 1))
/-- ACCEPT (R420). -/
def execAcceptFrame (lane : Nat) (frame : List Byte) (s : State) : Result := .next (arrive s lane frame (fun h => h.typ == 2))
/-- REFUSE (R420). -/
def execRefuseFrame (lane : Nat) (frame : List Byte) (s : State) : Result := .next (arrive s lane frame (fun h => h.typ == 3))
/-- DATA (R422). -/
def execDataFrame (lane : Nat) (frame : List Byte) (s : State) : Result := .next (arrive s lane frame (fun h => h.typ == 4))
/-- ACK (R422). -/
def execAckFrame (lane : Nat) (frame : List Byte) (s : State) : Result := .next (arrive s lane frame (fun h => h.typ == 5))
/-- FIN (R420). -/
def execFinFrame (lane : Nat) (frame : List Byte) (s : State) : Result := .next (arrive s lane frame (fun h => h.typ == 6))
/-- KEEPALIVE (R427). -/
def execKeepaliveFrame (lane : Nat) (frame : List Byte) (s : State) : Result := .next (arrive s lane frame (fun h => h.typ == 7))
/-- RESET (R420). -/
def execResetFrame (lane : Nat) (frame : List Byte) (s : State) : Result := .next (arrive s lane frame (fun h => h.typ == 8))
/-- A frame that ends a message of a type. -/
def ends (s : State) (frame : List Byte) (t : Nat) : Bool := endsMessage s frame == some t
/-- SEQ_OPEN (14 R311): the frame that ends the message. -/
def execSeqOpen (lane : Nat) (frame : List Byte) (s : State) : Result := .next (arrive s lane frame (fun _ => ends s frame 0x01))
/-- KV_BLOCK (14 R308). -/
def execKvBlock (lane : Nat) (frame : List Byte) (s : State) : Result := .next (arrive s lane frame (fun _ => ends s frame 0x02))
/-- SHARD_QUERY (12 R271). -/
def execShardQuery (lane : Nat) (frame : List Byte) (s : State) : Result := .next (arrive s lane frame (fun _ => ends s frame 0x10))
/-- SHARD_RESULT (12 R272). -/
def execShardResult (lane : Nat) (frame : List Byte) (s : State) : Result := .next (arrive s lane frame (fun _ => ends s frame 0x11))
/-- WEIGHT_REQ (15 R340). -/
def execWeightReq (lane : Nat) (frame : List Byte) (s : State) : Result := .next (arrive s lane frame (fun _ => ends s frame 0x20))
/-- WEIGHT_DATA (15 R326). -/
def execWeightData (lane : Nat) (frame : List Byte) (s : State) : Result := .next (arrive s lane frame (fun _ => ends s frame 0x21))
/-- STATUS (R419). -/
def execStatusMsg (lane : Nat) (frame : List Byte) (s : State) : Result := .next (arrive s lane frame (fun _ => ends s frame 0x30))

/-- A frame is discarded (R409, R415, R417): it counts, by what is wrong with it; `corrected` FEC codewords count beside. -/
def discard (s : State) (l : Nat) (why : FrameFault) (corrected : Nat) : State :=
  if 16 ≤ l ∨ laneState s l = 0 then s
  else
    let s := bump s (laneKey l 0xB0020 16) 0 32 corrected
    match why with
    | .fec => laneCount s l 0x4
    | .fcs => laneCount s l 0x8
    | .crc => if isSealedNow s then laneCount s l 0xC else foreign s l
    | .foreign => foreign s l

/-- STRAND_FRAME_DISCARD (R417). -/
def execStrandFrameDiscard (lane : Nat) (why : FrameFault) (corrected : Nat) (s : State) : Result :=
  .next (if alive s then discard s lane why corrected else s)

/-! ## Timers (R420, R422, R424, R426, R427) -/

/-- A frame is sent again (R422, R424): after two timeouts without progress its flow moves to the next pair. -/
def retransmit (s : State) (k seq : Nat) : State :=
  match look s.strand.flows k with
  | none => s
  | some f =>
    match look f.sent seq with
    | none => s
    | some x =>
      if x.sacked then s
      else
        let n := x.timeouts + 1
        let f := if 2 ≤ n then { f with pair := nextPair s ((f.pair + 1) % 8), sent := place f.sent seq { x with timeouts := 0 } }
          else { f with sent := place f.sent seq { x with timeouts := n } }
        if (upLanes s f.pair).isEmpty then setFlow s f
        else
          let p := f.pair
          let (s, f) := putFrame s f x.frame seq
          bump (setFlow s f) (fKey p 0xB0040) 0 32 1

/-- RETRANSMIT_TIMEOUT (R422). -/
def execRetransmitTimeout (mine : Bool) (peer num seq : Nat) (s : State) : Result :=
  .next (if alive s && isSealedNow s then retransmit s (flowKey mine peer num) seq else s)

/-- ACK_DELAY (R422): an acknowledgement that is still owed is sent. -/
def execAckDelay (mine : Bool) (peer num : Nat) (s : State) : Result :=
  .next (if !alive s || !isSealedNow s then s
    else match look s.strand.flows (flowKey mine peer num) with
      | some f => if f.ackOwed && (f.accepted || !f.mine) then control s f 5 [] else s
      | none => s)

/-- A KEEPALIVE for an OPEN that is held (R421). -/
def keepHeld (s : State) (x : Nat × List Byte) : State :=
  let h := hdrOf x.2
  control s ⟨false, h.src, h.flow, 0, .fresh, x.1 / 2, 0, false, false, [], [], 0, 0, false, 0, [], [], false, false, false, false, 0⟩ 7 []

/-- KEEPALIVE_TIMER (R427). -/
def execKeepaliveTimer (s : State) : Result :=
  .next (if !alive s || !isSealedNow s then s
    else
      let s := (s.strand.flows.filter (fun p => p.2.works)).foldl (fun s p =>
        match look s.strand.flows p.1 with | some f => control s f 7 [] | none => s) s
      settle (strandSettle (s.strand.heldOpens.foldl keepHeld s)))

/-- A flow awaits its peer (R426): an unacknowledged frame, or a message, ACCEPT or REFUSE that has not come. -/
def awaits (s : State) (k : Nat) (f : Flow) : Bool :=
  !f.sent.isEmpty || (f.mine && !f.accepted) ||
  (match f.use with
   | .shardOut tag num => (match look s.searches tag with
      | some j => j.shards.any (fun h => h.num == num && h.entries.isNone && h.bad.isNone)
      | none => false)
   | .load n => (match (troyOf s n).load with | some l => l.flow == some k | none => false)
   | .pool pt n => (match (look s.pools pt).bind (fun p => look p.seqs n) with
      | some q => decide (q.state = .receiving)
      | none => false)
   | _ => false)

/-- The status that a lost peer gives to a use: a missing shard has none (12 R273). -/
def lossStatus (u : FlowUse) : Nat := match u with | .shardOut _ _ => 0 | _ => 0x60

/-- A peer is declared lost (R426): a RESET on each of its flows, and their users are told. -/
def peerLost (s : State) (peer : Nat) : State :=
  let fs := s.strand.flows.filter (fun p => p.2.peer == peer)
  let s := setLost s peer true
  let s := fs.foldl (fun s p => abandonFlow s p.1 0x60) s
  let s := raise s 0 .strandPeerLost 0xB (activeFacet s) 0xFF peer
  settle (strandSettle (fs.foldl (fun s p => useClosed s p.1 p.2.use (lossStatus p.2.use)) s))

/-- PEER_LOSS_TIMEOUT (R426). -/
def execPeerLossTimeout (peer : Nat) (s : State) : Result :=
  .next (if alive s && isSealedNow s && s.strand.flows.any (fun p => p.2.peer == peer && awaits s p.1 p.2) then peerLost s peer else s)

/-- OPEN_RETRY (R420, Corners): the OPEN goes out again. -/
def execOpenRetry (num : Nat) (s : State) : Result :=
  .next (if !alive s || !isSealedNow s then s
    else match look s.strand.flows num with
      | some f =>
        if !f.mine || !f.retry then s
        else match look f.sent 0 with
          | some x => let (s, f) := putFrame s { f with retry := false } x.frame 0; setFlow s f
          | none => s
      | none => s)

/-- A package abandons the flows that serve a request (R420, 16 R356): RESET, and a pool's senders on this package lose it. -/
def abandonFor (s : State) (tag : Nat) : State :=
  let mineLoad := fun (n : Nat) => match (troyOf s n).load with | some l => l.tag == tag | none => false
  let ks := flowsOf s (fun u => match u with
    | .prefill t => t == tag | .pool t _ => t == tag | .shardOut t _ => t == tag | .load n => mineLoad n | _ => false)
  let s := ks.foldl (fun s k => abandonFlow s k 0x60) s
  let senders := (s.prefills.filter (fun p => match p.2.target with | .pool pt _ => pt == tag | _ => false)).map (·.1)
  let s := senders.foldl (fun s t => prefillFails s t .peerLost) s
  match look s.prefills tag with
  | some j => (match j.target with | .pool pt n => discardSeq s pt n | _ => s)
  | none => s

end Sys2Proof.Machine
end

