-- ==== Sys2Proof/Machine/Rack.lean ====
section
/-! DEFINITION. Rack: staging the cable plan, and the quiesce on EJECT# (22 R478, R479, R496 to R498). -/
namespace Sys2Proof.Machine

/-! ## The cable plan (R478, R479) -/

/-- A decimal number without leading zeros. -/
def isDecimal (l : List Byte) : Bool :=
  !l.isEmpty && l.all (fun b => decide (48 ≤ b.toNat) && decide (b.toNat ≤ 57)) && (decide (l.length = 1) || l.head? != some 48#8)

/-- A Port ID of the form "a.b.c". -/
def isPortId (l : List Byte) : Bool :=
  let a := l.takeWhile (· != 46#8)
  let r := l.drop (a.length + 1)
  let b := r.takeWhile (· != 46#8)
  let c := r.drop (b.length + 1)
  decide (a.length < l.length) && decide (b.length < r.length) && isDecimal a && isDecimal b && isDecimal c

/-- The first reason that refuses entry i, if any: order, package, Port ID. -/
def planEntryBad (b : List Byte) (i : Nat) : Option Nat :=
  let o := planEntry i
  let n := rdB b (o + 2)
  let key := rdB b o * 256 + rdB b (o + 1)
  if i ≠ 0 ∧ key ≤ rdB b (o - 32) * 256 + rdB b (o - 31) then some 3
  else if 64 ≤ rdB b o ∨ !nbit (planPackages b) (rdB b o) then some 4
  else if n < 5 ∨ 28 < n ∨ !isPortId (slice b (o + 4) n) ∨ !zeroAt b (o + 4 + n) (28 - n) then some 5
  else none

/-- The header's fields lie in range and every reserved byte is 0; a lane above 15 is out of range (R478). -/
def planHeaderOk (b : List Byte) (len : Nat) : Bool :=
  let n := planCount b
  decide (b.length = len) && decide (64 ≤ len) && decide (rdLe b 0 4 = 0x4E414C50) && decide (rdLe b 4 2 = 1) && decide (1 ≤ n) &&
  decide (n ≤ 1024) && decide (rdLe b 8 4 = 64 + 32 * n) && decide (len = 64 + 32 * n) && zeroAt b 40 24 &&
  (upto n).all (fun i => decide (rdB b (planEntry i + 1) < 16) && decide (rdB b (planEntry i + 3) = 0))

/-- The check of a blob (R479): reason and failing entry. -/
def planCheck (b : List Byte) (len : Nat) : Option (Nat × Nat) :=
  if !planHeaderOk b len then some (1, 0)
  else if crcBlanked b 12 ≠ BitVec.ofNat 32 (rdLe b 12 4) then some (2, 0)
  else (upto (planCount b)).findSome? (fun i => (planEntryBad b i).map (fun r => (r, i)))

/-- STR_PLAN_STATUS. -/
def planStatus (s : State) (st reason entry : Nat) : State :=
  regSet s 0x70010 (BitVec.ofNat 32 (st * 2 ^ 28 + reason * 2 ^ 24 + entry % 2 ^ 11))

/-- The read of the plan blob under the owner's function, which the command that brings the blob also completes. -/
def planRead (s : State) : State :=
  let a := pair (regGet s) 0x70000
  backOwner (askOwner s a (regGet s 0x70008).toNat) a (regGet s 0x70008).toNat

/-- LOAD of a cable plan, with the blob as it arrived (R479). -/
def planLoad (s : State) (b : List Byte) (st : ReadStatus) : State :=
  let len := (regGet s 0x70008).toNat
  if s.hmk.state ≠ .empty ∧ s.hmk.state ≠ .opened then planStatus s 3 6 0
  else if pair (regGet s) 0x70000 % 64 ≠ 0 then planStatus s 3 1 0
  else
    let s := planRead s
    match heard s (ownerFn s) st with
    | .poisoned => planStatus (hostPoison s (ownerFn s) b.length) 3 7 0
    | .xlate => let (v, s) := draw s; planStatus s 3 (v.toNat % 16) 0
    | .good =>
      match planCheck (b.take len) len with
      | some (r, i) => planStatus s 3 r i
      | none => planStatus (regSet { s with plan := { s.plan with staged := some (b.take len) } } 0x70014 (BitVec.ofNat 32 (rdLe b 12 4))) 2 0 0

/-- STR_PLAN_LOAD (R479). -/
def execStrPlanLoad (w : Word) (blob : List Byte) (st : ReadStatus) (s : State) : Result :=
  .next (if alive s && bitOf w 0 then planLoad s blob st else s)

/-! ## Quiesce on EJECT# (R496, R498; 23 Corners) -/

/-- Key of PWR_EJECT. -/
def ejectKey : Nat := aKey 0xE0114
/-- STATE of the quiesce: 0 NONE, 1 QUIESCING, 2 QUIET. -/
def ejectState (s : State) : Nat := regFld s ejectKey 0 2
/-- The state with STATE set. -/
def setEjectState (s : State) (v : Nat) : State := regSetFld s ejectKey 0 2 v
/-- EJECT# is taken as asserted. -/
def ejectAsserted (s : State) : Bool := bitOf (regGet s ejectKey) 31

/-- Local requests that wait for a flow fail with a status (R496, 23 R519). -/
def failWaiting (s : State) (st : Status) : State :=
  let ws := s.strand.waiting
  ws.foldl (fun s w => match w.use with
    | .load n => sourceFails s n st
    | u => useClosed s (2 ^ 33) u (statusCode st)) { s with strand := { s.strand with waiting := [] } }

/-- The hallmark enters HELD with EJECTED, which only a seal leaves (R498). -/
def holdEjected (s : State) : State :=
  let s := enterHeld s .departing 0x12
  { s with hmk := { s.hmk with quiesced := true } }

/-- t0 (R496 steps 1 and 2; 23 Corners): a check is abandoned, a drain gives way, flash jobs stop; DEPART only while SEALED. -/
def ejectStart (s : State) : State :=
  let s := setEjectState s 1
  let s := if isSealedNow s then addPending s (.depart 1) else s
  let s := if s.hmk.state = .checking then holdEjected s else { s with hmk := { s.hmk with draining := false } }
  settle (strandSettle (stopJobs (failWaiting s .departing) 6))

/-- EJECT_ASSERTED (R496). -/
def execEjectAsserted (s : State) : Result :=
  .next (if !alive s || ejectAsserted s then s
    else let s := regSetFld s ejectKey 31 1 1; if ejectState s = 1 then s else ejectStart s)

/-- Every flow still open ends with RESET carrying a status, and its users are told (R496 step 4, 23 R519). -/
def resetFlows (s : State) (st : Status) : State :=
  let fs := s.strand.flows
  let s := fs.foldl (fun s p => abandonFlow s p.1 (statusCode st)) s
  settle (strandSettle (fs.foldl (fun s p => useClosed s p.1 p.2.use (statusCode st)) s))

/-- QUIESCE_FLOW_RESET (R496 step 4). -/
def execQuiesceFlowReset (s : State) : Result := .next (if alive s && decide (ejectState s = 1) then resetFlows s .departing else s)

/-- Requests still in flight fail with DEPARTING (R496 step 5). -/
def quiesceFail (s : State) : State :=
  let s := settle (strandSettle (endAll s .departing))
  if isSealedNow s then addPending s (.depart 2) else s

/-- QUIESCE_REQUEST_FAIL (R496 step 5). -/
def execQuiesceRequestFail (s : State) : Result := .next (if alive s && decide (ejectState s = 1) then quiesceFail s else s)

/-- The quiesce ends (R496 step 6): from SEALED the hallmark enters HELD (23 R514), and a DEPART still pending is withdrawn. -/
def quiesceEnd (s : State) : State :=
  let s := if isSealedNow s then holdEjected s else s
  setEjectState (withdraw (withdraw s (.depart 1)) (.depart 2)) (if ejectAsserted s then 2 else 0)

/-- QUIESCE_HELD (R496 step 6). -/
def execQuiesceHeld (s : State) : Result := .next (if alive s && decide (ejectState s = 1) then quiesceEnd s else s)

/-- EJECT# is released (R498): a quiesce under way runs on; a quiet package may be sealed again. -/
def ejectRelease (s : State) : State :=
  let s := regSetFld s ejectKey 31 1 0
  if ejectState s = 2 then setEjectState s 0 else s

/-- EJECT_RELEASED (R498). -/
def execEjectReleased (s : State) : Result := .next (if alive s then ejectRelease s else s)

end Sys2Proof.Machine
end

