-- ==== Sys2Proof/Machine/Hallmark.lean ====
section
/-! DEFINITION. Hallmark: writing the sealed set, the check and the seal, OPEN and its drain, and re-opening a tenant
(23 R511 to R524). -/
namespace Sys2Proof.Machine

/-! ## Events and counts -/

/-- A write ignored under R512, R515, R520 or R522 counts in HMK_IGNORED. -/
def hmkIgnore (s : State) : State := bump s 0x101C 0 32 1

/-- The state changes, and HMK_CHANGED is sent (R514). -/
def hmkMove (s : State) (st : HmkState) : State := hmkEvent { s with hmk := { s.hmk with state := st } }

/-- A per-tenant check runs. -/
def tenantCheck (s : State) : Bool := match s.hmk.check with | some c => c.perTenant | none => false

/-! ## Order and kinds of sealed registers (R511) -/

/-- Key of GTH_HOT_BASE_LO of a facet. -/
def hotKey (f : Nat) : Nat := fKey f 0x70000

/-- A word of row 17 (GTH_HOT_BASE). -/
def isHot (k : Nat) : Bool := decide (0x100000 ≤ k) && (decide (k % 0x100000 = 0x70000) || decide (k % 0x100000 = 0x70004))

/-- A number that rises along the sealed-set order: offsets rise but for row 17, which is last. -/
def sealRank (k : Nat) : Nat := if isHot k then k + 0x1000000 else k

/-- The offset HMK_WHERE reports for a sealed register: an entry of several words by its first one, a register of the active
controller at its window (R516). -/
def sealWhere (s : State) (k : Nat) : Nat :=
  if 0x50000 ≤ k ∧ k ≤ 0x540FC then k - k % 16
  else if 0x100000 ≤ k ∧ !isHot k then fKey (activeFacet s) (k - 0x100000)
  else k

/-- The earliest key in sealed-set order. -/
def firstSealed (ks : List Nat) : Option Nat :=
  ks.foldl (fun m k => match m with | none => some k | some j => if sealRank k < sealRank j then some k else some j) none

/-- An assignment word: rows 8 and 11 to 14, and word 0 of a shard set. -/
def isAssign (k : Nat) : Bool :=
  let o := k - 0x100000
  decide (0x100000 ≤ k) &&
  ((decide (0x50200 ≤ o) && decide (o ≤ 0x502FC)) || (decide (0x50400 ≤ o) && decide (o ≤ 0x504FC) && decide (o % 64 = 0)) ||
   (decide (0x80140 ≤ o) && decide (o ≤ 0x8017C)) || (decide (0x80500 ≤ o) && decide (o ≤ 0x805FC)) ||
   (decide (0x90200 ≤ o) && decide (o ≤ 0x902FC)) || (decide (0xA0400 ≤ o) && decide (o ≤ 0xA04FC)))

/-- A member word of a shard set. -/
def isMember (k : Nat) : Bool :=
  let o := k - 0x100000
  decide (0x100000 ≤ k) && decide (0x50400 ≤ o) && decide (o ≤ 0x504FC) && !decide (o % 64 = 0)

/-- A SRCH_SERVE or WGT_SERVE entry. -/
def isServe (k : Nat) : Bool :=
  let o := k - 0x100000
  decide (0x100000 ≤ k) && ((decide (0x50300 ≤ o) && decide (o ≤ 0x5033C)) || (decide (0xA0500 ≤ o) && decide (o ≤ 0xA053C)))

/-- Key of the assignment word of a member's set. -/
def memberAssign (k : Nat) : Nat := k - k % 64

/-! ## What touches only re-opened tenants (R523, R524) -/

/-- A TENANT value of 0x00 or a re-opened tenant. -/
def freeTenant (s : State) (w : Word) : Bool := decide (fld w 0 8 = 0) || reopened s (fld w 0 8)

/-- A SERVE value with VALID 0, or with a re-opened LOCAL_TENANT. -/
def freeServe (s : State) (w : Word) : Bool := !bitOf w 31 || reopened s (fld w 16 7)

/-- A sealed register's change from one value to another touches only re-opened tenants; `aws` holds the assignment words of a
member's set (R523). -/
def touchesOnly (s : State) (k : Nat) (cur new : Word) (aws : List Word) : Bool :=
  if 0x40000 ≤ k ∧ k ≤ 0x4207C then reopened s ((k - 0x40000) / 128)
  else if 0x4C000 ≤ k ∧ k ≤ 0x4C100 then reopened s ((k - 0x4C000) / 4)
  else if 0x4D000 ≤ k ∧ k ≤ 0x4D204 then reopened s ((k - 0x4D000) / 8)
  else if 0x50000 ≤ k ∧ k ≤ 0x540FC then reopened s ((k - 0x50000) / 256)
  else if isAssign k then freeTenant s cur && freeTenant s new
  else if isMember k then aws.all (freeTenant s) && aws.any (fun w => reopened s (fld w 0 8))
  else if isServe k then freeServe s cur && freeServe s new
  else false

/-- A write of a sealed register is taken (R512, R523). -/
def sealWritable (s : State) (k : Nat) (w : Word) : Bool :=
  match s.hmk.state with
  | .empty => true
  | .opened => true
  | .sealed => !tenantCheck s && decide (s.hmk.reopen ≠ 0#64) && touchesOnly s k (regGet s k) w [regGet s (memberAssign k)]
  | _ => false

/-- A register that MISSING may require (R511, column Required). -/
def mayRequire (k : Nat) : Bool :=
  decide (k = 0x70018) || decide (k = 0x7001C) || (decide (0x70100 ≤ k) && decide (k ≤ 0x70110)) || isHot k ||
  (decide (aKey 0xD0040 ≤ k) && decide (k ≤ aKey 0xD004C))

/-- A write of a sealed register (R512; Corners: the same value counts as written). -/
def sealedWrite (s : State) (k : Nat) (w : Word) : State :=
  if !sealWritable s k w then hmkIgnore s
  else
    let s := regSet s k w
    if mayRequire k ∧ !s.hmk.written.contains k then { s with hmk := { s.hmk with written := s.hmk.written ++ [k] } } else s

/-! ## The check (R516) -/

/-- The state as the check sees it: the fence map of its start (R48, Corners). -/
def checkView (s : State) (c : HmkCheck) : State :=
  (upto 8).foldl (fun s f => regSet (regSet s (fKey f 0xF0100) (c.fenceA.getD f 0#32)) (fKey f 0xF0104) (c.fenceB.getD f 0#32)) s

/-- The seal CRC over every sealed word as last written (R513). -/
def sealCrc (s : State) : Word := crc32c (sealedKeys.flatMap (fun k => leBytes 4 (regGet s k).toNat))

/-- STR_PLAN_USE as last written. -/
def planUse (s : State) : Bool := bitOf (regGet s 0x7001C) 0

/-- The plan that this seal would put in force (22 R480). -/
def planNext (s : State) : Option (List Byte) := if planUse s then s.plan.staged else none

/-- Required registers, in sealed-set order. -/
def requiredKeys (s : State) : List Nat :=
  (if planUse s then [0x70018] else []) ++ [0x7001C, 0x70100, 0x70104, 0x70108, 0x7010C, 0x70110] ++
  (upto 4).map (fun i => aKey (0xD0040 + 4 * i)) ++
  ((upto 8).filter (fabricLive s)).flatMap (fun f => [hotKey f, hotKey f + 4])

/-- Sealed keys that do not hold their reset value. -/
def sealListed (s : State) : List Nat := (keysOf s.regs).filter isSealed

/-- Listed keys between two. -/
def listedIn (s : State) (lo hi : Nat) : List Nat := (sealListed s).filter (fun k => decide (lo ≤ k) && decide (k ≤ hi))

/-- Registers with a reserved bit at 1. -/
def reservedBad (s : State) : List Nat :=
  (sealListed s).filter (fun k => regGet s k &&& BitVec.ofNat 32 (sealedReserved (regGet s) k) != 0#32)

/-- TEN_PARTS words that assign a fenced partition, or one that an earlier mask holds (R48, 18 R391). -/
def partsBad (s : State) : List Nat :=
  let ks := listedIn s 0x4D000 0x4D204
  ks.filter (fun k =>
    (upto 32).any (fun i => bitOf (regGet s k) i && !partLive s (k % 8 * 8 + i)) ||
    ks.any (fun j => decide (j < k) && decide (j % 8 = k % 8) && (regGet s j &&& regGet s k != 0#32)))

/-- TEN_RESV words that reserve bandwidth on a fenced stack or a facet whose LPDDR channels are all fenced (R48). -/
def resvBad (s : State) : List Nat :=
  (listedIn s 0x40000 0x4207C).filter (fun k =>
    let i := (k - 0x40000) / 4
    let f := i % 32 / 4
    decide (fld (regGet s k) 0 16 ≠ 0) &&
    ((decide (i % 4 = 1) && !hbmLive s f) || (decide (i % 4 = 2) && (upto 8).all (fun c => !lpLive s (8 * f + c)))))

/-- First keys of the regions last written as valid, in order. -/
def validRegions (s : State) : List Nat :=
  ((listedIn s 0x50000 0x540FC).filter (fun k => decide (k % 16 = 12) && bitOf (regGet s k) 31)).map (· - 12)

/-- A memory region meets R394's first three conditions. -/
def memRegionOk (s : State) (b n : Nat) : Bool :=
  decide (1 ≤ n) &&
  (match locOf b with
   | .slice k _ => decide (b + n ≤ 0x40000000 + (k / 16 + 1) * 0x8000000)
   | .hbm f off => decide (b % 0x200000 = 0) && decide (n % 0x200000 = 0) && decide (off + n ≤ hbmSize s f)
   | .lpddr f off => decide (b % 0x200000 = 0) && decide (n % 0x200000 = 0) && decide (off + n ≤ lpSize s f)
   | _ => false)

/-- A flash region meets R394's fourth condition; FIRST is channel, chip enable, LUN, block. -/
def flashRegionOk (s : State) (b n : Nat) : Bool :=
  let c := b / 2 ^ 21
  decide (1 ≤ n) && bitOf (chCfg s c) (24 + nfld b 18 3) && decide (nfld b 16 2 ≤ fld (chCfg s c) 10 2) &&
  decide (nfld b 0 16 + n ≤ chBlocks s c)

/-- A region meets R394 but for overlap. -/
def regionOk (s : State) (g : Region) : Bool :=
  match g.kind with | 0 => memRegionOk s g.base g.len | 1 => flashRegionOk s g.base g.len | _ => false

/-- Two regions of one kind overlap. -/
def overlap (a b : Region) : Bool := decide (a.kind = b.kind) && decide (a.base < b.base + b.len) && decide (b.base < a.base + a.len)

/-- Regions that break R394: the later of two that overlap. -/
def regionsBad (s : State) : List Nat :=
  let ks := validRegions s
  ks.filter (fun k => let g := regionFrom (regGet s) k
    !regionOk s g || ks.any (fun j => decide (j < k) && overlap (regionFrom (regGet s) j) g))

/-- A shard set's member names the package itself or one that the plan of this seal does not name (12 R270). -/
def memberBad (s : State) (w : Word) : Bool :=
  bitOf w 31 && (pkgNo s == some (fld w 24 6) || (match planNext s with | some b => !nbit (planPackages b) (fld w 24 6) | none => true))

/-- Any other inconsistent word: assignments (09 R182), members (12 R270), LOCAL_TENANT, quota, boot cap, roster. -/
def wordBad (s : State) (k : Nat) : Bool :=
  let w := regGet s k
  if isAssign k then decide (0x40 < fld w 0 8) && decide (fld w 0 8 ≠ 0xFF)
  else if isMember k then memberBad s w
  else if isServe k then decide (64 < fld w 16 7)
  else if 0x4C000 ≤ k ∧ k ≤ 0x4C100 then decide (fld w 0 15 = 0) || decide (16384 < fld w 0 15)
  else if k = 0x70110 then decide (fld w 0 8 < 60) || decide (240 < fld w 0 8)
  else decide (k = aKey 0xD0040) && bitOf w 0

/-- The hot-row area of a facet lies whole on its own slices (10 GTH_HOT_BASE). -/
def hotOk (s : State) (f : Nat) : Bool :=
  let b := pair (regGet s) (hotKey f)
  decide (0x40000000 + f * 0x8000000 ≤ b) && decide (b + 0x1000000 ≤ 0x40000000 + (f + 1) * 0x8000000)

/-- The staged plan to be put in force names a fenced lane of the package (R48, 22 R480). -/
def planLaneBad (s : State) : Bool :=
  match planNext s, pkgNo s with
  | some b, some n => (upto 16).any (fun l => (planPort b n l).isSome && !laneLive s l)
  | _, _ => false

/-- Registers that break a rule of consistency (R516). -/
def inconsistent (s : State) : List Nat :=
  partsBad s ++ resvBad s ++ regionsBad s ++ (sealListed s).filter (wordBad s) ++
  ((upto 8).filter (fun f => fabricLive s f && !hotOk s f)).map hotKey ++ (if planLaneBad s then [0x70018] else [])

/-- Sum of the reservations last written for a facet and tier, GB/s (06 R129). -/
def resvSum (s : State) (f : Nat) (t : Tier) : Nat :=
  ((upto 65).map (fun n => regFld s (0x40000 + 4 * resvIndex n f t) 0 16)).sum

/-- TEN_RESV entries with bandwidth whose facet and tier are oversubscribed (06 R129). -/
def oversubscribed (s : State) : List Nat :=
  let bad := (upto 8).flatMap (fun f => (tiers.filter (fun t => decide (admission s f t < resvSum s f t))).map (fun t => resvIndex 0 f t))
  (listedIn s 0x40000 0x4207C).filter (fun k => decide (fld (regGet s k) 0 16 ≠ 0) && bad.contains ((k - 0x40000) / 4 % 32))

/-- A plan that names ports that do not exist (22 R480). -/
def planBad (s : State) : Bool :=
  planUse s && (match s.plan.staged, pkgNo s with
    | some b, some n => decide (BitVec.ofNat 32 (rdLe b 12 4) ≠ regGet s 0x70018) || !nbit (planPackages b) n
    | _, _ => true)

/-- Changed sealed registers that touch a tenant that is not re-opened (R524). -/
def notReopened (s : State) : List Nat :=
  ((keysOf s.regs ++ keysOf s.force).filter isSealed).filter (fun k =>
    decide (regGet s k ≠ forceGet s k) &&
    !touchesOnly s k (forceGet s k) (regGet s k) [regGet s (memberAssign k), forceGet s (memberAssign k)])

/-- The first reason that fails, in code order, with HMK_WHERE (R516). `s` is the view of the check. -/
def checkReason (s : State) (c : HmkCheck) : Option (Nat × Nat) :=
  let at_ := fun (code : Nat) (ks : List Nat) => (firstSealed ks).map (fun k => (code, sealWhere s k))
  if c.crc ≠ sealCrc s then some (1, 0x1004)
  else if c.gen ≠ s.hmk.genLast + 1#16 then some (2, 0x1008)
  else (at_ 3 ((requiredKeys s).filter (fun k => !s.hmk.written.contains k))).or
    ((at_ 4 (reservedBad s)).or
    ((at_ 5 (inconsistent s)).or
    ((at_ 6 (oversubscribed s)).or
    (if planBad s then some (7, 0x70018)
     else if c.perTenant then at_ 9 (notReopened s) else none))))

/-! ## The seal (R515, R517, R524) -/

/-- An accepted write of HMK_SEAL starts the check with the CRC and GEN of that moment (R515). -/
def checkStart (s : State) (w : Word) : State :=
  let per := isSealedNow s
  let c : HmkCheck := ⟨w.setWidth 16, regGet s 0x1004, per, (upto 8).map (fenceA s), (upto 8).map (fenceB s)⟩
  let s := { s with hmk := { s.hmk with check := some c, quiesced := false } }
  if per then s else hmkMove s .checking

/-- A write of HMK_SEAL can be accepted (R515). -/
def sealOpenTo (s : State) : Bool :=
  match s.hmk.state with
  | .empty => true
  | .opened => true
  | .held => true
  | .sealed => decide (s.hmk.reopen ≠ 0#64) && !s.hmk.draining && s.hmk.check.isNone
  | .checking => false

/-- A write of HMK_SEAL: ignored, refused with EJECT_ASSERTED (code 8), or accepted (R515). -/
def sealWrite (s : State) (w : Word) : State :=
  if !sealOpenTo s then hmkIgnore s
  else if ejectAsserted s then hmkEvent (regSet { s with hmk := { s.hmk with reason := 8 } } 0x100C 0x1008#32)
  else checkStart s w

/-- HMK_SEAL (R515). -/
def execHmkSeal (w : Word) (s : State) : Result := .next (if alive s then sealWrite s w else s)

/-- Bits of partitions that a tenant no longer holds clear in its groups (14 R292, 18 R403). -/
def pruneGroups (s : State) : State :=
  ((keysOf s.regs).filter (fun k => decide (0x48000 ≤ k) && decide (k < 0x4A080))).foldl (fun s k =>
    regSet s k (regGet s k &&& forceGet s (0x4D000 + 8 * ((k - 0x48000) / 128) + k % 8))) s

/-- PWR_KEY as last written differs from the key in force (22 R486). -/
def keyChanges (s : State) : Bool := (upto 4).any (fun i => regGet s (0x70100 + 4 * i) != forceGet s (0x70100 + 4 * i))

/-- Every sealed value takes effect at one instant (R517, R524, 18 R403): requests in flight keep the slots they resolved, groups
follow the masks. -/
def commitSeal (s : State) (gen : BitVec 16) : State :=
  let newKey := keyChanges s
  let s := pinNames s (fun _ => true)
  let s := { s with force := s.regs.filter (fun p => isSealed p.1), hmk := { s.hmk with genLast := gen, reason := 0, reopen := 0#64, check := none } }
  capAtSeal (pruneGroups (regSet s 0x100C 0#32)) newKey

/-- The plan of the seal is in force, and every lane is compared again (R517, 22 R480). -/
def planForce (s : State) : State :=
  let p := planNext s
  let n := match p with | some b => planSerial b | none => 0
  let s := { s with plan := { s.plan with inForce := p } }
  identifyAll (regSet (regSet s 0x70024 (BitVec.ofNat 32 n)) 0x70028 (BitVec.ofNat 32 (n / 2 ^ 32)))

/-- Tenants' event rings report the events they lost while the package was not sealed (24 R535, R536). -/
def reportLost (s : State) : State :=
  (rangeFrom 1 64).foldl (fun s t => (targetFns t).foldl (fun s fn => if evtOn s fn then evtReport s fn else s) s) s

/-- A check passes (R517, R524); grants are evaluated in the state that the seal makes, so that a tenant's event ring hears of its
grants (06 R131, R134). -/
def sealPass (s : State) (c : HmkCheck) : State :=
  let s := commitSeal s c.gen
  if c.perTenant then settle (evalNow (hmkEvent s))
  else settle (evalNow (reportLost (hmkMove (planForce s) .sealed)))

/-- A check fails (R517, R524): nothing but the reason is told, and a global one leaves the hallmark HELD. -/
def sealFail (s : State) (c : HmkCheck) (reason loc : Nat) : State :=
  let s := regSet { s with hmk := { s.hmk with reason := reason, check := none } } 0x100C (BitVec.ofNat 32 loc)
  if c.perTenant then hmkEvent s else hmkMove s .held

/-- The check ends (R516); a running TEN_CLEAR delays it. -/
def checkDone (s : State) : State :=
  match s.hmk.check with
  | none => s
  | some c =>
    if s.clear.isSome then s
    else match checkReason (checkView s c) c with
      | some (r, loc) => sealFail s c r loc
      | none => sealPass s c

/-- HMK_CHECK_DONE (R516, R517, R524). -/
def execHmkCheckDone (s : State) : Result := .next (if alive s then checkDone s else s)

/-! ## OPEN and the drain (R519, R520) -/

/-- The hallmark enters OPEN after a drain (R519): the mask clears, required registers count as not written (R516), flows have
ended. -/
def enterOpen (s : State) : State :=
  let s := strandStop s
  hmkMove { s with hmk := { s.hmk with draining := false, reopen := 0#64, check := none, written := [] } } .opened

/-- A global drain starts (R519). -/
def drainStart (s : State) : State :=
  let s := { s with hmk := { s.hmk with draining := true } }
  settle (strandSettle (failWaiting (drainPools s) .reopened))

/-- OPEN is entered at once (R520); the re-open mask clears on entry to OPEN (R519). -/
def reopenAll (s : State) : State := hmkMove { s with hmk := { s.hmk with reopen := 0#64 } } .opened

/-- A write of OPEN (R519, R520). After a quiesce only a seal leaves HELD (22 R498). -/
def openWrite (s : State) : State :=
  match s.hmk.state with
  | .empty => reopenAll s
  | .held => if s.hmk.quiesced then hmkIgnore s else reopenAll s
  | .sealed => if s.hmk.draining then hmkIgnore s else drainStart s
  | _ => hmkIgnore s

/-- OPEN (R519, R520). -/
def execOpenAll (s : State) : Result := .next (if alive s then openWrite s else s)

/-- An owner's descriptor that a drain holds unstarted is not in flight (17 R389, 23 R519). -/
def drainHolds (r : Request) : Bool := r.late && !r.started

/-- Nothing remains in flight (R519): requests, flows, flash jobs. -/
def drained (s : State) : Bool :=
  s.requests.all (fun p => drainHolds p.2) && s.strand.flows.isEmpty && s.flash.jobs.isEmpty

/-- DRAIN_COMPLETE (R519). -/
def execDrainComplete (s : State) : Result := .next (if alive s && s.hmk.draining && drained s then enterOpen s else s)

/-- The drain limit passes (R519): pools detach as with ABORT, every remaining request fails, flows are reset, flash jobs stop. -/
def drainExpire (s : State) : State :=
  let s := abortPools s
  let s := ((s.requests.filter (fun p => !drainHolds p.2)).map (·.1)).foldl (fun s t => endRequest s t .reopened []) s
  enterOpen (stopJobs (resetFlows s .reopened) 6)

/-- HMK_DRAIN_X (R519). -/
def execHmkDrainX (s : State) : Result := .next (if alive s && s.hmk.draining then drainExpire s else s)

/-! ## Re-opening a tenant (R522) -/

/-- A write of OPEN_TENANT (R522, 18 R402). -/
def openTenant (s : State) (t : Nat) : State :=
  if s.hmk.state = .sealed ∧ !s.hmk.draining ∧ s.hmk.check.isNone ∧ 1 ≤ t ∧ t ≤ 64 then
    { s with hmk := { s.hmk with reopen := setBit s.hmk.reopen (t - 1) true } }
  else hmkIgnore s

/-- OPEN_TENANT (R522). -/
def execOpenTenant (t : Nat) (s : State) : Result :=
  .next (if alive s then openTenant (regSetFld s 0x1010 0 7 t) (t % 128) else s)

/-- A write of HMK_CTRL (R519, R520, R522): TENANT is stored; OPEN acts before OPEN_TENANT. -/
def hmkCtrlWrite (s : State) (w : Word) : State :=
  let s := regSetFld s 0x1010 0 7 (fld w 0 7)
  let s := if bitOf w 31 then openWrite s else s
  if bitOf w 30 then openTenant s (fld w 0 7) else s

end Sys2Proof.Machine
end

