-- ==== Sys2Proof/Machine/ConfigSpace.lean ====
section
/-! DEFINITION. ConfigSpace: what the configuration space of a function reads, live or dead: identity values and capabilities with their
settings (16 R342, R344, R345, R348, R349, R351). The spec gives no capability's offset, so they are values and no words. -/
namespace Sys2Proof.Machine

/-- Identity registers of a function (16 Table - Identity values). -/
structure Identity where
  vendor : Nat
  device : Nat
  revision : Nat
  classCode : Nat
  headerType : Nat
  subVendor : Nat
  subsystem : Nat
  intPin : Nat
  deriving DecidableEq, Repr

/-- Subsystem ID of the grade that the fuses make (16 R348; 00 R7): its partitions as hexadecimal digits. -/
def gradeId (fuse : DWord) : Nat := let n := popN 64 fuse.toNat; n / 10 * 16 + n % 10

/-- Identity of a function (16 R348): of a physical function and of the virtual ones. -/
def identity (s : State) (fn : FnId) : Identity :=
  let pf := decide (fn.tenant = 0)
  ⟨if pf then 0x1FD3 else 0xFFFF, if pf then 0xF810 else 0xFFFF, s.mfg.stepping.toNat, 0x120000, 0, 0x1FD3, gradeId s.mfg.fuse, 0⟩

/-- TotalVFs and InitialVFs (16 R345). -/
def totalVfs : Nat := 64

/-- Capabilities with their settings (16 Table - Capabilities). -/
inductive Capability where
  | powerManagement (d3hot noSoftReset pme : Bool)
  | pciExpress (flr extendedTag tag10 tag14 : Bool) (mps maxSpeed maxWidth aspm : Nat) (timeoutRanges : List Char) (timeoutDisable : Bool)
  | msix (vectors tableBar tableOffset pbaBar pbaOffset : Nat)
  | advancedErrors
  | serialNumber (serial : DWord)
  | secondaryPcie | dataLinkFeature | physicalLayer16 | physicalLayer32 | physicalLayer64 | laneMargining
  | ari (nextFunction : Nat)
  | sriov (totalVfs initialVfs firstOffset stride vfDevice : Nat) (pageKib : List Nat)
  | ats (queueDepth : Nat) (pageAligned globalInvalidate : Bool)
  | pasid (width : Nat) (execute privileged : Bool)
  deriving DecidableEq, Repr

/-- The capabilities of a function, and no other (16 R349): link speed 6 is 64 GT/s; ASPM reads 0, not supported (R342); the completion
timeout has ranges A to D and cannot be disabled (R344). -/
def capabilities (s : State) (fn : FnId) : List Capability :=
  let shared := [.powerManagement true true false, .pciExpress true true true true 512 6 16 0 ['A', 'B', 'C', 'D'] false,
    .msix 2048 2 0 2 0x8000, .ari 0, .ats 32 true false]
  if fn.tenant = 0 then
    shared ++ [.advancedErrors, .serialNumber s.mfg.serial, .secondaryPcie, .dataLinkFeature, .physicalLayer16, .physicalLayer32,
      .physicalLayer64, .laneMargining, .sriov totalVfs totalVfs 1 1 0xF811 [4], .pasid 20 false false]
  else shared

/-- Routing ID of a port's function n, from that of its physical function (16 R345). -/
def routingId (pf n : Nat) : Nat := if n = 0 then pf else pf + 1 + (n - 1)

/-- Milliseconds after which a read completion times out, as far as Device Control 2 fixes them (16 R344): 50 by default. -/
def timeoutMs (s : State) (p : Nat) : Option Nat := if (portOf s p).config.timeout = 0 then some 50 else none

/-- A function's BARs as (number, bytes, 64-bit, prefetchable) (16 Table - BARs). -/
def barsOf (fn : FnId) : List (Nat × Nat × Bool × Bool) :=
  if fn.tenant = 0 then [(0, 0x1000000, true, false), (2, 0x10000, true, false)] else [(0, 0x10000, true, false), (2, 0x10000, true, false)]

end Sys2Proof.Machine
end

