-- ==== Sys2Proof/Machine/HostAttach.lean ====
section
/-! DEFINITION. HostAttach: links, resets, virtual functions, D3hot and ATS invalidation (16 R341 to R360). -/
namespace Sys2Proof.Machine

/-! ## Function-level reset (R356 to R358) -/

/-- A request was fetched through a function's rings. -/
def fetchedBy (fn : FnId) (r : Request) : Bool := match r.source with | .ring g _ _ _ _ => g == fn | .peer _ => false

/-- A request is abandoned (R356): its flows close, its engine work and its tag go, and no completion is posted. -/
def abandonRequest (s : State) (tag : Nat) : State :=
  let s := dropJobs (abandonFor s tag) tag
  { s with requests := remove s.requests tag, parked := remove s.parked tag }

/-- Numbers of a function among those that hold `per` of them. -/
def ofFn {α : Type} (fn : FnId) (per : Nat) (m : KMap α) : KMap α := m.filter (fun p => decide (p.1 / per ≠ fnNo fn))

/-- The rings, lines, event ring, MSI-X table and set-up of a function return to reset values (R356); LOST of its event ring keeps its
count (24 R538). -/
def resetSetup (s : State) (fn : FnId) : State :=
  let lo := fnBase fn
  let s := evtDrop s fn
  let e := evtOf s fn
  let s := { s with
    regs := s.regs.filter (fun p => !(decide (lo ≤ p.1) && decide (p.1 < lo + 0x2000)))
    funcs := remove s.funcs (fnNo fn)
    rings := { s.rings with sqs := ofFn fn 32 s.rings.sqs, cqs := ofFn fn 32 s.rings.cqs, lines := ofFn fn 4 s.rings.lines } }
  setEvt s fn { evtReset with lost := e.lost, firstLost := e.firstLost }

/-- Transactions Pending of a function is cleared (R356): its reads that were to come or to leave are none of the port's any more, and no
Invalidate Request waits for them (Corners). -/
def dropReads (s : State) (fn : FnId) : State :=
  forgetPages (freeReads s fn.port (fun x => decide (x.tenant = fn.tenant))) fn (fun _ => true)

/-- A function-level reset of one function (R356). -/
def flrOne (s : State) (fn : FnId) : State :=
  let tags := (s.requests.filter (fun p => fetchedBy fn p.2)).map (·.1)
  emit (resetSetup (dropReads (tags.foldl abandonRequest s) fn) fn) (.flrDone fn)

/-- What waited on what a reset took away goes on. -/
def afterReset (s : State) : State := if alive s then settle (strandSettle s) else s

/-- Configuration requests reach a function (R345): virtual functions above 7 only with ARI Capable Hierarchy set. -/
def cfgReach (s : State) (fn : FnId) : Bool := decide (fn.tenant ≤ 7) || (portOf s fn.port).config.ari

/-- VF_FLR (R356): the function must be enabled, and configuration requests must reach it. -/
def execVfFlr (port vf : Nat) (s : State) : Result :=
  .next (if s.supply.powerGood && decide (1 ≤ vf) && decide (vf ≤ 64) && fnEnabled s ⟨port, vf⟩ && cfgReach s ⟨port, vf⟩ then afterReset (flrOne s ⟨port, vf⟩) else s)

/-- VF Enable is cleared: every virtual function of the port is reset (R346). -/
def clearVfs (s : State) (port : Nat) : State :=
  let s := (rangeFrom 1 64).foldl (fun s t => if fnEnabled s ⟨port, t⟩ then flrOne s ⟨port, t⟩ else s) s
  setPort s port { portOf s port with vfEnable := false }

/-- Flash jobs started through a port stop as ABORT stops them (R358). -/
def stopPortJobs (s : State) (port : Nat) : State :=
  (s.flash.jobs.filter (fun p => p.2.port == port)).foldl (fun s p => stopJob s p.1 7) s

/-- A function-level reset of a port's physical function (R358): its configuration returns to reset values. -/
def flrPf (s : State) (port : Nat) : State :=
  let s := flrOne (stopPortJobs (clearVfs s port) port) ⟨port, 0⟩
  setPort s port { portOf s port with config := portReset.config, numVfs := 0 }

/-- PF_FLR (R358). -/
def execPfFlr (port : Nat) (s : State) : Result :=
  .next (if s.supply.powerGood && decide (port < 2) && (portOf s port).up then afterReset (flrPf s port) else s)

/-- VF_ENABLE_CLEAR (R346). -/
def execVfEnableClear (port : Nat) (s : State) : Result :=
  .next (if s.supply.powerGood && decide (port < 2) && (portOf s port).up && (portOf s port).vfEnable then afterReset (clearVfs s port) else s)

/-- VF_ENABLE_SET (R346): virtual functions 1 to NumVFs act as their tenants. While VF Enable is 1 a change of NumVFs is ignored
(Corners). -/
def execVfEnableSet (port numVfs : Nat) (s : State) : Result :=
  .next (if s.supply.powerGood && decide (port < 2) && (portOf s port).up && !(portOf s port).vfEnable && decide (numVfs ≤ totalVfs) then
      setPort s port { portOf s port with vfEnable := true, numVfs := numVfs }
    else s)

/-! ## Links (R341, R359, R360) -/

/-- Key of HST_LINK of a port. -/
def linkKey (port : Nat) : Nat := fKey (portFacet port) 0xC0000

/-- LINK_CHANGE to the owner (R359). -/
def linkEvent (s : State) (port cause : Nat) : State := raise s 0 .linkChange 0xC (portFacet port) 0xFF (port + cause * 2)

/-- A port goes down for a cause (R359, R360): nothing leaves by it any more, its functions are reset and LINK_CHANGE is sent. -/
def portDown (s : State) (port cause : Nat) : State :=
  let s := bump (setPort s port { portOf s port with reads := [], held := [], invals := [] }) (linkKey port) 16 16 1
  let s := setAtc (setPort (flrPf s port) port { portReset with cameDown := true }) port []
  afterReset (linkEvent (regSetFld s (linkKey port) 0 10 0) port cause)

/-- LINK_DOWN (R359). -/
def execLinkDown (port : Nat) (s : State) : Result :=
  .next (if s.supply.powerGood && decide (port < 2) && (portOf s port).up then portDown s port 1 else s)

/-- HOT_RESET (R359). -/
def execHotReset (port : Nat) (s : State) : Result :=
  .next (if s.supply.powerGood && decide (port < 2) && (portOf s port).up then portDown s port 3 else s)

/-- PERST# is asserted (R359): a link that is up goes down; a port that had been up and is down already only reports it. -/
def perst (s : State) (port : Nat) : State :=
  let p := portOf s port
  if p.perst then s
  else
    let s := if p.up then portDown s port 2 else if p.cameDown then linkEvent s port 2 else s
    setPort s port { portOf s port with perst := true }

/-- PERST_ASSERT (R359). -/
def execPerstAssert (port : Nat) (s : State) : Result := .next (if s.supply.powerGood && decide (port < 2) then perst s port else s)

/-- A port may train (R341, R505; 02 R52, R53): bring-up has ended, its references run and its host block is live. -/
def mayTrain (s : State) (port : Nat) : Bool :=
  s.supply.powerGood && s.supply.refClock && !s.supply.thermtrip && (s.assay.ready || s.assay.dead.isSome) && hostLive s (portFacet port)

/-- A link comes up with a rate and a width of R341; after an event of R359 it is reported. -/
def portUp (s : State) (port speed width : Nat) (cfg : PortConfig) : State :=
  let p := portOf s port
  let s := setPort s port { p with up := true, flit := decide (speed = 6), width := width, speed := speed, perst := false,
                                   cameDown := false, config := cfg }
  let s := regSetFld s (linkKey port) 0 10 (speed + (width % 16) * 16 + 256 + (if speed = 6 then 512 else 0))
  if p.cameDown then linkEvent s port 4 else s

/-- LINK_UP (R359): the link trains at 8 to 64 GT/s (codes 3 to 6) and x1 to x16. -/
def execLinkUp (port speed width : Nat) (cfg : PortConfig) (s : State) : Result :=
  .next (if mayTrain s port && decide (port < 2) && !(portOf s port).up && decide (3 ≤ speed) && decide (speed ≤ 6) &&
      [1, 4, 8, 16].contains width then portUp s port speed width cfg else s)

/-! ## D3hot and ATS (R350, R354) -/

/-- Vectors of a function that are pending and no longer masked send their message (R355). -/
def releasePending (s : State) (fn : FnId) : State :=
  ((funcOf s fn).vecs.filter (fun p => p.2.pba && !p.2.masked)).foldl (fun s p =>
    let f := funcOf s fn
    if (fnConfig s fn).fmask || f.d3hot then s
    else sendMsix (setFunc s fn { f with vecs := mapSet (fun _ => vecReset) f.vecs p.1 { p.2 with pba := false } }) fn p.1) s

/-- A function returns to D0: final completions that waited are posted, chunks that waited are tried, flash jobs that it started go on, and
held messages and events go (R350). -/
def wake (s : State) (fn : FnId) : State :=
  let s := joinReads (setFunc s fn { funcOf s fn with d3hot := false }) fn.port []
  let mine := s.parked.filter (fun p => match look s.requests p.1 with | some r => fetchedBy fn r | none => false)
  let s := mine.foldl (fun s p => endRequest s p.1 p.2.1 p.2.2) s
  let own := s.pools.filter (fun p => match look s.requests p.1 with | some r => fetchedBy fn r | none => false)
  let s := if fn.tenant = 0 then (s.flash.jobs.filter (fun p => p.2.port == fn.port)).foldl (fun s p => jobAsk (jobFlush s p.1) p.1) s else s
  settle (evtResume (releasePending (own.foldl (fun s p => retryChunks s p.1) s) fn) fn)

/-- D3HOT_TRANSITION (R350). -/
def execD3hotTransition (port tenant : Nat) (enter : Bool) (s : State) : Result :=
  .next (if !alive s || !fnEnabled s ⟨port, tenant⟩ || decide (64 < tenant) || !cfgReach s ⟨port, tenant⟩ || ((funcOf s ⟨port, tenant⟩).d3hot == enter) then s
    else if enter then setFunc s ⟨port, tenant⟩ { funcOf s ⟨port, tenant⟩ with d3hot := true }
    else wake s ⟨port, tenant⟩)

/-- The reads of a function that are outstanding. -/
def readsOf (s : State) (fn : FnId) : List HostAsk := (portOf s fn.port).reads.filter (fun x => decide (x.tenant = fn.tenant))

/-- An Invalidate Request for a function (R354): its translations go, and it is answered once the reads issued under them have completed.
Writes are sent as they are issued. -/
def invalidate (s : State) (fn : FnId) (id : Nat) : State :=
  let q := portOf s fn.port
  answerInvals (forgetPages (setPort s fn.port { q with invals := q.invals ++ [⟨fn.tenant, id, readsOf s fn⟩] }) fn (fun _ => true)) fn.port

/-- ATS_INVALIDATE_REQUEST (R354); a fenced port carries no message (02 R46). -/
def execAtsInvalidateRequest (port tenant id : Nat) (s : State) : Result :=
  .next (if s.supply.powerGood && fnEnabled s ⟨port, tenant⟩ && linkOpen s port && (fnConfig s ⟨port, tenant⟩).ats then
      invalidate s ⟨port, tenant⟩ id else s)

end Sys2Proof.Machine
end

