-- ==== Sys2Proof/Machine/BringUp.lean ====
section
/-! DEFINITION. BringUp: power-on, package reset, the Assay image and self test, the owner's mailbox, heartbeats, the crystal,
THERMTRIP# and the TAP (02 R36 to R40, R50 to R54; 23 R504 to R510, R525; 26 R561, R563, R567). -/
namespace Sys2Proof.Machine

/-! ## What a reset loses (R506) -/

/-- Pages whose program or erase was under way are undefined (07 R160, 26 R555). -/
def brokenPages (s : State) : KMap PageData :=
  s.flash.inFlight.foldl (fun m f => f.2.parts.foldl (fun m c => nandBroken m c.op) m) s.flash.pages

/-- The caps that the next training takes, by facet (07 FLS_RATE_X): as the registers stand when a reset begins; with PWR_GOOD low
already, as they stood when it fell (note 145). -/
def nextCaps (s : State) : KMap Nat :=
  if s.supply.powerGood then
    ((upto 8).map (fun f => (f, regFld s (fKey f 0x30204) 0 3))).filter (fun p => decide (p.2 ≠ 6))
  else s.flash.caps

/-- A reset loses everything except the straps and the SPI NOR. What lies outside the package stays: manufacture, pins, what the
NAND holds, and what was sent; the rate caps wait for the training (07 FLS_RATE_X). -/
def afterLoss (s : State) : State :=
  { State.reset with
    pending := s.pending, mfg := s.mfg, supply := s.supply, nor := s.nor, outs := s.outs, freeCount := s.freeCount
    ports := (s.ports.filter (fun p => p.2.perst)).map (fun p => (p.1, { portReset with perst := true }))
    flash := { State.reset.flash with pages := brokenPages s, erased := s.flash.erased, caps := nextCaps s } }

/-- Outputs stop and everything is lost; ENUM_OUT goes low, and the level of ENUM_IN stays what the pin shows (R504 step 3,
R506). -/
def loseAll (s : State) : State :=
  let was := bitOf (regGet s (cKey 0x20)) 16
  let lvl := enumIn s
  let s := regSetFld (afterLoss s) (cKey 0x20) 17 1 (if lvl then 1 else 0)
  if was then emit s (.enumOut false) else s

/-! ## Self test (R510) -/

/-- A facet's report. -/
def reportOf (b : BootReport) (f : Nat) : FacetReport := b.facets.getD f ⟨0#32, 0#32, 0, 0, 0, [], 0, [], []⟩

/-- The stack trained, and is a row of Table - Accepted memory devices: HBM3E of 24 or 36 GB at any rate, HBM3 of 24 GB at 6.4 Gb/s
(06 R112). -/
def hbmFit (r : FacetReport) : Bool :=
  !bitOf r.fenceB 17 &&
  match r.hbmType with
  | 1 => decide (r.hbmGb = 24) && decide (r.hbmRate = 1)
  | 2 => (decide (r.hbmGb = 24) || decide (r.hbmGb = 36)) && decide (1 ≤ r.hbmRate) && decide (r.hbmRate ≤ 3)
  | _ => false

/-- Type and density that a channel's devices report; (0, 0) when it carries none (06 R113). -/
def lpDevice (r : FacetReport) (c : Nat) : Nat × Nat := (r.lpTypes.getD c 0, r.lpDensities.getD c 0)

/-- The devices of a facet's LPDDR channels: those of the first channel that carries any (06 R113). -/
def lpKind (r : FacetReport) : Nat × Nat :=
  (((upto 8).map (lpDevice r)).find? (fun d => decide (d.1 ≠ 0))).getD (0, 0)

/-- All channels that carry devices carry the same (06 R113). -/
def lpAlike (r : FacetReport) : Bool := (upto 8).all (fun c => (lpDevice r c).1 == 0 || lpDevice r c == lpKind r)

/-- A channel carries devices of a row of Table - Accepted memory devices, trained at a rate of that row: LPDDR5X at any, LPDDR5 at
6400 MT/s (06 R112). -/
def lpFit (r : FacetReport) (c : Nat) : Bool :=
  lpAlike r && (decide ((lpDevice r c).2 = 1) || decide ((lpDevice r c).2 = 2)) &&
  match (lpDevice r c).1 with
  | 1 => decide (r.lpRate = 1)
  | 2 => decide (1 ≤ r.lpRate) && decide (r.lpRate ≤ 3)
  | _ => false

/-- What was found on an ONFI channel. -/
def channelOf (r : FacetReport) (c : Nat) : ChannelSeen := r.channels.getD c ⟨[], []⟩

/-- The parameter page that the controller accepts of a target (07 R140): the first copy with the ONFI signature and a matching CRC. -/
def targetPage (t : TargetSeen) : Option ParamPage := t.copies.find? (fun p => p.signature && p.crc)

/-- Every limit of Table - Accepted NAND geometry (07 R136); a LUN of 1 Tb holds 2^40 bits of data. -/
def paramFit (p : ParamPage) : Bool :=
  [1, 2, 4].contains p.luns && [1, 2, 4].contains p.planes &&
  ((decide (p.pageBytes = 16384) && decide (2208 ≤ p.spare)) || (decide (p.pageBytes = 32768) && decide (4416 ≤ p.spare))) &&
  decide (1 ≤ p.pages) && decide (p.pages ≤ 4096) && decide (1 ≤ p.blocks) && decide (p.blocks ≤ 65536) &&
  decide (8 * p.pageBytes * p.pages * p.blocks ≤ 2 ^ 40)

/-- Two parameter pages report the same geometry (07 R137). -/
def sameGeometry (p q : ParamPage) : Bool :=
  p.luns == q.luns && p.planes == q.planes && p.pageBytes == q.pageBytes && p.spare == q.spare && p.pages == q.pages && p.blocks == q.blocks

/-- The targets present on a channel: chip enables at which READ ID returns the ONFI signature (07 Corners). -/
def presentOn (ch : ChannelSeen) : List TargetSeen := ch.targets.filter (·.onfi)

/-- The geometry of a channel (07 R137): every present target has an accepted page within the limits, and all report the same. -/
def channelPage (ch : ChannelSeen) : Option ParamPage :=
  match (presentOn ch).map targetPage with
  | some p :: ps => if paramFit p && ps.all (fun q => match q with | some q => sameGeometry p q | none => false) then some p else none
  | _ => none

/-- The code that a channel trains to (07 R136): the highest, up to the facet's cap, at which DQ training passes; 0 when none does. -/
def trainedRate (cap : Nat) (ch : ChannelSeen) : Nat := ((rangeFrom 1 6).filter (fun c => decide (c ≤ cap) && ch.rates.contains c)).foldl max 0

/-- Self test does not fence an ONFI channel (07 R137): it found no target there (note 145), or the targets fit and one rate trained. -/
def onfiFit (r : FacetReport) (cap c : Nat) : Bool :=
  let ch := channelOf r c
  !bitOf r.fenceB (20 + c) && ((presentOn ch).isEmpty || ((channelPage ch).isSome && decide (trainedRate cap ch ≠ 0)))

/-- ASSAY_FENCE bits that a facet's place gives it (02 ASY_FENCE_B): links that do not exist, and on facets other than F0 and F4 the
port and the controller. -/
def placeBits (f : Nat) : Nat :=
  ((upto 4).map (fun d => if (neighbour f d).isNone then 2 ^ (15 - d) else 0)).sum + (if f % 4 = 0 then 0 else 0x30)

/-- ASY_FENCE_A of a facet after self test: a fused array is never suspect (02 R45). -/
def testA (s : State) (f : Nat) (r : FacetReport) : Word :=
  r.fenceA &&& BitVec.ofNat 32 (0xFFFFFF00 + fld s.mfg.fuse (8 * f) 8)

/-- ASY_FENCE_B of a facet after self test. -/
def testB (f cap : Nat) (r : FacetReport) : Word :=
  (r.fenceB &&& 0xFFFFFFF0#32) ||| BitVec.ofNat 32 (placeBits f) ||| BitVec.ofNat 32 (if hbmFit r then 0 else 2 ^ 17) |||
  BitVec.ofNat 32 (((upto 8).map (fun c => if lpFit r c then 0 else 2 ^ (24 + c))).sum) |||
  BitVec.ofNat 32 (((upto 4).map (fun c => if onfiFit r cap c then 0 else 2 ^ (20 + c))).sum)

/-- Sets bits of a unit, with nothing that follows. -/
def setUnit (s : State) (kind n : Nat) : State :=
  (unitBits kind n).foldl (fun s kb => regSet s kb.1 (setBit (regGet s kb.1) kb.2 true)) s

/-- A link fenced at one end is fenced at both. -/
def bothEnds (s : State) : State :=
  (upto 8).foldl (fun s f => (upto 4).foldl (fun s d => match neighbour f d with
    | some g => if linkLive s f d then s else setUnit s 9 (8 * min f g + max f g)
    | none => s) s) s

/-- A fenced island fences every unit of its facet (02 R45). -/
def islandBits (s : State) : State :=
  ((upto 8).filter (fun f => !fabricLive s f)).foldl (fun s f => (facetUnits s f).foldl (fun s u => setUnit s u.1 u.2) s) s

/-- The cap on the ONFI rates of a facet at this self test (07 FLS_RATE_X). -/
def rateCap (s : State) (f : Nat) : Nat := mapGet (fun _ => 6) s.flash.caps f

/-- FLS_CH_CFG and FLS_CH_GEOM of a channel as found (07): RATE is 0 for a channel that is fenced or has no target. -/
def channelWords (r : FacetReport) (cap c : Nat) : Nat × Nat :=
  let ch := channelOf r c
  let here := ((upto 8).filter (fun e => match ch.targets[e]? with | some t => t.onfi | none => false)).map (2 ^ ·)
  match channelPage ch with
  | some p =>
    let rate := if onfiFit r cap c then trainedRate cap ch else 0
    (here.sum * 2 ^ 24 + rate * 2 ^ 12 + (p.luns - 1) * 2 ^ 10 + (p.planes / 2) * 2 ^ 8 + (if p.pageBytes = 32768 then 2 ^ 7 else 0),
      p.blocks % 65536 * 2 ^ 16 + p.pages)
  | none => (here.sum * 2 ^ 24, 0)

/-- A time in ns as whole OCLK cycles, rounded up (07 R141): a channel runs at 8 transfers per OCLK cycle. -/
def oclkCycles (ns mts : Nat) : Nat := (ns * mts + 7999) / 8000

/-- What the controller keeps of a target's accepted parameter page (07 R141, R151). -/
def targetKept (p : ParamPage) (rate : Nat) : NandTarget :=
  ⟨p.retries, p.bus.map (fun t => oclkCycles t (onfiMts rate)), p.typical, p.greatest.map (4 * ·)⟩

/-- The commands of self test to the chip enables of a channel (07 R136, R139, R140): RESET, READ ID and READ PARAMETER PAGE, in SDR
timing mode 0; then, on a channel that fits, drive strength and ODT, each interface from the cap down to the one that trains, with its DQ
training, and the long ZQ calibration. -/
def testCommands (ch : ChannelSeen) (cap first : Nat) : List Out :=
  let es := (upto 8).filter (fun e => decide (e < ch.targets.length))
  let on := es.filter (fun e => match ch.targets[e]? with | some t => t.onfi | none => false)
  let probe := es.flatMap (fun e => [Out.nandSetup (first + e) .reset, .nandSetup (first + e) .readId] ++
    (if on.contains e then [Out.nandSetup (first + e) .parameterPage] else []))
  let best := trainedRate cap ch
  let rates := ((rangeFrom 1 6).filter (fun c => decide (c ≤ cap) && decide (best ≤ c))).reverse
  if (channelPage ch).isNone then probe
  else probe ++ on.flatMap (fun e => [Out.nandSetup (first + e) .driveStrength, .nandSetup (first + e) .odt]) ++
    rates.flatMap (fun c => on.flatMap (fun e => [Out.nandSetup (first + e) (.interface c), .nandSetup (first + e) (.dqTraining c)])) ++
    on.map (fun e => Out.nandSetup (first + e) .zqLong)

/-- The targets of one ONFI channel at self test (07 R136 to R141). -/
def testChannel (s : State) (f : Nat) (r : FacetReport) (c : Nat) : State :=
  let ch := channelOf r c
  let cap := rateCap s f
  let w := channelWords r cap c
  let first := 8 * (4 * f + c)
  let s := regSet s (fKey f (0x30000 + 4 * c)) (BitVec.ofNat 32 w.1)
  let s := regSet s (fKey f (0x30010 + 4 * c)) (BitVec.ofNat 32 w.2)
  let kept := (upto 8).filterMap (fun e => match ch.targets[e]? with
    | some t => if t.onfi then (targetPage t).map (fun p => (first + e, targetKept p (trainedRate cap ch))) else none
    | none => none)
  let s := { s with flash := { s.flash with targets := kept.foldl (fun m p => place m p.1 p.2) s.flash.targets } }
  (testCommands ch cap first).foldl emit s

/-- Memory and flash found on a facet (06 MEM_HBM_CFG, R115; 07 FLS_CH_CFG, FLS_CH_GEOM). -/
def testDevices (s : State) (f : Nat) (r : FacetReport) : State :=
  let s := regSet s (fKey f 0x20000)
    (BitVec.ofNat 32 ((if hbmFit r then r.hbmGb % 256 * 2 ^ 8 else 0) + r.hbmRate % 16 * 2 ^ 4 + r.hbmType % 16))
  (upto 4).foldl (fun s c => testChannel s f r c) s

/-- The first part of self test: units as found, before isolation is judged. -/
def testUnits (s : State) (b : BootReport) : State :=
  let s := (upto 8).foldl (fun s f =>
    let r := reportOf b f
    testDevices (regSet (regSet s (fKey f 0xF0100) (testA s f r)) (fKey f 0xF0104) (testB f (rateCap s f) r)) f r) s
  islandBits (bothEnds s)

/-- The LPDDR channels live when self test ends (06 R119, R120). -/
def testLpddr (s : State) (b : BootReport) : State :=
  (upto 8).foldl (fun s f =>
    let r := reportOf b f
    let live := (upto 8).filter (fun c => lpLive s (8 * f + c))
    let l := live.length
    let kind := lpKind r
    let each := if kind.2 = 2 then 15864 else if kind.2 = 1 then 7928 else 0
    let s := { s with mem := { s.mem with liveCh := mapSet (fun _ => 0) s.mem.liveCh f ((live.map (2 ^ ·)).sum) } }
    regSet s (fKey f 0x20004)
      (BitVec.ofNat 32 (l * each * 2 ^ 14 + l * 2 ^ 10 + kind.2 % 4 * 2 ^ 8 + r.lpRate % 16 * 2 ^ 4 + kind.1 % 16))) s

/-- A stack that self test leaves fenced, with its island too, has no populated part (06 R115); RATE of such an ONFI channel is 0 (07). -/
def testHbm (s : State) : State :=
  let s := (upto 8).foldl (fun s f => if hbmLive s f then s else regSetFld s (fKey f 0x20000) 8 8 0) s
  (upto 32).foldl (fun s c => if onfiLive s c then s else regSetFld s (fKey (c / 4) (0x30000 + 4 * (c % 4))) 12 4 0) s

/-- The row that a number of the retired-row list names. -/
def rowOf (n : Nat) : RowId := ⟨n % 2 == 1, n / 2 % 64, n / 128⟩

/-- Listed rows (06 R124): those that hard repair fixes leave the list; LPDDR rows that it cannot fix are redirected again. A row
that has no place to go, and an HBM row, which has none, stays in service and counts as unrepaired (note 106). -/
def testRows (s : State) (fixed : List Nat) : State :=
  let left := s.nor.retired.filter (fun n => !fixed.contains n)
  left.foldl (fun s n =>
    let r := rowOf n
    let k := fKey (r.unit / 8) (0x20040 + 4 * (r.unit % 8))
    if r.hbm ∨ 4096 ≤ regFld s k 0 13 then rowUnrepaired s r
    else
      let s := { s with mem := { s.mem with retired := s.mem.retired ++ [r] } }
      bump (regSetFld s k 0 13 (regFld s k 0 13 + 1)) (fKey (r.unit / 8) 0x20020) 0 16 1)
    (if left = s.nor.retired then s else norKeep s { s.nor with retired := left })

/-! ## Controllers and image (02 R36, R37; 23 R508) -/

/-- The controller that the strap names (02 R36). -/
def strapped (s : State) : Side := if s.supply.straps.assaySel then .f4 else .f0

/-- A controller's ROM self check passes. -/
def romOk (b : BootReport) (x : Side) : Bool := match x with | .f0 => b.romF0 | .f4 => b.romF4

/-- A copy passes the three checks of R508. -/
def imageOk (s : State) (i : ImageCheck) : Bool := i.signatureOk && i.lengthOk && decide (s.mfg.minVersion.toNat ≤ i.version.toNat)

/-- The copy booted, and its version: the preferred one, else the other (R508). -/
def bootCopy (s : State) (b : BootReport) : Option (Bool × BitVec 16) :=
  let pick := fun (x : Bool) => if x then b.imgB else b.imgA
  let p := s.nor.preferB
  if imageOk s (pick p) then some (p, (pick p).version)
  else if imageOk s (pick (!p)) then some (!p, (pick (!p)).version) else none

/-- Identity registers, STR_SELF and the saved Chain gain (25 R542, 22 R476, 20 R442). -/
def fillIdentity (s : State) : State :=
  let st := s.supply.straps
  let s := regSet s 0x4 (BitVec.ofNat 32 (popN 64 s.mfg.fuse.toNat * 2 ^ 16 + s.mfg.stepping.toNat))
  let s := regSet (regSet s 0x8 (s.mfg.fuse.setWidth 32)) 0xC ((s.mfg.fuse >>> 32).setWidth 32)
  let s := regSet (regSet s 0x10 (s.mfg.serial.setWidth 32)) 0x14 ((s.mfg.serial >>> 32).setWidth 32)
  let n := match pkgNo s with | some n => n + 2 ^ 31 | none => 0
  let s := regSet s 0x70020 (BitVec.ofNat 32 (n + st.rackSlot.toNat * 2 ^ 24 + (if st.trayPos then 2 ^ 16 else 0)))
  regSet s (cKey 4) (BitVec.ofNat 32 (s.nor.gain.getD 0 % 32))

/-- The strapped controller, or the other when it lacks the set of R50; none: the package is dead (02 R37, R52). -/
def chooseActive (s : State) (x : Side) : Option Side :=
  if meetsR50 s x then some x else if meetsR50 s (otherSide x) then some (otherSide x) else none

/-- The package is dead from bring-up on (02 R52): identity is filled, and every port whose unit is live may train. -/
def bootDead (s : State) (c : DeadCause) : State := driveEnum { s with assay := { s.assay with dead := some c } }

/-- The cause of death when neither facet has the set of R50 (02 R52). -/
def deathCause (s : State) : DeadCause := if assayLive s 0 || assayLive s 4 then .noPair else .noController

/-- Self test and the choice of the active controller (R504 steps 5 and 6, R510; 02 R37, R46). A takeover is logged once the package
is ready: cause 2 when the ROM self check failed, else 1. -/
def selfTest (s : State) (b : BootReport) (x : Side) : State :=
  let s := testUnits s b
  let s := if romOk b .f0 then s else setUnit s 12 0
  let s := if romOk b .f4 then s else setUnit s 12 1
  let s := if b.standbyVerifies ∨ !romOk b x then s else setUnit s 12 (sideFacet (otherSide x) / 4)
  match chooseActive s x with
  | none =>
    bootDead (fillIdentity (testHbm (testLpddr s b))) (deathCause s)
  | some y =>
    let s := if y = x then s else setUnit s 12 (sideFacet x / 4)
    let s := fenceIsolated { s with assay := { s.assay with active := some y, takeover := decide (y ≠ x) } } (sideFacet y)
    let s := fillIdentity (testRows (testHbm (testLpddr s b)) b.fixedRows)
    let s := driveEnum { s with assay := { s.assay with ready := true } }
    if y = x then s else raise s 0 .assayTakeover 0xF (sideFacet y) 0xFF (sideFacet y / 4 + (if romOk b x then 1 else 2) * 2)

/-- Steps 2 to 6 of power-on (R504): PLL, ROM checks, image, self test. Without the 100 MHz reference nothing is presented
(02 R53). With both ROM checks failed no controller judges the image, so the cause is NO_CONTROLLER, whatever the copies hold
(note 143). -/
def bootUp (s : State) (b : BootReport) : State :=
  let s := { s with supply := { s.supply with refClock := b.refClock, crystal := b.crystal } }
  if !b.refClock then s
  else
    let s := { s with clk := { s.clk with locked := true } }
    if !b.crystal then bootDead s .noCrystal
    else
    let s := if b.romF0 || b.romF4 then norBootReads s (!imageOk s (if s.nor.preferB then b.imgB else b.imgA)) else s
    match bootCopy s b with
      | none => bootDead s (if b.romF0 || b.romF4 then .imageRejected else .noController)
      | some (copy, ver) => selfTest { s with assay := { s.assay with bootB := copy, imageVer := ver } } b (strapped s)

/-! ## PWR_GOOD (R504, R506) -/

/-- PWR_GOOD_RISE (R504): the straps are sampled and the power-on sequence runs. -/
def powerUp (s : State) (straps : Straps) (b : BootReport) : State :=
  if s.supply.powerGood then s
  else bootUp { loseAll s with supply := { s.supply with powerGood := true, straps := straps } } b

/-- PWR_GOOD_RISE (R504). -/
def execPwrGoodRise (straps : Straps) (boot : BootReport) (s : State) : Result := .next (powerUp s straps boot)

/-- PWR_GOOD falls (R506, 26 R567): outputs stop, and the latch of THERMTRIP# is released. -/
def powerDown (s : State) : State :=
  if !s.supply.powerGood then s
  else { loseAll s with supply := { s.supply with powerGood := false, thermtrip := false } }

/-- PWR_GOOD_FALL (R506). -/
def execPwrGoodFall (s : State) : Result := .next (powerDown s)

/-- Steps 2 to 6 run again without sampling the straps (R506). -/
def packageReset (s : State) (b : BootReport) : State := bootUp (loseAll s) b

/-! ## The owner's mailbox (R509, R525) -/

/-- Key of a mailbox register. -/
def mbxKey (off : Nat) : Nat := aKey (0xF0000 + off)

/-- The state with ASY_MBX_RESULT set. -/
def mbxResult (s : State) (st reason : Nat) : State := regSet s (mbxKey 0x14) (BitVec.ofNat 32 (st * 2 ^ 28 + reason * 2 ^ 24))

/-- A mailbox command is BUSY. -/
def mbxBusy (s : State) : Bool := decide (regFld s (mbxKey 0x14) 28 4 = 1)

/-- A command is refused with a reason the spec does not state: a free value. -/
def mbxRefuseOpen (s : State) : State := let (v, s) := draw s; mbxResult s 3 (v.toNat % 16)

/-- The package is dead and powered, with its 100 MHz reference. -/
def isDead (s : State) : Bool := s.assay.dead.isSome && s.supply.powerGood && s.supply.refClock && !s.supply.thermtrip

/-- The mailbox answers in a facet's window: the active controller's, or on a dead package the window of each port (R525). -/
def mbxAt (s : State) (f : Nat) : Bool :=
  if isDead s then decide (f = 0) || decide (f = 4) else alive s && decide (f = activeFacet s)

/-- PACKAGE_RESET is allowed in this state (R525). -/
def resetState (s : State) : Bool :=
  isDead s || decide (s.hmk.state = .empty) || decide (s.hmk.state = .opened) || decide (s.hmk.state = .held)

/-- ASY_MBX_ARG_LO is 0x0000_A5A5. -/
def resetArg (s : State) : Bool := decide (regGet s (mbxKey 8) = 0xA5A5#32)

/-- GO of PACKAGE_RESET (R525, Corners): refused with STATE; a wrong argument is refused with a reason the spec does not give; it
waits for a running image update. -/
def mbxReset (s : State) (b : BootReport) : State :=
  if mbxBusy s then
    if s.assay.updating ∧ resetState s ∧ resetArg s then { s with assay := { s.assay with resetWaits := true } } else s
  else if !resetState s then mbxResult s 3 2
  else if !resetArg s then mbxRefuseOpen s
  else packageReset s b

/-- PACKAGE_RESET (R506, R525). -/
def execPackageReset (facet : Nat) (boot : BootReport) (s : State) : Result :=
  .next (if mbxAt s facet then mbxReset (regSetFld s (mbxKey 4) 0 8 1) boot else s)

/-- GO of IMAGE_UPDATE (R509): the image is read under the owner's function; one longer than 8 MiB is refused. A dead
mailbox does not take it (R525), with a reason the spec does not give. -/
def mbxUpdate (s : State) : State :=
  if mbxBusy s then s
  else if isDead s then mbxRefuseOpen s
  else if 0x800000 < (regGet s (mbxKey 0x10)).toNat then mbxResult s 3 5
  else
    let s := mbxResult { s with assay := { s.assay with updating := true } } 1 0
    let fn : FnId := ⟨activeFacet s / 4, 0⟩
    if dmaOpen s fn then hostAsk s fn (pair (regGet s) (mbxKey 8)) (regGet s (mbxKey 0x10)).toNat else s

/-- IMAGE_UPDATE (R509). -/
def execImageUpdate (s : State) : Result :=
  .next (if mbxAt s (activeFacet s) then mbxUpdate (regSetFld s (mbxKey 4) 0 8 2) else s)

/-- Reason that refuses an image, 0 none (ASY_MBX_RESULT.REASON; R508's version check). -/
def imageReason (s : State) (r : ImageOutcome) : Nat :=
  match r with
  | .signature => 3 | .version => 4 | .length => 5 | .writeFail => 6 | .poison => 7
  | .written v => if v.toNat < s.mfg.minVersion.toNat then 4 else 0

/-- An image update ends (R509): on success the copy that was not booted is preferred. A waiting reset then runs (Corners). -/
def updateDone (s : State) (r : ImageOutcome) (b : BootReport) : State :=
  if !s.assay.updating then s
  else
    let why := imageReason s r
    let waits := s.assay.resetWaits
    let s := { s with assay := { s.assay with updating := false, resetWaits := false } }
    let s := hostBack s ⟨activeFacet s / 4, 0⟩ (pair (regGet s) (mbxKey 8)) (regGet s (mbxKey 0x10)).toNat
    let s := if why = 0 then mbxResult (norWrite { norImage s (!s.assay.bootB) with nor := { s.nor with preferB := !s.assay.bootB } } norBoot) 2 0
      else mbxResult (if why = 6 then norImage s (!s.assay.bootB) else s) 3 why
    if waits ∧ resetState s then packageReset s b else s

/-- IMAGE_UPDATE_DONE (R509). -/
def execImageUpdateDone (res : ImageOutcome) (boot : BootReport) (s : State) : Result :=
  .next (if alive s then updateDone s res boot else s)

/-! ## Heartbeats, crystal, thermal trip (02 R38; 26 R561, R567) -/

/-- HEARTBEAT (02 R38). -/
def execHeartbeat (s : State) : Result := .next (if alive s && s.assay.active.isSome then emit s .heartbeat else s)

/-- HEARTBEAT_TIMEOUT (02 R38): what is fenced with the controller brings an evaluation at once (06 R131). -/
def execHeartbeatTimeout (s : State) : Result := .next (if alive s then evalNow (controllerLost s 3) else s)

/-- CRYSTAL_LOSS (26 R561): requests complete with ASSAY_LOST, and the package is dead with NO_CRYSTAL, the lowest cause (02 R52). -/
def execCrystalLoss (s : State) : Result :=
  .next (if s.supply.powerGood then
      let s := { s with supply := { s.supply with crystal := false } }
      if alive s then goDead s .noCrystal
      else if isDead s then { s with assay := { s.assay with dead := some .noCrystal } } else s
    else s)

/-- THERMTRIP# asserts and latches; every output stops, the ports' transmitters too (26 R567). -/
def thermTrip (s : State) : State :=
  if !s.supply.powerGood || s.supply.thermtrip then s
  else
    let s := driveEnum { s with supply := { s.supply with thermtrip := true } }
    emit { s with ports := (s.ports.filter (fun p => p.2.perst)).map (fun p => (p.1, { portReset with perst := true })) } .thermtrip

/-- THERMTRIP (26 R567). -/
def execThermtrip (s : State) : Result := .next (thermTrip s)

/-! ## The TAP (26 R563, 23 R521) -/

/-- What the instruction in the TAP does now. -/
def tapAct (s : State) : TapAct :=
  let pinsFree := s.supply.powerGood && (s.assay.dead.isSome || decide (s.hmk.state = .empty))
  match s.supply.tap.toNat with
  | 0 => if pinsFree then .extest else .bypass
  | 1 => .idcode (BitVec.ofNat 32 (0x0F8101D3 + s.mfg.stepping.toNat / 16 * 2 ^ 28))
  | 2 => .sample
  | 3 => if pinsFree then .clamp else .bypass
  | 4 => if s.supply.powerGood then .highz else .bypass
  | _ => .bypass

/-- Bits of the data register that an instruction puts between TDI and TDO (IEEE 1149.1). -/
def tapBits : TapAct → Nat
  | .extest | .sample => boundaryBits
  | .idcode _ => 32
  | .clamp | .highz | .bypass => 1

/-- JTAG_INSTRUCTION (26 R563): the instruction register takes the code, and the instruction acts. -/
def execJtagInstruction (code : Byte) (s : State) : Result :=
  let s := { s with supply := { s.supply with tap := code } }
  .next (emit s (.tap (tapAct s) (tapBits (tapAct s))))

end Sys2Proof.Machine
end

