-- ==== Sys2Proof/Machine/ChainSignal.lean ====
section
/-! DEFINITION. ChainSignal: gain, noise, levels, lost sync, bus idle and legacy characters (20 R441 to R450). -/
namespace Sys2Proof.Machine

/-! ## Gain and levels (R441, R442) -/

/-- A write of CHN_RXGAIN: the code waits for idle, and with SAVE it is then kept in the SPI NOR too. -/
def gainWrite (s : State) (w : Word) : State := setChain s { s.chain with gain := some (min (fld w 0 5) 30, bitOf w 31) }

/-- VALID and COUNT clear in every CHN_LEVEL entry. -/
def clearLevels (s : State) : State :=
  (upto 128).foldl (fun s a => regSet s (cKey (0x400 + 4 * a)) (setFld (setBit (regGet s (cKey (0x400 + 4 * a))) 31 false) 0 8 0)) s

/-- A gain code takes effect (R442): traffic has not been followed since (R444). -/
def applyGain (s : State) : State :=
  match s.chain.gain with
  | none => s
  | some (g, save) =>
    let s := setChain (clearLevels (regSetFld s (cKey 4) 0 5 g)) { s.chain with gain := none, follows := false }
    if save then norKeep s { s.nor with gain := some g } else s

/-- CHN_RXGAIN_APPLY (R442). -/
def execChnRxgainApply (s : State) : Result := .next (if alive s then applyGain s else s)

/-- Records the levels of a frame by its source, and its clipping (R441). -/
def recordLevel (s : State) (src : Nat) (lv : Level) : State :=
  let s := if lv.clip then bump s (cKey 0xC) 0 16 1 else s
  if src = 0 ∨ 128 ≤ src then s
  else
    let k := cKey (0x400 + 4 * src)
    let n := satAdd 8 (regFld s k 0 8) 1
    regSet s k (BitVec.ofNat 32 (2 ^ 31 + (if lv.clip then 2 ^ 30 else 0) + lv.rssi.toNat * 2 ^ 16 + min lv.snr 160 * 2 ^ 8 + n))

/-- NOISE_MEASUREMENT (R441). -/
def execNoiseMeasurement (noise : Byte) (s : State) : Result :=
  .next (if alive s then regSet s (cKey 8) (BitVec.ofNat 32 noise.toNat) else s)

/-- NOISE_STALE (Corners): the last value stays. -/
def execNoiseStale (s : State) : Result := .next (if alive s then regSetFld s (cKey 8) 31 1 1 else s)

/-! ## Footing on the bus (R444) -/

/-- A frame without a sync word is abandoned and counted; its receiver waits for the 24-bit idle. -/
def syncMiss (s : State) : State :=
  if s.chain.lost then s
  else setChain (bump s (cKey 0xC) 16 16 1) { s.chain with follows := false, lost := true, idle := false }

/-- SYNC_MISS (R444). -/
def execSyncMiss (s : State) : Result := .next (if alive s then syncMiss s else s)

/-- No carrier for 24 bit times: the receiver has its footing, and BUS_STUCK clears (R444, 21 R464). -/
def busIdle (s : State) : State :=
  setChain (regSetFld s (cKey 0x24) 30 1 0) { s.chain with follows := true, lost := false, idle := true }

/-- BUS_IDLE (R444). -/
def execBusIdle (s : State) : Result := .next (if alive s then busIdle s else s)

/-! ## A frame from the wire (R433, R436, R437; 21 R451 to R453) -/

/-- The fields of a frame whose OOK bits and data bits are these: none where the start of frame is not dominant, the identifier or a
claim serial is short, the length code is 15, the length differs, or the CRC-24 fails. -/
def parseFrame (head data : List Bool) (lv : Level) : Option ChainFrame :=
  let ident := bitsNat (slice head 1 16)
  let claim := decide (nfld ident 7 6 = 2)
  if head.getD 0 true || decide (head.length < if claim then 81 else 17) then none
  else match codeLength (bitsNat (data.take 4)) with
    | none => none
    | some n =>
      let payload := octets n (data.drop 4)
      let serial := if claim then some (bitsNat (slice head 17 64)) else none
      if data.length = 28 + 8 * n ∧ bitsNat (data.drop (4 + 8 * n)) = (frameCrc ident serial payload).toNat then
        some ⟨nfld ident 7 6, nfld ident 0 7, payload, lv⟩
      else none

/-- A frame as it is read from the wire; none where its sync word is not accepted or it is no valid frame. -/
def readFrame (h : FrameHeard) : Option ChainFrame :=
  match syncRate h.sync with
  | none => none
  | some rate4 =>
    match readSymbols rate4 h.offsets with
    | none => none
    | some data => parseFrame (ookBits h.ticks) data h.level

/-! ## Characters (R445 to R450) -/

/-- Character mode is on. -/
def charOn (s : State) : Bool := bitOf (regGet s (cKey 0x10)) 31

/-- The stop bit fails (R446, R447): an onset before tick 8, or a sample taken before the onset that is not 1. -/
def stopFails (c : CharSeen) : Bool :=
  match charOnset c with
  | some t => if t < 8 then true else if t < 10 then !(stopOne c 7 && stopOne c 8) else !(stopOne c 7 && stopOne c 8 && stopOne c 9)
  | none => !(stopOne c 7 && stopOne c 8 && stopOne c 9)

/-- A character was decoded (R445 to R449). -/
def charSeen (s : State) (c : CharSeen) : State :=
  let s := setChain s { s.chain with idle := false }
  if !startZero c then s
  else if c.inFrame then bump s (cKey 0x1C) 0 8 1
  else if 64 ≤ s.chain.rx.length then bump s (cKey 0x1C) 8 8 1
  else
    let fe := stopFails c
    let s := if fe then bump s (cKey 0x1C) 24 8 1 else s
    setChain s { s.chain with rx := s.chain.rx ++ [(fe, charData c)] }

/-- CHARACTER_RECEIVED (R446). -/
def execCharacterReceived (c : CharSeen) (s : State) : Result := .next (if alive s && charOn s then charSeen s c else s)

/-- The character at the head of the FIFO is sent, or stopped by a collision (R450). -/
def charSend (s : State) (collided : Bool) : State :=
  match s.chain.tx with
  | [] => s
  | b :: rest =>
    if collided then setChain (bump s (cKey 0x1C) 16 8 1) { s.chain with idle := false }
    else emit (setChain s { s.chain with tx := rest, idle := s.chain.idle && !rest.isEmpty }) (.character b)

/-- CHARACTER_SEND (R450). -/
def execCharacterSend (collided : Bool) (s : State) : Result :=
  .next (if alive s && charOn s && s.chain.idle && s.chain.sending.isNone && !txCut s then charSend s collided else s)

/-- A character is queued unless the FIFO is full. -/
def charQueue (s : State) (b : Byte) : State :=
  if 64 ≤ s.chain.tx.length then s else setChain s { s.chain with tx := s.chain.tx ++ [b] }

/-- ABORT empties the transmit FIFO (R450). -/
def charAbort (s : State) : State := setChain s { s.chain with tx := [] }

/-- CHN_CHAR_TX_DATA (R450). -/
def execChnCharTxData (b : Byte) (s : State) : Result := .next (if alive s then charQueue s b else s)

/-- CHN_CHAR_TX_ABORT (R450). -/
def execChnCharTxAbort (s : State) : Result := .next (if alive s then charAbort s else s)

/-- A write of CHN_CHAR_TX: ABORT, or a character. -/
def charTxWrite (s : State) (w : Word) : State :=
  if bitOf w 31 then charAbort s else charQueue s (BitVec.ofNat 8 (fld w 0 8))

/-- A write of CHN_CHAR_CFG: BAUD takes the nearer limit; clearing ENABLE empties both FIFOs (Corners). -/
def charCfgWrite (s : State) (w : Word) : State :=
  let b := max 9600 (min 115200 (fld w 0 17))
  let s := regSet s (cKey 0x10) (BitVec.ofNat 32 ((if bitOf w 31 then 2 ^ 31 else 0) + b))
  if bitOf w 31 then s else setChain s { s.chain with rx := [], tx := [] }

/-- What a read of CHN_CHAR_RX returns. -/
def charHead (s : State) : Word :=
  match s.chain.rx with
  | [] => 0#32
  | (fe, b) :: _ => BitVec.ofNat 32 (2 ^ 31 + (if fe then 256 else 0) + b.toNat)

/-- A read of CHN_CHAR_RX removes the head of the receive FIFO (R445). -/
def charPop (s : State) : State := setChain s { s.chain with rx := s.chain.rx.drop 1 }

/-- CHN_CHAR_RX_READ (R445): the owner's function of a port reads the register in the active controller's window. -/
def execChnCharRxRead (port : Nat) (s : State) : Result :=
  .next (if alive s && linkOpen s port && decide (port < 2) then
      emit (charPop s) (.regValue ⟨port, 0⟩ 0 (fKey (activeFacet s) 0xD0014) (charHead s))
    else s)

end Sys2Proof.Machine
end

