-- ==== Sys2Proof/Machine/ChainMsg.lean ====
section
/-! DEFINITION. ChainMsg: sending with arbitration and retry, the watchdog, enumeration, the roster, and the buffers (21). -/
namespace Sys2Proof.Machine

/-! ## Sending (R456 to R463) -/

/-- An attempt starts (R456, R460): each after the first counts in RETRY and in TRIES. -/
def attemptStart (s : State) : State :=
  if s.chain.sending.isSome || !s.chain.follows || txCut s then s
  else match bestPending s with
    | none => s
    | some p =>
      let s := setPending s { p with tries := p.tries + 1 }
      let s := if p.tries = 0 then s else bump s (cKey 0x38) 16 16 1
      let s := match p.use with | .owner b => regSet s (txbKey b + 4) (BitVec.ofNat 32 (min (p.tries + 1) 0xFFFFFFFF)) | _ => s
      showTx (setChain s { s.chain with sending := some p.use, idle := false }) p.use 2

/-- The frame under way leaves with its data phase (R451). -/
def sendFrame (s : State) (u : ChainUse) : State := emit s (wireFrame s u)

/-- The frame under way was acknowledged (R459): a CLAIM then waits for its ASSIGN (R467). -/
def attemptDone (s : State) (u : ChainUse) : State :=
  let s := showTx (dropPending (sendFrame s u) u) u 3
  setChain s { s.chain with sending := none, claimWait := s.chain.claimWait || u == .claim }

/-- An attempt starts, or the one under way ends (R457, R459): it lost when it sampled a dominant bit where it sent a recessive one, and
is acknowledged when the majority of the slot's samples is dominant; a step that ends an attempt starts it first when none is under way. -/
def txAttempt (s : State) (stp : TxStep) : State :=
  let s := attemptStart s
  match s.chain.sending, stp with
  | none, _ => s
  | some _, .start => s
  | some u, .run heard slot =>
    if lostArb (pendingHead s u) (ookBits heard) then attemptFailed (bump s (cKey 0x38) 0 16 1) false
    else if bitAt slot 0 then attemptFailed (sendFrame s u) true
    else attemptDone s u

/-- CHAIN_TX_ATTEMPT (R456). -/
def execChainTxAttempt (stp : TxStep) (s : State) : Result := .next (if alive s then txAttempt s stp else s)

/-- The transmitter is cut (R464): the attempt under way fails, and nothing is sent until CLEAR_CUT. -/
def cutTx (s : State) : State :=
  if txCut s then s
  else chainEvent (attemptFailed (regSetFld s (cKey 0x24) 31 1 1) false) .chainTxCut 0

/-- CHAIN_TX_CUT (R464). -/
def execChainTxCut (s : State) : Result := .next (if alive s then cutTx s else s)

/-- Foreign carrier for 2 ms (R464): reported once. -/
def busStuck (s : State) : State :=
  if bitOf (regGet s (cKey 0x24)) 30 || s.chain.sending.isSome then s
  else
    let s := regSetFld s (cKey 0x24) 30 1 1
    chainEvent (setChain s { s.chain with idle := false }) .chainBusStuck 0

/-- CHAIN_BUS_STUCK (R464). -/
def execChainBusStuck (s : State) : Result := .next (if alive s then busStuck s else s)

/-- CLEAR_CUT (R464). -/
def clearCut (s : State) : State := regSetFld s (cKey 0x24) 31 1 0

/-- CLEAR_CUT (R464). -/
def execClearCut (s : State) : Result := .next (if alive s then clearCut s else s)

/-! ## Transmit buffers (R462, R472) -/

/-- A payload length of Table - Length codes (R452). -/
def lenOk (n : Nat) : Bool := decide (n ≤ 8) || [12, 16, 24, 32, 48, 64].contains n

/-- The F8R refuses the frame of a transmit buffer (R472). -/
def txbRefused (s : State) (b : Nat) : Bool :=
  let w := regGet s (txbKey b)
  let t := fld w 16 6
  let n := fld w 0 7
  let d := regFld s (txbKey b + 0x40) 0 8
  decide (fld w 24 3 < 4) || decide (t < 0x20) || !lenOk n || decide (chainAddr s = 0) ||
  (decide (0x30 ≤ t) && (decide (n = 0) || decide (d % 128 = 0) || decide (128 ≤ d)))

/-- A write of a transmit buffer's control word (R462, R472, Corners): WITHDRAW first, then the fields, then GO. -/
def txbWrite (s : State) (b : Nat) (w : Word) : State :=
  let s := if bitOf w 30 then withdraw s (.owner b) else s
  let s := regSet s (txbKey b) ((regGet s (txbKey b) &&& 0xF00#32) ||| (w &&& 0x73F007F#32))
  let st := regFld s (txbKey b) 8 4
  if !bitOf w 31 || decide (st = 1) || decide (st = 2) then s
  else if txbRefused s b then regSetFld s (txbKey b) 8 4 5
  else addPending (regSet s (txbKey b + 4) 0#32) (.owner b)

/-- CHN_TXB_GO (R472). -/
def execChnTxbGo (buf : Nat) (w : Word) (s : State) : Result :=
  .next (if alive s && decide (buf < 4) then txbWrite s buf (setBit w 31 true) else s)

/-- CHN_TXB_WITHDRAW (R462). -/
def execChnTxbWithdraw (buf : Nat) (w : Word) (s : State) : Result :=
  .next (if alive s && decide (buf < 4) then txbWrite s buf (setBit w 30 true) else s)

/-! ## Receive buffers (R473 to R475) -/

/-- Sixteen payload words with the first bytes replaced. -/
def setPayload (s : State) (key : Nat) (d : List Byte) : State :=
  let old := payloadAt s key 64
  let new := d ++ old.drop d.length
  (upto 16).foldl (fun s w => regSet s (key + 4 * w) (BitVec.ofNat 32 (rdLe new (4 * w) 4))) s

/-- A frame is written into a buffer (R473, R474) and reported (R475). -/
def bufferFrame (s : State) (b : Nat) (fr : ChainFrame) : State :=
  let k := rxbKey b + 4
  let old := regGet s k
  let seq := (fld old 16 8 + 1) % 256
  let s := setPayload s (rxbKey b + 0x40) fr.payload
  let s := regSet s (rxbKey b + 8) (BitVec.ofNat 32 s.clk.grains.toNat)
  let s := regSet s (rxbKey b + 0xC) (BitVec.ofNat 32 (s.clk.grains.toNat / 2 ^ 32))
  let overBit := if bitOf old 31 || bitOf old 30 then 2 ^ 30 else 0
  let s := regSet s k (BitVec.ofNat 32 (2 ^ 31 + overBit + fr.typ % 64 * 2 ^ 24 + seq * 2 ^ 16 + fr.src % 128 * 2 ^ 8 + fr.payload.length % 128))
  chainEvent s .chainRx (b + seq * 2 ^ 8)

/-- The buffer bound to a type: the lowest-numbered valid one (R473). -/
def boundBuffer (s : State) (t : Nat) : Option Nat :=
  (upto 16).find? (fun b => bitOf (regGet s (rxbKey b)) 31 && decide (regFld s (rxbKey b) 16 6 = t))

/-- An application frame that was taken is delivered (R473). -/
def deliverApp (s : State) (fr : ChainFrame) : State :=
  match boundBuffer s fr.typ with
  | some b => bufferFrame s b fr
  | none => bump s (cKey 0x34) 0 8 1

/-- A write of a buffer's status word clears NEW and OVERWRITE only with the current SEQ (R475). -/
def rxbClear (s : State) (b : Nat) (w : Word) : State :=
  let k := rxbKey b + 4
  if fld w 16 8 = regFld s k 16 8 then regSet s k (regGet s k &&& ~~~(w &&& 0xC0000000#32)) else s

/-- CHN_RXB_STATUS_CLEAR (R475). -/
def execChnRxbStatusClear (buf : Nat) (w : Word) (s : State) : Result :=
  .next (if alive s && decide (buf ≤ 16) then rxbClear s buf w else s)

/-! ## Frames that arrive (R458, R469 to R471) -/

/-- A node of the roster, or one that is exempt (R469). -/
def inRoster (s : State) (a : Nat) : Bool := decide (a = 1) || bitOf (forceGet s (cKey (0x40 + 4 * (a / 32)))) (a % 32)

/-- The source may send the type (R470). -/
def sourceOk (s : State) (fr : ChainFrame) : Bool :=
  if fr.typ = 1 ∨ fr.typ = 3 ∨ fr.typ = 4 then decide (fr.src = 1)
  else if fr.typ = 2 then decide (fr.src = 0)
  else decide (fr.typ = 5 ∨ 0x20 ≤ fr.typ) && decide (fr.src ≠ 0) && inRoster s fr.src

/-- The length is the table's (R470). -/
def lengthOk (fr : ChainFrame) : Bool :=
  let n := fr.payload.length
  match fr.typ with
  | 1 => n == 1 | 2 => n == 0 | 3 => n == 12 | 4 => n == 16 | 5 => n == 8
  | t => if 0x30 ≤ t then decide (1 ≤ n) else true

/-- Reserved bits of ENUM_START and ASSIGN are 0 (R470). -/
def reservedOk (fr : ChainFrame) : Bool :=
  match fr.typ with
  | 1 => decide (rdB fr.payload 0 < 4)
  | 3 => decide (rdB fr.payload 8 < 128) && zeroAt fr.payload 9 3
  | _ => true

/-- A frame is foreign (R469, R470). -/
def isForeign (s : State) (fr : ChainFrame) : Bool := !sourceOk s fr || !lengthOk fr || !reservedOk fr

/-- The F8R takes a frame (R455, R458, R471): a CLAIM never; enumeration always; any other only while SEALED with an address,
and an addressed one only when DEST is that address. -/
def takes (s : State) (fr : ChainFrame) : Bool :=
  if isForeign s fr || decide (fr.typ = 2) then false
  else if fr.typ = 1 ∨ fr.typ = 3 then true
  else isSealedNow s && decide (chainAddr s ≠ 0) &&
    (!(decide (fr.typ = 4) || decide (0x30 ≤ fr.typ)) || decide (rdB fr.payload 0 % 128 = chainAddr s))

/-- An ENUM_START is obeyed (R465, R467). -/
def enumStart (s : State) (p : List Byte) : State :=
  let s := regSetFld s (cKey 0x20) 8 1 (rdB p 0 % 2)
  let s := if nbit (rdB p 0) 1 then setAddress s 0 else s
  settleClaim (setChain s { s.chain with claiming := true, claimWait := false })

/-- An ASSIGN (R468): the package serial and an address from 2 to 127; any other is ignored. -/
def assign (s : State) (p : List Byte) : State :=
  let a := rdB p 8
  if beNat (slice p 0 8) ≠ s.mfg.serial.toNat ∨ a < 2 ∨ 127 < a then s
  else
    let s := setAddress s a
    let s := settleClaim (setChain s { s.chain with claiming := false, claimWait := false })
    chainEvent s .chainAddress a

/-- What a frame that was taken does (R458, R473; 22 R486, R497). -/
def actOn (s : State) (fr : ChainFrame) : State :=
  match fr.typ with
  | 1 => enumStart s fr.payload
  | 3 => assign s fr.payload
  | 4 => capJudge s fr.payload
  | 5 => s
  | _ => deliverApp s fr

/-- A foreign frame counts, and goes to the foreign buffer when that is enabled (R469). -/
def foreignFrame (s : State) (fr : ChainFrame) : State :=
  let s := bump s (cKey 0x30) 0 32 1
  if bitOf (regGet s (cKey 0x2C)) 0 then bufferFrame s 16 fr else s

/-- The frame receiver can hear a frame: it has its footing and sends none itself. -/
def hears (s : State) : Bool := alive s && !s.chain.lost && s.chain.sending.isNone

/-- A frame with a good CRC ends (20 R441, R444; 21 R458): its levels are recorded; one that is taken is acknowledged,
unless the transmitter is cut (R464), and acted on. -/
def frameIn (s : State) (fr : ChainFrame) : State :=
  let s := recordLevel s fr.src fr.level
  let s := setChain s { s.chain with follows := true, idle := false }
  if takes s fr then actOn (if txCut s then s else emit s .chainAck) fr
  else if isForeign s fr then foreignFrame s fr
  else s

/-- A frame arrives when it reads as a valid frame, the receiver hears it, and it is the one the command names. -/
def chainArrives (s : State) (h : FrameHeard) (fits : ChainFrame → Bool) : State :=
  match readFrame h with
  | none => s
  | some fr => if hears s && fits fr then frameIn s fr else s

/-- ENUM_START (R467). -/
def execEnumStart (frame : FrameHeard) (s : State) : Result := .next (chainArrives s frame (fun fr => fr.typ == 1))
/-- ASSIGN (R468). -/
def execAssignFrame (frame : FrameHeard) (s : State) : Result := .next (chainArrives s frame (fun fr => fr.typ == 3))
/-- CAP (22 R486). -/
def execCapFrame (frame : FrameHeard) (s : State) : Result := .next (chainArrives s frame (fun fr => fr.typ == 4))
/-- DEPART (22 R497). -/
def execDepartFrame (frame : FrameHeard) (s : State) : Result := .next (chainArrives s frame (fun fr => fr.typ == 5))
/-- APPLICATION_FRAME (R473). -/
def execApplicationFrame (frame : FrameHeard) (s : State) : Result := .next (chainArrives s frame (fun fr => decide (0x20 ≤ fr.typ)))
/-- FOREIGN_FRAME (R469). -/
def execForeignFrame (frame : FrameHeard) (s : State) : Result := .next (chainArrives s frame (isForeign s))

/-- A frame whose sync word was accepted is not taken (20 R441; 21 R452, R458): its levels are recorded and its error counts. -/
def notTaken (s : State) (src : Nat) (lv : Level) (why : NotTaken) : State :=
  let s := recordLevel s src lv
  let s := setChain s { s.chain with follows := true, idle := false }
  match why with
  | .crc => bump s (cKey 0x34) 16 16 1
  | .form => bump s (cKey 0x34) 8 8 1
  | .other => s

/-- CHAIN_FRAME_NOT_TAKEN (20 R441). -/
def execChainFrameNotTaken (src : Nat) (level : Level) (why : NotTaken) (s : State) : Result :=
  .next (if hears s then notTaken s src level why else s)

/-! ## Enumeration (R466, R467) -/

/-- CLAIM_RESEND (R467): no ASSIGN came for a CLAIM that succeeded. -/
def execClaimResend (s : State) : Result :=
  .next (if alive s && s.chain.claimWait && claims s then settleClaim (setChain s { s.chain with claimWait := false }) else s)

/-- ENUM_IN changes (R466, R467, 02 R54). -/
def enumInChange (s : State) (v : Bool) : State :=
  let s := driveEnum (regSetFld s (cKey 0x20) 17 1 (if v then 1 else 0))
  if alive s then settleClaim s else s

/-- ENUM_IN_CHANGE (R466). -/
def execEnumInChange (level : Bool) (s : State) : Result := .next (if s.supply.powerGood && !s.supply.thermtrip then enumInChange s level else s)

end Sys2Proof.Machine
end

