-- ==== Sys2Proof/Machine/Fabric.lean ====
section
/-! DEFINITION. Fabric: distances and routes, loading and activating a schedule, and the scheduled flits (04). -/
namespace Sys2Proof.Machine

/-! ## Distance (04 R75, R76) -/

/-- Unloaded latency of a 64-byte read at d hops in tenths of a nanosecond; `express` for the unfenced four-hop route. -/
def latencyL0 (d : Nat) (express : Bool) : Nat :=
  if d = 0 then 400 else if d = 4 ∧ express then 1800 else 450 + 450 * d

/-- Per-partition bandwidth in GB/s at d hops. -/
def bandwidthB (d : Nat) : Nat := match d with | 0 => 512 | 1 => 128 | 2 => 64 | _ => 32

/-- Arbitration points on the round trip. -/
def arbPoints (d : Nat) (express : Bool) : Nat := if d = 4 ∧ express then 6 else 2 * (d + 1)

/-- Per-point wait bound in FCLK cycles (04 Table - Per-point wait bound): G the longest scheduled run, k the inputs, and
s the scheduled grains per frame of the port, so that alpha is (128 - s) / 128. -/
def waitBound (vc g k s : Nat) : Nat :=
  let c := match vc with | 0 => 400 | 1 => 3400 | 2 => 9067 | _ => 27200
  16 * g + (c * k * 128 + 100 * (128 - s) - 1) / (100 * (128 - s))

/-- Lane of an arbitrated route: A when the sum of the port numbers is even (04 R74). -/
def laneA (src dst : Nat) : Bool := (src + dst) % 2 == 0

/-- Facets from a to b on the unfenced route, a left out: along the row first, then between the rows (04 R74). -/
def rowFirst : Nat → Nat → Nat → List Nat
  | 0, _, _ => []
  | n + 1, a, b =>
    let c := if a % 4 < b % 4 then a + 1 else if b % 4 < a % 4 then a - 1 else if a < b then a + 4 else a - 4
    if a = b then [] else c :: rowFirst n c b

/-- Every link of a path from a facet is live, and so is every facet on it. -/
def pathLive (s : State) : Nat → List Nat → Bool
  | _, [] => true
  | a, b :: rest => fabricLive s b && linkLive s a (dirTo a b) && linkLive s b (dirTo b a) && pathLive s b rest

/-- Hops of the shortest path from a to b over live links (04 R74); none when no path is left. -/
def liveHops (s : State) (a b : Nat) : Option Nat := (upto 8).find? (fun n => (spread s n [b]).contains a)

/-- The shortest path that avoids every fenced link (04 R74); of several, the one through the lowest facet at each hop (note 139). -/
def detour (s : State) : Nat → Nat → Nat → Option (List Nat)
  | 0, a, b => if a = b then some [] else none
  | n + 1, a, b =>
    if a = b then some []
    else match (upto 8).find? (fun c => (upto 4).any (fun d => linkLive s a d && neighbour a d == some c) && liveHops s c b == some n) with
      | some c => (detour s n c b).map (fun l => c :: l)
      | none => none

/-- The route of arbitrated traffic between two facets as the fences stand: row first, or the shortest detour (04 R74). -/
def fabricRoute (s : State) (a b : Nat) : Option (List Nat) :=
  if pathLive s a (rowFirst 4 a b) then some (rowFirst 4 a b)
  else match liveHops s a b with
    | some n => detour s n a b
    | none => none

/-- The link ports that arbitrated traffic from a source port to a destination port leaves by, as (facet, port): the same lane of
each link (04 R74). -/
def routePorts (s : State) (src dst : Nat × Nat) : Option (List (Nat × Nat)) :=
  (fabricRoute s src.1 dst.1).map (fun l =>
    ((src.1 :: l).zip l).map (fun x => (x.1, 31 + 2 * dirTo x.1 x.2 + (if laneA src.2 dst.2 then 0 else 1))))

/-- Hops, per-partition bandwidth, unloaded latency and arbitration points of the route between two facets (04 R75 to R77): a
four-hop route uses the express path only while it is the unfenced one. -/
def routeClass (s : State) (a b : Nat) : Option (Nat × Nat × Nat × Nat) :=
  (fabricRoute s a b).map (fun l =>
    let d := l.length
    let express := l == rowFirst 4 a b
    (d, bandwidthB d, latencyL0 d express, arbPoints d express))

/-! ## The schedule blob (04 R85) -/

/-- Flow count of a blob. -/
def blobFlows (b : List Byte) : Nat := rdLe b 6 2

/-- Port records of a blob. -/
def blobPorts (b : List Byte) : Nat := rdLe b 8 2

/-- Bytes of flow entry i. -/
def flowEntry (b : List Byte) (i : Nat) : List Byte := slice b (64 + 16 * i) 16

/-- Bytes of port record i. -/
def portRecord (b : List Byte) (i : Nat) : List Byte := slice b (64 + 16 * blobFlows b + 272 * i) 272

/-- Facet and port in a two-byte field. -/
def facetPort (v : Nat) : Nat × Nat := (nfld v 6 3, nfld v 0 6)

/-- Facet and port of a record. -/
def recPort (r : List Byte) : Nat × Nat := facetPort (rdLe r 0 2)

/-- Grain g of a record: scheduled, and its flow. -/
def recGrain (r : List Byte) (g : Nat) : Bool × Nat := let v := rdLe r (16 + 2 * g) 2; (nbit v 15, nfld v 0 12)

/-- Grains of a record that a flow owns, ascending. -/
def grainsOfFlow (r : List Byte) (flow : Nat) : List Nat := (upto 128).filter (fun g => recGrain r g == (true, flow))

/-- Scheduled grains of a record, ascending. -/
def schedGrains (r : List Byte) : List Nat := (upto 128).filter (fun g => (recGrain r g).1)

/-- Five consecutive scheduled grains start somewhere, grain 127 followed by grain 0 (04 R86). -/
def runTooLong (gs : List Nat) : Bool := gs.any (fun g => (rangeFrom 1 4).all (fun i => gs.contains ((g + i) % 128)))

/-- A port exists on a facet (04 Table - Crossbar ports). -/
def portExists (f p : Nat) : Bool :=
  if p = 29 ∨ p = 30 then f % 4 == 0
  else if p ≤ 28 then true
  else if p ≤ 38 then (neighbour f ((p - 31) / 2)).isSome
  else false

/-- A port's unit or link is live (04 R70, 02 R47). A port that serves several units counts as fenced once every one of them is
(note 140). -/
def portLive (s : State) (f p : Nat) : Bool :=
  fabricLive s f &&
  (if p < 8 then partLive s (8 * f + p)
   else if p < 24 then sliceLive s (16 * f + (p - 8))
   else if p = 24 then (upto 6).any (engineLive s f)
   else if p = 25 then hbmLive s f
   else if p = 26 then (upto 8).any (fun c => lpLive s (8 * f + c))
   else if p = 27 then (upto 4).any (fun c => onfiLive s (4 * f + c))
   else if p = 28 then (upto 2).any (fun l => laneLive s (2 * f + l))
   else if p = 29 then hostLive s f
   else if p = 30 then assayLive s f
   else linkLive s f ((p - 31) / 2))

/-- Every reserved field of a port record is 0 (04 R85). -/
def recordReservedOk (r : List Byte) : Bool :=
  nfld (rdLe r 0 2) 9 7 == 0 && zeroAt r 2 14 &&
  (upto 128).all (fun g => let v := rdLe r (16 + 2 * g) 2; nfld v 12 3 == 0 && (nbit v 15 || v == 0))

/-- Every reserved field of a blob's header and flow table is 0 (04 R85). -/
def headReservedOk (b : List Byte) : Bool :=
  zeroAt b 10 2 && zeroAt b 28 36 &&
  (upto (blobFlows b)).all (fun i => let e := flowEntry b i
    nfld (rdLe e 0 2) 12 4 == 0 && rdB e 3 == 0 && nfld (rdLe e 4 2) 9 7 == 0 && nfld (rdLe e 6 2) 9 7 == 0 && zeroAt e 10 6)

/-- Index of the first record that fails a check. -/
def firstBad (n : Nat) (bad : Nat → Bool) : Option Nat := (upto n).find? bad

/-- The route of a flow from a facet: at each facet the one output port the flow owns, following links, until the
destination port; at most n facets. The list of (record index) in order. -/
def flowRoute (b : List Byte) (flow : Nat) (dst : Nat × Nat) : Nat → Nat → Option (List Nat)
  | 0, _ => none
  | n + 1, f =>
    match (upto (blobPorts b)).filter (fun i => (recPort (portRecord b i)).1 == f && !(grainsOfFlow (portRecord b i) flow).isEmpty) with
    | [i] =>
      let p := (recPort (portRecord b i)).2
      if (f, p) = dst then some [i]
      else if 31 ≤ p then
        match neighbour f ((p - 31) / 2) with
        | some g => (flowRoute b flow dst n g).map (fun l => i :: l)
        | none => none
      else none
    | _ => none

/-- The grains at the next port, matched in order from some rotation, each lie at least `least` grains later (04 R86). -/
def offsetsOk (least : Nat) (a b : List Nat) : Bool :=
  (upto a.length).any (fun k => (upto a.length).all (fun i =>
    decide (least ≤ (b.getD ((i + k) % a.length) 0 + 128 - a.getD i 0) % 128)))

/-- Least offset between two ports of a route: 1 grain on one facet, 3 across a die-to-die link (04 R86). -/
def leastOffset (b : List Byte) (i j : Nat) : Nat :=
  if (recPort (portRecord b i)).1 = (recPort (portRecord b j)).1 then 1 else 3

/-- The first port record along a route whose grains come too soon after those of the port before it (04 R86). -/
def shortOffset (b : List Byte) (flow : Nat) : List Nat → Option Nat
  | i :: j :: rest =>
    if offsetsOk (leastOffset b i j) (grainsOfFlow (portRecord b i) flow) (grainsOfFlow (portRecord b j) flow) then
      shortOffset b flow (j :: rest)
    else some j
  | _ => none

/-- Grains that the records up to i schedule at the port of record i, over all of those records (04 R81, R86: the limits are a port's,
whatever the number of its records). A grain that two records give away counts twice. -/
def portGrains (b : List Byte) (i : Nat) : List Nat :=
  ((upto (i + 1)).filter (fun j => recPort (portRecord b j) == recPort (portRecord b i))).flatMap (fun j => schedGrains (portRecord b j))

/-- The port of record i breaks a limit: more than 96 scheduled grains, a run of more than 4, or a grain given twice (04 R82,
R86; note 10). -/
def portOverLimit (b : List Byte) (i : Nat) : Bool :=
  let gs := portGrains b i
  decide (96 < gs.length) || runTooLong gs || decide (gs.eraseDups.length < gs.length)

/-- The route of flow entry i: complete, with GRAINS grains on each of its ports and none elsewhere (04 R86). -/
def entryRoute (b : List Byte) (i : Nat) : Option (List Nat) :=
  let e := flowEntry b i
  let flow := nfld (rdLe e 0 2) 0 12
  let src := facetPort (rdLe e 4 2)
  let dst := facetPort (rdLe e 6 2)
  let n := rdLe e 8 2
  let used := (upto (blobPorts b)).filter (fun j => !(grainsOfFlow (portRecord b j) flow).isEmpty)
  if !(decide (src.2 < 8) || src.2 == 24) || decide (30 < dst.2) then none
  else match flowRoute b flow dst 8 src.1 with
    | some r => if r.length = used.length ∧ r.all (fun j => (grainsOfFlow (portRecord b j) flow).length == n) then some r else none
    | none => none

/-- A tenant's flow starts and ends where R86 allows. -/
def entryTenantOk (s : State) (b : List Byte) (i : Nat) : Bool :=
  let e := flowEntry b i
  let t := rdB e 2
  let src := facetPort (rdLe e 4 2)
  let dst := facetPort (rdLe e 6 2)
  let holds := fun (fp : Nat × Nat) => (partsOf s t).testBit (8 * fp.1 + fp.2)
  if t = 0 then true
  else if 64 < t then false
  else (src.2 == 24 || (decide (src.2 < 8) && holds src)) &&
    (dst.2 == 24 || (decide (8 ≤ dst.2) && decide (dst.2 < 24)) || (decide (dst.2 < 8) && holds dst))

/-- A flow entry names the source port of a fenced unit (02 R47). -/
def sourceFenced (s : State) (b : List Byte) (i : Nat) : Bool :=
  let src := facetPort (rdLe (flowEntry b i) 4 2)
  (decide (src.2 < 8) || src.2 == 24) && !portLive s src.1 src.2

/-- The check of a blob against R85 and R86 on the package as it stands: the refusal reason and RECORD, or none. Reasons are
tested in the order of their codes; FLOW_COUNT or PORT_RECORDS out of range is 0x01, flow entries out of order 0x03, a grain that
names a flow the table lacks 0x08 (note 10). -/
def checkBlob (s : State) (len : Nat) (b : List Byte) : Option (Nat × Nat) :=
  let f := blobFlows b
  let p := blobPorts b
  let flows := (upto f).map (fun i => nfld (rdLe (flowEntry b i) 0 2) 0 12)
  if rdLe b 0 4 ≠ 0x46444353 ∨ rdLe b 4 2 ≠ 1 ∨ f = 0 ∨ 4096 < f ∨ p = 0 ∨ 312 < p ∨ rdLe b 12 4 ≠ len ∨ b.length ≠ len ∨
     len ≠ 64 + 16 * f + 272 * p then some (1, 0)
  else if crcBlanked b 24 ≠ BitVec.ofNat 32 (rdLe b 24 4) then some (2, 0)
  else if !headReservedOk b then some (3, 0)
  else if (upto (f - 1)).any (fun i => decide (flows.getD (i + 1) 0 ≤ flows.getD i 0)) then some (3, 0)
  else match firstBad p (fun i => !recordReservedOk (portRecord b i)) with
  | some i => some (3, i)
  | none =>
  match firstBad p (fun i => let q := recPort (portRecord b i); !portExists q.1 q.2) with
  | some i => some (4, i)
  | none =>
  match firstBad p (fun i => let q := recPort (portRecord b i); !portLive s q.1 q.2) with
  | some i => some (5, i)
  | none =>
  if (upto f).any (sourceFenced s b) then some (5, 0)
  else match firstBad p (portOverLimit b) with
  | some i => some (6, i)
  | none =>
  match (upto f).findSome? (fun i => match entryRoute b i with
      | some r => shortOffset b (flows.getD i 0) r | none => none) with
  | some j => some (7, j)
  | none =>
  match firstBad f (fun i => (entryRoute b i).isNone) with
  | some i => some (8, i)
  | none =>
  match firstBad f (fun i => !entryTenantOk s b i) with
  | some i => some (9, i)
  | none =>
  if (upto p).any (fun i => (schedGrains (portRecord b i)).any (fun g => !flows.contains (recGrain (portRecord b i) g).2))
  then some (8, 0) else none

/-! ## Loading and activation (04 R87 to R90) -/

/-- Load state of a facet: 0 NONE, 1 LOADING, 2 READY, 3 ACTIVE, 4 REFUSED, 5 LATE (04 FAB_SCHED_STATE). -/
def schedState (s : State) (f : Nat) : Nat := regFld s (fKey f 0x18) 0 3

/-- Sets the load state of a facet. -/
def setSchedState (s : State) (f v : Nat) : State := regSetFld s (fKey f 0x18) 0 3 v

/-- Facets whose fabric island is live. -/
def liveFacets (s : State) : List Nat := (upto 8).filter (fabricLive s)

/-- A refusal: every live facet reports the reason of the first facet to refuse, and no load goes on (04 R87, R88). -/
def refuseSched (s : State) (f reason record : Nat) : State :=
  let s := { s with fabric := { s.fabric with loads := [] } }
  (liveFacets s).foldl (fun s g =>
    setSchedState (regSet s (fKey g 0x14) (BitVec.ofNat 32 (reason * 2 ^ 24 + f * 2 ^ 16 + record % 2 ^ 12))) g 4) s

/-- Every live facet reports LATE and no facet activates (04 R88, R89). -/
def lateSched (s : State) : State :=
  (liveFacets s).foldl (fun s g => setSchedState s g 5) { s with fabric := { s.fabric with loads := [] } }

/-- The activation frame a facet resolves from ACT_FRAME at a frame number (04 R89); none when it has begun or passed. -/
def resolveFrame (act frame : Nat) : Option Nat :=
  let d := (act + 2 ^ 32 - frame % 2 ^ 32) % 2 ^ 32
  if 1 ≤ d ∧ d < 2 ^ 31 then some (frame + d) else none

/-- LOAD on a facet (04 R87, R89; Corners: ignored while its load is in progress). -/
def schedLoad (s : State) (f : Nat) : State :=
  if schedState s f = 1 ∨ schedState s f = 2 then s
  else if !isSealedNow s then refuseSched s f 0xA 0
  else
    let fr := resolveFrame (regGet s (fKey f 0xC)).toNat (frameNo s.clk.grains.toNat)
    let s := { s with fabric := { s.fabric with loads := place s.fabric.loads f ⟨fr, none⟩ } }
    let s := setSchedState s f 1
    askOwner s (pair (regGet s) (fKey f 0)) (regGet s (fKey f 8)).toNat

/-- FAB_SCHED_LOAD (04 R87). -/
def execFabSchedLoad (facet : Nat) (s : State) : Result :=
  .next (if alive s && decide (facet < 8) && fabricLive s facet then schedLoad s facet else s)

/-- Every live facet has accepted its load. -/
def allReady (s : State) : Bool :=
  (liveFacets s).all (fun f => match look s.fabric.loads f with | some l => l.blob.isSome | none => false)

/-- The frame all loads resolved, when they agree. -/
def agreedFrame (s : State) : Option Nat :=
  match (liveFacets s).map (fun f => match look s.fabric.loads f with | some l => l.frame | none => none) with
  | some x :: rest => if rest.all (fun y => y == some x) then some x else none
  | _ => none

/-- A facet has read its blob and judges it (04 R86 to R89). -/
def blobChecked (s : State) (f : Nat) (b : List Byte) : State :=
  match look s.fabric.loads f with
  | none => s
  | some l =>
    if schedState s f ≠ 1 then s
    else
      let verdict := checkBlob s (regGet s (fKey f 8)).toNat b
      let s := backOwner s (pair (regGet s) (fKey f 0)) (regGet s (fKey f 8)).toNat
      match verdict with
      | some (reason, rec) => refuseSched s f reason rec
      | none =>
        if l.frame.isNone then lateSched s
        else
          let s := { s with fabric := { s.fabric with loads := place s.fabric.loads f ⟨l.frame, some b⟩ } }
          let s := setSchedState s f 2
          if allReady s && (agreedFrame s).isNone then lateSched s else s

/-- FAB_SCHED_BLOB_CHECKED (04 R86). -/
def execFabSchedBlobChecked (facet : Nat) (blob : List Byte) (s : State) : Result :=
  .next (if alive s && decide (facet < 8) && fabricLive s facet then blobChecked s facet blob else s)

/-- Flow numbers of a blob. -/
def schedFlows (b : List Byte) : List Nat := (upto (blobFlows b)).map (fun i => nfld (rdLe (flowEntry b i) 0 2) 0 12)

/-- The entry of a flow in a blob. -/
def flowIndex (b : List Byte) (flow : Nat) : Option Nat :=
  (upto (blobFlows b)).find? (fun i => nfld (rdLe (flowEntry b i) 0 2) 0 12 == flow)

/-- The blob in force on a facet. -/
def schedOn (s : State) (f : Nat) : Option (List Byte) := look s.fabric.active f

/-- The ports of a flow's route, in order, by the blob that its source facet keeps. -/
def flowPorts (b : List Byte) (flow : Nat) : List (Nat × Nat) :=
  match flowIndex b flow with
  | some i => ((entryRoute b i).getD []).map (fun j => recPort (portRecord b j))
  | none => []

/-- A flow owns the grain of a slot at the first port of its route (04 R82, R86). -/
def ownsSlot (b : List Byte) (flow slot : Nat) : Bool :=
  match flowIndex b flow with
  | some i => match entryRoute b i with
    | some (j :: _) => recGrain (portRecord b j) (slot % 128) == (true, flow)
    | _ => false
  | none => false

/-- Flits that an injection buffer holds (04 R91). -/
def injectRoom : Nat := 64

/-- The flits that wait at a source port. -/
def injectAt (s : State) (k : Nat) : List QueuedFlit := mapGet (fun _ => []) s.fabric.inject k

/-- A source may inject for a tenant's flow (04 R93, Corners): the hallmark is SEALED, and a tenant other than the owner holds a partition
in force and is not re-opened. -/
def mayInject (s : State) (t : Nat) : Bool :=
  isSealedNow s && (decide (t = 0) || (decide (partsOf s t ≠ 0) && !bitOf s.hmk.reopen (t - 1)))

/-- One flit reaches the injection buffer of its source port (04 R82, R91): its flow starts there and owns the slot, and the
buffer has room. A flit for which it has none stays with its source, which stalls. -/
def injectFlit (s : State) (f p : Nat) (x : SchedFlit) : State :=
  match schedOn s f with
  | none => s
  | some b =>
    match flowIndex b x.flow with
    | none => s
    | some i =>
      let e := flowEntry b i
      let dst := facetPort (rdLe e 6 2)
      let k := 64 * f + p
      if facetPort (rdLe e 4 2) == (f, p) && ownsSlot b x.flow x.slot && mayInject s (rdB e 2) && decide (x.data.length ≤ 256) &&
          decide ((injectAt s k).length < injectRoom) then
        { s with fabric := { s.fabric with
            inject := mapSet (fun _ => []) s.fabric.inject k (injectAt s k ++ [⟨x, rdB e 2, dst.1, dst.2⟩]) } }
      else s

/-- The flits that a source wrote reach its injection buffer in order (04 R82: only partitions and the engine island are sources). -/
def injectWrites (s : State) (w : SchedWrites) : State :=
  if (decide (w.port < 8) || w.port == 24) && decide (w.facet < 8) && portLive s w.facet w.port then
    w.flits.foldl (fun s x => injectFlit s w.facet w.port x) s
  else s

/-- A flit slips on a facet (04 R92): FAB_SLIP and the flow's slip count there rise by one. -/
def slipFlit (s : State) (f flow : Nat) : State := bump (bump s (fKey f 0x24) 0 32 1) (fKey f (0xC000 + 4 * flow)) 0 32 1

/-- The bytes of a flit lie in the unit its flow ends at: a near store or a slice. -/
def landsIn (x : QueuedFlit) : Bool :=
  match locOf x.flit.addr with
  | .near p _ => decide (x.dstFacet = p / 8) && decide (x.dstPort = p % 8)
  | .slice g _ => decide (x.dstFacet = g / 16) && decide (x.dstPort = 8 + g % 16)
  | _ => false

/-- A flit arrives (04 R84, R92): a live destination accepts it, its flow's arrival count rises by one, and its bytes are written where
the tenant may write them (note 141). -/
def arriveFlit (s : State) (x : QueuedFlit) : State :=
  if !portLive s x.dstFacet x.dstPort then s
  else
    let k := fKey x.dstFacet (0x8000 + 4 * x.flit.flow)
    let s := regSet s k (regGet s k + 1#32)
    if landsIn x ∧ checkAccess s x.tenant x.flit.addr x.flit.data.length = none then
      memWrite (noteParts s x.tenant x.flit.addr x.flit.data.length) x.flit.addr x.flit.data
    else s

/-- A slipped flit goes on by VC3, over the route of R74, and arrives like any other (04 R92). -/
def slipAndArrive (s : State) (f g : Nat) (x : QueuedFlit) : State :=
  let s := slipFlit s f x.flit.flow
  if (fabricRoute s g x.dstFacet).isSome then arriveFlit s x else s

/-- Facet where a flit that left in its grain slips because a port of its route is fenced: that of the port before it, or of the source
(04 Corners); none when every port is live. -/
def slipPlace (s : State) (f : Nat) (ports : List (Nat × Nat)) : Option Nat :=
  match ports.findIdx? (fun q => !portLive s q.1 q.2) with
  | none => none
  | some 0 => some f
  | some (k + 1) => some ((ports.map (·.1)).getD k f)

/-- A flit is on time for its slot (04 R91): readable no later than the start of grain t - 1, in the grain that its flow owns now. -/
def onTime (s : State) (f : Nat) (x : QueuedFlit) : Bool :=
  decide (x.flit.slot = s.clk.grains.toNat) && decide (x.flit.ready + 1 ≤ x.flit.slot) &&
  (match schedOn s f with | some b => ownsSlot b x.flit.flow x.flit.slot | none => false)

/-- A flit leaves in its grain. -/
def passFlit (s : State) (f : Nat) (x : QueuedFlit) : State :=
  match slipPlace s f (match schedOn s f with | some b => flowPorts b x.flit.flow | none => []) with
  | none => arriveFlit s x
  | some g => slipAndArrive s g g x

/-- The flits of a source whose slots have come: at most 16 go in the grain, the others slip (04 Scheduled grains, R92). -/
def sendDue (s : State) (f : Nat) : Nat → List QueuedFlit → State
  | _, [] => s
  | n, x :: xs =>
    if onTime s f x ∧ n < 16 then sendDue (passFlit s f x) f (n + 1) xs else sendDue (slipAndArrive s f f x) f n xs

/-- Takes from the injection buffers the flits that `go` names, and does `send` with those of each live source facet; a source island that
is fenced carries nothing (02 R46). -/
def takeFlits (s : State) (go : Nat → QueuedFlit → Bool) (send : State → Nat → List QueuedFlit → State) : State :=
  let all := s.fabric.inject
  let rest := (all.map (fun p => (p.1, p.2.filter (fun x => !go (p.1 / 64) x)))).filter (fun p => !p.2.isEmpty)
  all.foldl (fun s p => if fabricLive s (p.1 / 64) then send s (p.1 / 64) (p.2.filter (go (p.1 / 64))) else s)
    { s with fabric := { s.fabric with inject := rest } }

/-- The grain that begins now: scheduled flits go at their slots or slip (04 R82, R91, R92). -/
def fabricGrain (s : State) : State :=
  takeFlits s (fun _ x => decide (x.flit.slot ≤ s.clk.grains.toNat)) (fun s f xs => sendDue s f 0 xs)

/-- Flits queued at activation for flows that the new schedule does not hold are late (04 R90). -/
def lateFlits (s : State) : State :=
  takeFlits s (fun f x => match schedOn s f with | some b => !(schedFlows b).contains x.flit.flow | none => true)
    (fun s f xs => xs.foldl (fun s x => slipAndArrive s f f x) s)

/-- The activation frame of some load has begun (04 R87, R89). -/
def frameBegun (s : State) : Bool :=
  s.fabric.loads.any (fun p => match p.2.frame with | some n => decide (n ≤ frameNo s.clk.grains.toNat) | none => false)

/-- The blobs that the live facets keep, by facet: each its own (04 R87). -/
def acceptedBlobs (s : State) : KMap (List Byte) :=
  s.fabric.loads.filterMap (fun p => p.2.blob.map (fun b => (p.1, b)))

/-- BLOB_ID of a blob in force, in a facet's FAB_SCHED_ID, and ACTIVE in its state (04 FAB_SCHED_ID_LO, FAB_SCHED_STATE). -/
def showActive (s : State) (f : Nat) : State :=
  let id := match schedOn s f with | some b => rdLe b 16 8 | none => 0
  setSchedState (regSet (regSet s (fKey f 0x1C) (BitVec.ofNat 32 id)) (fKey f 0x20) (BitVec.ofNat 32 (id / 2 ^ 32))) f 3

/-- The activation frame begins (04 R87, R88, R90): with every live facet ready for one frame the new schedule is in force, the flow counts
and slip counts are cleared, and flits of flows that it lacks slip; otherwise the load ends LATE. -/
def schedActivate (s : State) : State :=
  if !frameBegun s then s
  else if allReady s && (agreedFrame s).isSome then
    let blobs := acceptedBlobs s
    let s := clearSchedule s
    lateFlits ((liveFacets s).foldl showActive { s with fabric := { s.fabric with active := blobs } })
  else lateSched s

/-- FAB_SCHED_ACTIVATE (04 R90): the flits that sources wrote before it reach their buffers (note 129), then an activation frame that has
begun activates. -/
def execFabSchedActivate (writes : List SchedWrites) (s : State) : Result :=
  .next (if alive s then schedActivate (writes.foldl injectWrites s) else s)

/-- CLEAR: the schedule in force is to end with the current frame (04 FAB_SCHED_CTRL). -/
def schedClear (s : State) : State :=
  if s.fabric.active.isEmpty then s else { s with fabric := { s.fabric with ending := true } }

/-- The schedule in force ends on every live facet, and every port is wholly arbitrated (04 FAB_SCHED_CTRL). -/
def schedEnd (s : State) : State :=
  (liveFacets s).foldl (fun s f =>
    let s := if schedState s f = 3 then setSchedState s f 0 else s
    regSet (regSet s (fKey f 0x1C) 0#32) (fKey f 0x20) 0#32) { s with fabric := { s.fabric with active := [], ending := false } }

/-- A frame begins while a CLEAR waits: the schedule has ended with the frame before (04 FAB_SCHED_CTRL). -/
def frameEnds (s : State) : State := if s.fabric.ending ∧ grainInFrame s.clk.grains.toNat = 0 then schedEnd s else s

/-- FAB_SCHED_CLEAR (04 R87). -/
def execFabSchedClear (facet : Nat) (s : State) : Result :=
  .next (if alive s && decide (facet < 8) && fabricLive s facet then schedClear s else s)

end Sys2Proof.Machine
end

