-- ==== Sys2Proof/Machine/Fetch.lean ====
section
/-! DEFINITION. Fetch: DESCRIPTOR_FETCH_DATA, and what a descriptor does from its fetch on (17 R369; 14 R310; 15 R334, R337). -/
namespace Sys2Proof.Machine

/-- What a descriptor does from its fetch, before it starts (14 R310; 15 R334, R337, Corners): a detach closes its pool to new sequences; a
SWAP or an UNLOAD takes its slot. -/
def fromFetch (s : State) (tag : Nat) : State :=
  match look s.requests tag with
  | some r => claimSlot (claimPool s tag r) tag r
  | none => s

/-- One ring entry is fetched: the request it makes, if it makes one, has the least tag that was free. -/
def fetchActs (s : State) (fn : FnId) (ring : Nat) (e : List Byte) (st : ReadStatus) (body : List Byte) (bodySt : ReadStatus) : State :=
  let t := fetchEntry s fn ring e st body bodySt
  match freeKey s.requests 0 65536 with
  | some tag => fromFetch t tag
  | none => t

/-- DESCRIPTOR_FETCH_DATA (17 R369). -/
def execDescriptorFetchData (port tenant ring : Nat) (entry : List Byte) (st : ReadStatus) (body : List Byte)
    (bodySt : ReadStatus) (s : State) : Result :=
  .next (if mayFetch s ⟨port, tenant⟩ ring then
    settle (fetchActs s ⟨port, tenant⟩ ring entry (heard s ⟨port, tenant⟩ st) body (heard s ⟨port, tenant⟩ bodySt)) else s)

end Sys2Proof.Machine
end

