-- ==== Sys2Proof/Machine/Gather.lean ====
section
/-! DEFINITION. Gather: table records, GATHER, its row reads, and SCATTER (10 R199 to R216). -/
namespace Sys2Proof.Machine

/-! ## Table records (10 R199 to R203) -/

/-- The record that 64 bytes spell. -/
def tableFrom (b : List Byte) : Table :=
  ⟨rdB b 0, rdB b 1, rdB b 2, rdLe b 4 2, rdLe b 6 2, rdLe b 8 4, rdLe b 12 4, rdLe b 16 8, rdLe b 24 4, rdLe b 28 4,
   rdLe b 32 8, rdLe b 40 4, rdLe b 44 4, rdLe b 48 8, rdLe b 56 4⟩

/-- Bytes of an element: ELEM 4 is INT8. -/
def elemBytes (e : Nat) : Nat := match e with | 0 => 4 | 1 => 2 | _ => 1

/-- Bytes of a main-table row. -/
def Table.rowBytes (t : Table) : Nat := t.dim * elemBytes t.elem

/-- Bytes of a T row. -/
def Table.rowBytesT (t : Table) : Nat := t.dimT * elemBytes t.elem

/-- Elements of an output row (10 R203). -/
def Table.outDim (t : Table) : Nat := if t.kind = 2 ∧ t.combine = 2 then t.dim + t.dimT else t.dim

/-- A main table lies in HBM, LPDDR or slices (10 Table - Table record). -/
def Table.baseOk (t : Table) : Bool := match locOf t.base with | .hbm _ _ => true | .lpddr _ _ => true | .slice _ _ => true | _ => false

/-- Every field of a record lies in its range (10 R199, R200, R203). Of DIM_T under CONCAT the spec bounds only the bytes. -/
def Table.ok (t : Table) (b : List Byte) : Bool :=
  let comp := decide (t.kind = 2)
  decide (t.kind ≤ 2) && decide (t.elem ≤ 4) && decide (t.combine ≤ 2) && (comp || decide (t.combine = 0)) && zeroAt b 3 1 &&
  decide (1 ≤ t.dim) && decide (t.dim ≤ 8192) && decide (t.rowBytes ≤ 16384) && decide (t.rowBytesT ≤ 16384) &&
  decide (1 ≤ t.logical) && decide (t.logical ≤ 0xFFFFFFFE) &&
  (match t.kind with
   | 0 => decide (t.rows = t.logical) && decide (t.salt = 0)
   | 1 => decide (1 ≤ t.rows) && decide (t.rows ≤ t.logical)
   | _ => decide (2 ≤ t.salt) && decide (t.salt ≤ 16777216) && decide (t.rows = (t.logical + t.salt - 1) / t.salt)) &&
  t.baseOk && decide (t.base % 64 = 0) && decide (t.stride % 64 = 0) && decide (t.rowBytes ≤ t.stride) &&
  (if comp then (decide (t.combine = 2) || decide (t.dimT = t.dim)) &&
      decide (t.tBase % 64 = 0) && decide (t.tStride % 64 = 0) && decide (t.rowBytesT ≤ t.tStride) &&
      (decide (t.elem ≠ 4) || decide (t.combine = 2))
   else decide (t.dimT = 0) && decide (t.tBase = 0) && decide (t.tStride = 0)) &&
  decide (t.hotCount ≤ 65536) && (decide (t.hotCount ≠ 0) || decide (t.hotList = 0)) && decide (t.hotOff % 64 = 0) &&
  decide (t.hotOff + t.hotCount * t.stride ≤ 0x1000000) && zeroAt b 60 4

/-- hash(i, SALT) of R202. -/
def hashIdx (i salt : Nat) : Nat :=
  let h : Word := (BitVec.ofNat 32 i ^^^ BitVec.ofNat 32 salt) * 0x9E3779B1#32
  (h ^^^ (h >>> 16)).toNat

/-- Main-table row of a valid index (10 R202, R203). -/
def Table.mainRow (t : Table) (i : Nat) : Nat :=
  match t.kind with
  | 0 => i
  | 1 => hashIdx i t.salt % t.rows
  | _ => i / t.salt

/-- An index is valid (10 R204). -/
def Table.valid (t : Table) (i : Nat) : Bool := decide (i ≠ 0xFFFFFFFF) && decide (i < t.logical)

/-- An address in one of the tenant's slice regions, n bytes long: the failure, if any. A range in another tier is a field
out of its range (note 25). -/
def sliceCheck (s : State) (t a n : Nat) : Option Status :=
  match checkAccess s t a n with
  | some st => some st
  | none => match locOf a with | .slice _ _ => none | _ => some .badField

/-- Reads and checks a table record (10 R199). -/
def readTable (s : State) (r : Request) (a : Nat) : Reading Table :=
  if a % 64 ≠ 0 then (s, .fail .badField)
  else match sliceCheck s r.tenant a 64 with
    | some st => (s, .fail st)
    | none => Got.andThen (devRead s r.tenant a 64) (fun s b =>
        let t := tableFrom b
        if t.ok b then (s, .ok t) else (s, .fail .badField))

/-- The hot rows of a table (10 R199). -/
def readHot (s : State) (r : Request) (t : Table) : Reading (List Nat) :=
  if t.hotCount = 0 then (s, .ok [])
  else match sliceCheck s r.tenant t.hotList (4 * t.hotCount) with
    | some st => (s, .fail st)
    | none => Got.andThen (devRead s r.tenant t.hotList (4 * t.hotCount)) (fun s b =>
        let l := (upto t.hotCount).map (fun i => rdLe b (4 * i) 4)
        if (upto (l.length - 1)).all (fun i => decide (l.getD i 0 < l.getD (i + 1) 0)) && l.all (fun x => decide (x < t.rows))
        then (s, .ok l) else (s, .fail .badField))

/-- Address of facet f's hot-row area in force (10 GTH_HOT_BASE). -/
def hotBase (s : State) (f : Nat) : Nat := pair (forceGet s) (fKey f 0x70000)

/-- Address of the replica of hot row number k of a table on facet f. -/
def replicaAddr (s : State) (t : Table) (f k : Nat) : Nat := hotBase s f + t.hotOff + k * t.stride

/-- The replica range of a facet lies in the tenant's regions, as the main and T tables do (10 R201). -/
def rangesOk (s : State) (r : Request) (t : Table) (facets : List Nat) : Bool :=
  let ok := fun a n => inRegion s r.tenant a n && populated s a n
  ok t.base (t.rows * t.stride) && (decide (t.kind ≠ 2) || ok t.tBase (t.salt * t.tStride)) &&
  (decide (t.hotCount = 0) || facets.all (fun f => ok (replicaAddr s t f 0) (t.hotCount * t.stride)))

/-- The engine of a GATHER or SCATTER (10 R208, Corners): the facet, or the failure. -/
def gatherEngine (s : State) (r : Request) : Except Status Nat :=
  let live := fun f => engineLive s f 2 && fabricLive s f
  if nbit (bodyB r 29) 7 then
    let start := ((upto 8).find? (fun f => decide (partsOf s r.tenant / 2 ^ (8 * f) % 256 ≠ 0))).getD 0
    match ((rangeFrom start 8).map (· % 8)).find? live with
    | some f => .ok f
    | none => .error .noEngine
  else if live (bodyB r 28 % 8) then .ok (bodyB r 28 % 8) else .error .noEngine

/-- Address of the replica that an index's row has on facet f, if it is hot. -/
def replicaOf (s : State) (t : Table) (f : Nat) (hot : List Nat) (i : Nat) : Option Nat :=
  let k := hot.idxOf (t.mainRow i)
  if k < hot.length then some (replicaAddr s t f k) else none

/-- An index reads the replica on the engine's own facet (10 R208, Corners): its row is hot and its replica's slice live. -/
def usesReplica (s : State) (t : Table) (f : Nat) (hot : List Nat) (bypass : Bool) (i : Nat) : Bool :=
  !bypass && (match replicaOf s t f hot i with | some a => rangeLive s a t.rowBytes | none => false)

/-- The row reads of one valid index: main row or replica, then the T row (10 R208). -/
def rowReads (s : State) (t : Table) (f : Nat) (hot : List Nat) (rep : Bool) (i : Nat) : List (Nat × Nat) :=
  let home := t.base + t.mainRow i * t.stride
  (if rep then (replicaOf s t f hot i).getD home else home, t.rowBytes) ::
    (if t.kind = 2 then [(t.tBase + i % t.salt * t.tStride, t.rowBytesT)] else [])

/-! ## Values of rows (10 R203, R205, R206) -/

/-- An element of a row: INT8 as an integer. -/
def tableElem (e : Nat) (l : List Byte) (i : Nat) : Num :=
  if e = 4 then let v := sInt 8 (rdB l i); .fin (decide (v < 0)) v.natAbs 0 else (fmtOf e).elem l i

/-- The elements of an index's row in FP32, combined but not rounded further (10 R203, R206). -/
def rowValues (t : Table) (main tr : List Byte) : List Num :=
  let q := (upto t.dim).map (tableElem t.elem main)
  if t.kind ≠ 2 then q
  else
    let x := (upto t.dimT).map (tableElem t.elem tr)
    match t.combine with
    | 0 => List.zipWith add32 q x
    | 1 => List.zipWith mul32 q x
    | _ => q ++ x

/-- The bytes of a non-pooled slot (10 R203, R205, OUT_FMT): rows that are neither combined nor widened are copied. -/
def slotBytes (t : Table) (fmt32 : Bool) (main tr : List Byte) : List Byte :=
  let copied := decide (t.kind ≠ 2) || decide (t.combine = 2)
  if (!fmt32 || decide (t.elem = 0)) && copied then main ++ (if t.kind = 2 then tr else [])
  else if fmt32 && copied then (rowValues t main tr).flatMap (fun v => leBytes 4 (fp32.encode v))
  else (if fmt32 then fp32 else fmtOf t.elem).bytesOf (rowValues t main tr)

/-- Accumulates one weighted row into a bag (10 R206). -/
def poolAdd (acc row : List Num) (w : Option Num) : List Num :=
  List.zipWith add32 acc (match w with | some x => row.map (fun v => mul32 v x) | none => row)

/-- The bytes of a bag (10 R206): SUM or MEAN of its rows, zeros when it has none. -/
def bagBytes (dim : Nat) (mean fmt32 : Bool) (rows : List (List Num × Option Num)) : List Byte :=
  let f := if fmt32 then fp32 else bf16
  if rows.isEmpty then List.replicate (dim * f.bytes) 0#8
  else
    let acc := rows.foldl (fun a r => poolAdd a r.1 r.2) (List.replicate dim (.fin false 0 0))
    f.bytesOf (if mean then acc.map (fun v => divNat32 v rows.length) else acc)

/-! ## GATHER (10 R204 to R215) -/

/-- GATHER's own check of its body and extension (10 R215). -/
def gatherBad (r : Request) : Bool :=
  let pool := bodyB r 28 / 64
  decide (pool = 3) || decide (bodyB r 29 % 32 ≠ 0) || !bodyZero r 30 2 || decide (1048576 < bodyLe r 24 4) ||
  decide (bodyLe r 16 8 % 4 ≠ 0) || decide (bodyLe r 32 8 % 64 ≠ 0) ||
  (if pool = 0 then nbit (bodyB r 29) 6 || decide (bodyLe r 44 4 ≠ 0) || decide (bodyLe r 56 8 ≠ 0)
   else decide (bodyLe r 44 4 = 0) || decide (65536 < bodyLe r 44 4) || decide (bodyLe r 56 8 % 64 ≠ 0)) ||
  decide (4 ≤ rdB (extOf r) 0) || !zeroAt (extOf r) 1 63

/-- Expert bits of a GATHER or SCATTER as they act: bit 0 HOT_BYPASS_X, bit 1 DROP_FAIL_X. -/
def gatherExpert (r : Request) : Nat := extField r 2 (rdB (extOf r) 0) 0

/-- The bag offsets and weights of a pooled gather (10 AUX_ADDR). -/
def readAux (s : State) (r : Request) (bags n : Nat) (weighted : Bool) : Reading (List Nat × List Num) :=
  if bags = 0 then (s, .ok ([], []))
  else
    let len := 4 * bags + (if weighted then 4 * n else 0)
    match sliceCheck s r.tenant (bodyLe r 56 8) len with
    | some st => (s, .fail st)
    | none => Got.andThen (devRead s r.tenant (bodyLe r 56 8) len) (fun s b =>
        let st := (upto bags).map (fun i => rdLe b (4 * i) 4)
        if st.headD 1 ≠ 0 ∨ st.any (fun x => decide (n < x)) ∨
            !(upto (bags - 1)).all (fun i => decide (st.getD i 0 ≤ st.getD (i + 1) 0)) then (s, .fail .badField)
        else (s, .ok (st, if weighted then fp32.elems (b.drop (4 * bags)) n else [])))

/-- Everything a GATHER reads and checks before its rows (10 R199 to R201, R215). -/
def gatherInputs (s : State) (r : Request) (idx : State → Reading (List Nat)) : Reading GatherIn :=
  if gatherBad r then (s, .fail .badField)
  else
    match gatherEngine s r with
    | .error st => (s, .fail st)
    | .ok f =>
      Got.andThen (readTable s r (bodyLe r 48 8)) (fun s t =>
      if bodyB r 28 / 64 ≠ 0 ∧ t.elem = 4 then (s, .fail .badField)
      else Got.andThen (readHot s r t) (fun s hot =>
      if !rangesOk s r t [f] then (s, .fail .outOfRegion)
      else Got.andThen (idx s) (fun s is =>
      Got.andThen (readAux s r (bodyLe r 44 4) is.length (nbit (bodyB r 29) 6)) (fun s a =>
        if nbit (gatherExpert r) 1 && is.any (fun i => !t.valid i) then (s, .fail .indexRange)
        else (s, .ok ⟨t, hot, is, a.1, a.2, f⟩)))))

/-- The indices of a descriptor issued alone. -/
def readIdx (r : Request) (s : State) : Reading (List Nat) :=
  Got.andThen (readAt s r (nbit (bodyB r 28) 5) (bodyLe r 16 8) (4 * bodyLe r 24 4)) (fun s b =>
    (s, .ok ((upto (bodyLe r 24 4)).map (fun i => rdLe b (4 * i) 4))))

/-- Bytes of one element of the output. -/
def gatherElemBytes (r : Request) (t : Table) : Nat :=
  if bodyB r 28 / 64 = 0 then (if nbit (bodyB r 28) 3 then 4 else elemBytes t.elem) else if nbit (bodyB r 28) 3 then 4 else 2

/-- Slots of a gather. -/
def gatherSlots (r : Request) (g : GatherIn) : Nat := if bodyB r 28 / 64 = 0 then g.idx.length else g.starts.length

/-- Bytes from one output slot to the next. -/
def slotStride (r : Request) (t : Table) : Nat := roundUp (t.outDim * gatherElemBytes r t) 64

/-- Output bytes needed: the slots, and the bitmap of R207. -/
def gatherLen (r : Request) (g : GatherIn) : Nat :=
  let n := gatherSlots r g
  n * slotStride r g.table + (if nbit (bodyB r 29) 5 then (n + 7) / 8 else 0)

/-- Indices of bag k, by position (10 AUX_ADDR). -/
def bagRange (g : GatherIn) (k : Nat) : List Nat :=
  let a := g.starts.getD k 0
  rangeFrom a (g.starts.getD (k + 1) g.idx.length - a)

/-- The slots of a gather, each with whether it holds data (10 R205 to R207): a dropped index's slot is zeros from end to end, the padding
of a row's slot is not among its bytes (note 60). `rep` says which indices read replicas, `rd` gives the
bytes of a row read. -/
def gatherOut (s : State) (r : Request) (g : GatherIn) (rep : Nat → Bool) (rd : Nat → Nat → List Byte) : List (List Byte × Bool) :=
  let t := g.table
  let row := fun i =>
    match rowReads s t g.facet g.hot (rep i) i with
    | [(a, n)] => (rd a n, [])
    | [(a, n), (b, k)] => (rd a n, rd b k)
    | _ => ([], [])
  if bodyB r 28 / 64 = 0 then
    g.idx.map (fun i =>
      if t.valid i then let x := row i; (slotBytes t (nbit (bodyB r 28) 3) x.1 x.2, true)
      else (List.replicate (slotStride r t) 0#8, false))
  else
    (upto g.starts.length).map (fun k =>
      let ps := (bagRange g k).filter (fun p => t.valid (g.idx.getD p 0xFFFFFFFF))
      (bagBytes t.outDim (decide (bodyB r 28 / 64 = 2)) (nbit (bodyB r 28) 3)
        (ps.map (fun p => let x := row (g.idx.getD p 0); (rowValues t x.1 x.2, g.weights[p]?))), !ps.isEmpty))

/-- The presence bitmap (10 R207). -/
def bitmapBytes (bs : List Bool) : List Byte :=
  (upto ((bs.length + 7) / 8)).map (fun i =>
    BitVec.ofNat 8 (((upto 8).map (fun k => if bs.getD (8 * i + k) false then 2 ^ k else 0)).sum))

/-- The indices that read replicas now (10 R208). -/
def replicaNow (s : State) (r : Request) (g : GatherIn) (i : Nat) : Bool :=
  usesReplica s g.table g.facet g.hot (nbit (gatherExpert r) 0) i

/-- The row reads of all valid indices, in order. -/
def allReads (s : State) (r : Request) (g : GatherIn) : List (Nat × Nat) :=
  (g.idx.filter g.table.valid).flatMap (fun i => rowReads s g.table g.facet g.hot (replicaNow s r g i) i)

/-- Rows read from replicas. -/
def hotReads (g : GatherIn) (rep : Nat → Bool) : Nat := ((g.idx.filter g.table.valid).filter rep).length

/-- Counts dropped indices of a tenant on a facet, on both paths of R545 (10 R204). -/
def countDrops (s : State) (f t n : Nat) : State :=
  let k := 128 * (1 + f) + t
  let s := bump s (fKey f (0x71000 + 4 * t)) 0 32 n
  { s with xign := mapSet (fun _ => 0) s.xign k (min (mapGet (fun _ => 0) s.xign k + n) 0xFFFFFFFF) }

/-- The counts of a gather that ends, well or not (10 R204, GTH_HOT_HITS). -/
def gatherCounts (s : State) (r : Request) (g : GatherIn) (rep : Nat → Bool) : State :=
  bump (countDrops s g.facet r.tenant (g.idx.filter (fun i => !g.table.valid i)).length) (fKey g.facet 0x70014) 0 32 (hotReads g rep)

/-- Writes slots at their places (10 R205). -/
def writeSlots (s : State) (r : Request) (g : GatherIn) (outs : List (List Byte × Bool)) : State :=
  (List.zip (upto outs.length) outs).foldl (fun s p =>
    writeOut s r (nbit (bodyB r 28) 4) (bodyLe r 32 8 + p.1 * slotStride r g.table) p.2.1) s

/-- Writes the slots and the bitmap, and ends the gather (10 R205, R207). -/
def gatherFinish (s : State) (r : Request) (g : GatherIn) (rep : Nat → Bool) (rd : Nat → Nat → List Byte) : Ended :=
  let outs := gatherOut s r g rep rd
  let s := writeSlots s r g outs
  let s := if nbit (bodyB r 29) 5 then
      writeOut s r (nbit (bodyB r 28) 4) (bodyLe r 32 8 + outs.length * slotStride r g.table) (bitmapBytes (outs.map (·.2))) else s
  let dropped := (g.idx.filter (fun i => !g.table.valid i)).length
  (gatherCounts s r g rep, .ok ([outs.length, dropped, hotReads g rep], if dropped = 0 then .ok else .droppedIndices))

/-- Splits row reads into requests of at most 4,096 bytes (10 R209). -/
def splitReads (l : List (Nat × Nat)) : List (Nat × Nat) :=
  l.flatMap (fun p => (upto ((p.2 + 4095) / 4096)).map (fun i => (p.1 + 4096 * i, min 4096 (p.2 - 4096 * i))))

/-- Reads outstanding on the engine of a facet. -/
def flyingOn (s : State) (f : Nat) : Nat :=
  ((s.gathers.filter (fun g => decide (g.2.input.facet = f))).map (fun g => g.2.flying.length)).sum

/-- HBM stack that a read goes to. -/
def stackOf (a : Nat) : Option Nat := match locOf a with | .hbm k _ => some k | _ => none

/-- Reads outstanding on an HBM stack, over every engine (17 Table - In-flight bounds). -/
def stackReads (s : State) (k : Nat) : Nat := (s.gathers.map (fun g => (g.2.flying.filter (fun p => stackOf p.1 == some k)).length)).sum

/-- One more waiting read of a gather may issue: the engine has fewer than 1,024 outstanding, the read's HBM stack fewer than 512 (01 R26; 10
R209; 17 R385). -/
def mayIssue (s : State) (f a : Nat) : Bool :=
  decide (flyingOn s f < 1024) && (match stackOf a with | some k => decide (stackReads s k < 512) | none => true)

/-- Issues the waiting reads of one gather in their order, as far as the bounds go; at most n of them. -/
def issueJob (tag : Nat) : Nat → State → State
  | 0, s => s
  | n + 1, s =>
    match look s.gathers tag with
    | some j => match j.queue with
      | p :: ps => if mayIssue s j.input.facet p.1 then
          issueJob tag n { s with gathers := place s.gathers tag { j with queue := ps, flying := j.flying ++ [p] } } else s
      | [] => s
    | none => s

/-- Issues waiting reads of every gather, oldest tag first (10 R209). -/
def issueReads (s : State) : State :=
  let s := s.gathers.foldl (fun s g => issueJob g.1 g.2.queue.length s) s
  (upto 8).foldl (fun s f => if flyingOn s f = 0 then s else peak s (fKey f 0x70010) 0 11 (flyingOn s f)) s

/-- A gather's row reads begin. -/
def gatherOpen (s : State) (tag : Nat) (r : Request) (g : GatherIn) : State :=
  let rs := allReads s r g
  issueReads { s with gathers := place s.gathers tag ⟨g, splitReads rs, [], rs.map (fun p => ⟨p.1, p.2, none⟩)⟩ }

/-- What the checks of a GATHER give before it reads rows. -/
def gatherStart (s : State) (tag : Nat) (r : Request) : State :=
  if (look s.gathers tag).isSome then s
  else
    let x := gatherInputs s r (readIdx r)
    match x.2 with
    | .wait => keepReads s x.1
    | .fail st => finish x.1 tag (serviceStatus s st) []
    | .ok g =>
      if noService s then finish s tag .noPartition [] else
      let s := x.1
      if g.idx.isEmpty then finish s tag .ok [0, 0, 0]
      else if bodyLe r 40 4 < gatherLen r g then finish s tag .resultShort []
      else match outCheck s r (nbit (bodyB r 28) 4) (bodyLe r 32 8) (gatherLen r g) with
        | some st => finish s tag st []
        | none =>
          if (allReads s r g).isEmpty then conclude s tag (gatherFinish s r g (fun _ => false) (fun _ _ => []))
          else gatherOpen s tag r g

/-- GATHER (10 R215). -/
def execGather (tag : Nat) (s : State) : Result :=
  .next (match running s tag 0x12 with | some r => gatherStart s tag r | none => s)

/-- A row takes its bytes, whole, when the first of its data comes (10 R213). -/
def captureRow (s : State) (a : Nat) (x : RowRead) : RowRead :=
  if x.got.isNone ∧ x.addr ≤ a ∧ a < x.addr + x.len then { x with got := some (memRead s x.addr x.len, memPoison s x.addr x.len) }
  else x

/-- Data of a row in which the fabric code found an error are poisoned (08 R168). -/
def tornRow (a : Nat) (x : RowRead) : RowRead :=
  if x.addr ≤ a ∧ a < x.addr + x.len then { x with got := x.got.map (fun g => (g.1, some (g.2.getD .fabric))) } else x

/-- A captured row. -/
def captured (rows : List RowRead) (a n : Nat) : Option (List Byte × Option Origin) :=
  (rows.find? (fun x => x.addr == a && x.len == n)).bind (·.got)

/-- Bytes of a captured row. -/
def capturedBytes (rows : List RowRead) (a n : Nat) : List Byte := match captured rows a n with | some (d, _) => d | none => []

/-- The indices whose rows make slot k. -/
def slotIndices (r : Request) (g : GatherIn) (k : Nat) : List Nat :=
  (if bodyB r 28 / 64 = 0 then [g.idx.getD k 0xFFFFFFFF] else (bagRange g k).map (fun p => g.idx.getD p 0xFFFFFFFF)).filter g.table.valid

/-- An index read the replica when its start named one. -/
def replicaRead (s : State) (j : GatherJob) (i : Nat) : Bool :=
  match replicaOf s j.input.table j.input.facet j.input.hot i with
  | some a => j.rows.any (fun x => x.addr == a && x.got.isSome)
  | none => false

/-- The first slot that consumes a poisoned row, with that poison's origin (10 Corners; 08 R171). -/
def poisonedSlot (s : State) (r : Request) (j : GatherJob) : Option (Nat × Origin) :=
  let g := j.input
  (upto (gatherSlots r g)).findSome? (fun k =>
    (((slotIndices r g k).flatMap (fun i => rowReads s g.table g.facet g.hot (replicaRead s j i) i)).findSome?
      (fun p => (captured j.rows p.1 p.2).bind (·.2))).map (fun o => (k, o)))

/-- A gather fails in its row reads: what it dropped and read counts (10 R204). -/
def gatherFails (s : State) (tag : Nat) (r : Request) (j : GatherJob) (st : Status) : State :=
  issueReads (finishStage (gatherCounts { s with gathers := remove s.gathers tag } r j.input (replicaRead s j)) tag [] st)

/-- The last row of a gather issued alone has come: its slots are written; poison fails it, and slots before the one that consumed it stay
where they landed (10 R205, Corners; 08 R170). -/
def gatherLast (s : State) (tag : Nat) (r : Request) (j : GatherJob) : State :=
  match poisonedSlot s r j with
  | some (k, o) =>
    gatherFails (writeSlots s r j.input ((gatherOut s r j.input (replicaRead s j) (capturedBytes j.rows)).take k)) tag r j (poisonStatus o)
  | none => issueReads (conclude { s with gathers := remove s.gathers tag } tag (gatherFinish { s with gathers := remove s.gathers tag } r j.input (replicaRead s j) (capturedBytes j.rows)))

/-- The engine of a pooled gather carries a check of its sums (08 R167). -/
def gatherChecked (r : Request) (f : Nat) (u : CheckedUnit) : Bool := decide (bodyB r 28 / 64 ≠ 0) && (u == .gather f)

/-- The bytes of one read reach the engine (08 R164 to R169): cells in error count, and flits that the fabric spoils. -/
def readArrives (s : State) (t f a n : Nat) (fab : FabricSeen) : State :=
  let ks := fab.bad.filter (fun k => decide (k ≤ flitOf (n - 1)))
  let s := noteRead s t a n
  fabricMeets s f { fab with bad := ks } (ks.filter (fun k => (memPoison s (a + flitStart k) (min n (flitStart (k + 1)) - flitStart k)).isNone)) false
    (fun k => a + flitStart k) (some t)

/-- A row read returns (10 R209): one outstanding read is freed and a waiting one issued. Its line waits its turn at the home (05 R101).
`alone`: a pipeline takes the rows when its stage completes. -/
def rowArrival (s : State) (tag : Nat) (r : Request) (alone : Bool) (x : RowArrival) : State :=
  match look s.gathers tag with
  | none => s
  | some j =>
    match j.flying.find? (fun p => p.1 == x.addr) with
    | none => s
    | some p =>
      let row := match j.rows.find? (fun w => decide (w.addr ≤ p.1) && decide (p.1 < w.addr + w.len)) with | some w => (w.addr, w.len) | none => p
      match checkAccess s r.tenant p.1 p.2 with
      | some st => gatherFails s tag r j st
      | none =>
        if cohBusy s row.1 row.2 then s
        else
          let f := j.input.facet
          let s := readArrives (collect s row.1 row.2 true) r.tenant f p.1 p.2 x.fabric
          let rows := j.rows.map (captureRow s p.1)
          let rows := if x.fabric.bad.any (fun k => decide (k ≤ flitOf (p.2 - 1))) then rows.map (tornRow p.1) else rows
          let j := { j with flying := j.flying.erase p, rows := rows }
          let c := meetCheck { s with gathers := place s.gathers tag j } (gatherChecked r f) x.check
          if c.2 then gatherFails c.1 tag r j .computeCheck
          else if alone && j.flying.isEmpty && j.queue.isEmpty then gatherLast c.1 tag r j
          else issueReads c.1

/-! ## SCATTER (10 R211 to R214, R216) -/

/-- SCATTER's own check of its body and extension (10 R216). -/
def scatterBad (r : Request) : Bool :=
  decide (bodyB r 28 / 64 = 3) || nbit (bodyB r 28) 3 || decide (bodyB r 29 % 128 ≠ 0) || !bodyZero r 30 2 ||
  decide (1048576 < bodyLe r 24 4) || decide (bodyLe r 16 8 % 4 ≠ 0) || decide (bodyLe r 32 8 % 64 ≠ 0) ||
  !bodyZero r 40 8 || !bodyZero r 56 8 ||
  (decide (bodyB r 28 / 64 = 2) && (decide (bodyLe r 24 4 ≠ 0) || decide (bodyLe r 32 8 ≠ 0))) ||
  decide (4 ≤ rdB (extOf r) 0) || !zeroAt (extOf r) 1 63

/-- Progress of a SCATTER: the state so far, rows and replicas written, indices dropped, and the failure that stops it. -/
structure Scattered where
  st : State
  rows : Nat
  reps : Nat
  drops : Nat
  stop : Option Status
  deriving DecidableEq

/-- Writes a row to every live replica of a hot row (10 R212, Corners): the number written. -/
def writeReplicas (s : State) (tn : Nat) (t : Table) (hot : List Nat) (row : Nat) (d : List Byte) : State × Nat :=
  let k := hot.idxOf row
  if hot.length ≤ k then (s, 0)
  else
    let fs := (upto 8).filter (fun f => fabricLive s f && rangeLive s (replicaAddr s t f k) t.rowBytes)
    (fs.foldl (fun s f => engWrite s tn (replicaAddr s t f k) d) s, fs.length)

/-- One element of ADD (10 R211). -/
def addElem (e : Nat) (a b : List Byte) (i : Nat) : List Byte :=
  if e = 4 then
    let v := max (-128) (min 127 (sInt 8 (rdB a i) + sInt 8 (rdB b i)))
    leBytes 1 (v % 256).toNat
  else
    let f := fmtOf e
    let x := (f.elem a i).add (f.elem b i)
    match x with
    | .fin neg m g =>
      if fp32.maxCode < fp32.roundCode m g then leBytes f.bytes (f.signed neg f.maxCode)
      else leBytes f.bytes (f.writeSat x.round32)
    | _ => leBytes f.bytes (f.write x)

/-- One index of WRITE or ADD with its source row (10 R211, R212). -/
def scatterOne (t : Table) (r : Request) (hot : List Nat) (add : Bool) (x : Scattered) (i : Nat) (src : Got (List Byte)) : Scattered :=
  match x.stop, src with
  | some _, _ => x
  | none, .wait => x
  | none, .fail st => { x with stop := some st }
  | none, .ok d =>
    if !t.valid i then { x with drops := x.drops + 1 }
    else
      let row := t.mainRow i
      let a := t.base + row * t.stride
      match checkAccess x.st r.tenant a t.rowBytes with
      | some st => { x with stop := some st }
      | none =>
        let old := if add then (devRead x.st r.tenant a t.rowBytes) else (x.st, .ok d)
        match old.2 with
        | .fail st => { x with st := old.1, stop := some st }
        | .wait => x
        | .ok o =>
          let v := if add then (upto t.dim).flatMap (addElem t.elem o d) else d
          let (s', n) := writeReplicas (engWrite old.1 r.tenant a v) r.tenant t hot row v
          ⟨s', x.rows + 1, x.reps + n, x.drops, none⟩

/-- Source row n of a SCATTER as it reads now. -/
def sourceRow (s : State) (r : Request) (t : Table) (n : Nat) : Reading (List Byte) :=
  readAt s r (nbit (bodyB r 28) 4) (bodyLe r 32 8 + n * t.rowBytes) t.rowBytes

/-- All source rows of a SCATTER have come, and no line of the rows it writes waits in a transaction (05 R101). -/
def sourcesHere (s : State) (r : Request) (t : Table) (is : List Nat) : Bool :=
  (upto is.length).all (fun k => match (sourceRow s r t k).2 with | .wait => false | _ => true) &&
  (is.filter t.valid).all (fun i => !cohBusy s (t.base + t.mainRow i * t.stride) t.rowBytes)

/-- REFRESH (10 R211): every hot row is copied from its home to every live replica. -/
def refreshAll (s : State) (r : Request) (t : Table) (hot : List Nat) : Scattered :=
  hot.foldl (fun x row =>
    match x.stop with
    | some _ => x
    | none =>
      let y := devRead x.st r.tenant (t.base + row * t.stride) t.rowBytes
      match y.2 with
      | .ok d => let (s', n) := writeReplicas y.1 r.tenant t hot row d; { x with st := s', reps := x.reps + n }
      | .fail st => { x with st := y.1, stop := some st }
      | .wait => x) ⟨s, 0, 0, 0, none⟩

/-- What a SCATTER posts at its end; what it dropped counts, well or not (10 R204). -/
def scatterEnd (r : Request) (f : Nat) (x : Scattered) : Ended :=
  let s := countDrops x.st f r.tenant x.drops
  match x.stop with
  | some st => (s, .fail st)
  | none => (s, .ok ([x.rows, x.drops, x.reps], if x.drops = 0 then .ok else .droppedIndices))

/-- A SCATTER in the mode its command names (10 R211): a body of another mode is not this command's request. -/
def scatterRun (mode : Nat) (s : State) (r : Request) : Ended :=
  let m := bodyB r 28 / 64
  if m ≠ mode ∧ m ≠ 3 then (s, .wait)
  else if scatterBad r then (s, .fail .badField)
  else
    match gatherEngine s r with
    | .error st => (s, .fail st)
    | .ok f =>
      Got.andThen (readTable s r (bodyLe r 48 8)) (fun s t =>
      if t.kind = 2 then (s, .fail .badField)
      else Got.andThen (readHot s r t) (fun s hot =>
      if !rangesOk s r t ((upto 8).filter (fun g => fabricLive s g &&
          (upto hot.length).any (fun k => rangeLive s (replicaAddr s t g k) t.rowBytes))) then (s, .fail .outOfRegion)
      else if mode = 2 then
        (if hot.any (fun row => cohBusy s (t.base + row * t.stride) t.rowBytes) then (s, .wait) else scatterEnd r f (refreshAll s r t hot))
      else Got.andThen (readIdx r s) (fun s is =>
        if nbit (gatherExpert r) 1 && is.any (fun i => !t.valid i) then (s, .fail .indexRange)
        else if !sourcesHere s r t is then ((upto is.length).foldl (fun s k => (sourceRow s r t k).1) s, .wait)
        else scatterEnd r f ((List.zip (upto is.length) is).foldl (fun x p =>
          let y := sourceRow x.st r t p.1
          scatterOne t r hot (decide (mode = 1)) { x with st := y.1 } p.2 y.2) ⟨s, 0, 0, 0, none⟩))))

/-- SCATTER_WRITE (10 R211). -/
def execScatterWrite (tag : Nat) (s : State) : Result := .next (runOp s tag 0x13 (scatterRun 0))

/-- SCATTER_ADD (10 R211). -/
def execScatterAdd (tag : Nat) (s : State) : Result := .next (runOp s tag 0x13 (scatterRun 1))

/-- SCATTER_REFRESH (10 R211). -/
def execScatterRefresh (tag : Nat) (s : State) : Result := .next (runOp s tag 0x13 (scatterRun 2))

end Sys2Proof.Machine
end

