-- ==== Sys2Proof/Machine/Tenants.lean ====
section
/-! DEFINITION. Tenants: clearing a region (18 R406). -/
namespace Sys2Proof.Machine

/-- TEN_CLEAR_STATUS: STATE and REASON; SKIPPED stays. -/
def clearStatus (s : State) (st reason : Nat) : State :=
  regSetFld (regSetFld s 0x4F404 28 4 st) 0x4F404 24 4 reason

/-- The reason that refuses a clear, in R406's order: 3 RUNNING, 4 NOT_SEALED, 1 INVALID, 2 BUSY. -/
def clearRefusal (s : State) (t r : Nat) : Option Nat :=
  if s.clear.isSome then some 3
  else if s.hmk.state ≠ .opened ∧ s.hmk.state ≠ .sealed then some 4
  else if 64 < t ∨ !(regionOf s t r).valid ∨ (regionOf s t r).kind ≠ 0 then some 1
  else if (s.hmk.state = .sealed ∧ !reopened s t) ∨ tagsOf s t ≠ 0 then some 2
  else none

/-- START (R406). -/
def clearStart (s : State) : State :=
  let t := regFld s 0x4F400 8 7
  let r := regFld s 0x4F400 1 4
  match clearRefusal s t r with
  | some 3 => clearStatus s 1 3
  | some why => clearStatus s 3 why
  | none => clearStatus (regSetFld { s with clear := some ⟨t, r⟩ } 0x4F404 0 1 0) 1 0

/-- A write of TEN_CLEAR_CTRL. -/
def clearWrite (s : State) (w : Word) : State :=
  let s := ctrlStore s 0x4F400 0x7F1E w
  if bitOf w 0 then clearStart s else s

/-- TEN_CLEAR_START (R406). -/
def execTenClearStart (w : Word) (s : State) : Result := .next (if alive s then clearWrite s (setBit w 0 true) else s)

/-- The granules of a range of device memory that lie on live units are written with zeros (R406). -/
def zeroRange (s : State) (a n : Nat) : State :=
  let keep : Nat → Bool := fun k => !(decide (a ≤ k) && decide (k < a + n) && rangeLive s k 1)
  { s with mem := { s.mem with bytes := s.mem.bytes.filter (fun p => keep p.1), poison := s.mem.poison.filter (fun p => keep p.1),
                               broken := s.mem.broken.filter keep, weak := s.mem.weak.filter (fun p => keep p.1) } }

/-- A clear ends; it skipped something when some unit of the region is not live (R406). Its writes take their turn at the homes, which take
every line of the region from the caches (05 R94, R101, R108). -/
def clearDone (s : State) : State :=
  match s.clear with
  | none => s
  | some c =>
    let g := regionOf s c.tenant c.region
    if cohBusy s g.base g.len then s
    else
      let s := collect { s with clear := none } g.base g.len false
      clearStatus (regSetFld (zeroRange s g.base g.len) 0x4F404 0 1 (if rangeLive s g.base g.len then 0 else 1)) 2 0

/-- TEN_CLEAR_DONE (R406). -/
def execTenClearDone (s : State) : Result := .next (if alive s then clearDone s else s)

end Sys2Proof.Machine
end

