-- ==== Sys2Proof/Machine/HostAccess.lean ====
section
/-! DEFINITION. HostAccess: register reads and writes through the BARs of a function (00 R9 to R14; 16 R351, R355; 17 R387, R388,
R390; 23 R512, R525; 25 R540 to R546). Where a write triggers what has a row of its own that carries data from outside (an enable
that reads a doorbell line, a load with its blob, a package reset), that row's command carries the trigger and the write here
stores the plain fields only. -/
namespace Sys2Proof.Machine

/-! ## Ring and event set-up of a function (17 R387, R388, R390; 24 R538) -/

/-- RNG_POLL_MIN_X and MAX_X are written by the owner, or by a tenant with the RING bit; otherwise the write counts (00 R13). -/
def pollGate (s : State) (fn : FnId) (f : State → State) : State :=
  if (expertOf s fn.tenant).testBit 0 then f s else countXign s fn.tenant

/-- MIN rounded up to whole microseconds. -/
def minUs (minQ : Nat) : Nat := (minQ + 3) / 4

/-- A write of RNG_POLL_MIN_X: 1 to 400, and MAX is raised to it. -/
def pollMinWrite (s : State) (fn : FnId) (w : Word) : State :=
  let v := clampN 1 400 (fld w 0 9)
  let s := regSet s (fnBase fn + 0x900) (BitVec.ofNat 32 v)
  if fld (fnReg s fn 0x904) 0 14 < minUs v then regSet s (fnBase fn + 0x904) (BitVec.ofNat 32 (minUs v)) else s

/-- A write of RNG_POLL_MAX_X: at most 10,000, and at least MIN rounded up. -/
def pollMaxWrite (s : State) (fn : FnId) (w : Word) : State :=
  regSet s (fnBase fn + 0x904) (BitVec.ofNat 32 (max (minUs (pollMin s fn)) (min 10000 (fld w 0 14))))

/-- A write at an offset of a function's ring set-up. An enable of a submission ring is RNG_SQ_ENABLE's. -/
def ringWrite (s : State) (fn : FnId) (o : Nat) (w : Word) : State :=
  if o < 0x400 then
    let r := o / 32
    if o % 32 = 0 ∨ o % 32 = 4 then if sqOn s (ringNo fn r) then s else fnStore s fn o 0xFFFFFFFF w
    else if o % 32 = 8 then
      if bitOf w 31 && !sqOn s (ringNo fn r) && sqSetupOk s fn r w then s else sqWrite s fn r w [] .good
    else s
  else if o < 0x800 then
    let c := (o - 0x400) / 32
    let k := o % 32
    if k = 0 ∨ k = 4 ∨ k = 8 ∨ k = 12 then if cqOn s (ringNo fn c) then s else fnStore s fn o 0xFFFFFFFF w
    else if k = 16 then cqWrite s fn c w
    else if k = 20 then fnStore s fn o 0xFF03FF w
    else s
  else if o < 0x840 then
    let d := (o - 0x800) / 16
    if o % 16 = 0 ∨ o % 16 = 4 then if dbOn s fn d then s else fnStore s fn o 0xFFFFFFFF w
    else if o % 16 = 8 then dbWrite s fn d w
    else s
  else if o = 0x900 then pollGate s fn (fun s => pollMinWrite s fn w)
  else if o = 0x904 then pollGate s fn (fun s => pollMaxWrite s fn w)
  else s

/-- RNG_SQ_STATE. -/
def sqState (s : State) (rk : Nat) : Word :=
  let q := sqOf s rk
  BitVec.ofNat 32 (q.fetch.toNat % 2 ^ 16 * 2 ^ 16 + ringFaultCode q.fault * 2 ^ 8 + pauseBits s rk)

/-- RNG_CQ_STATE. -/
def cqState (s : State) (ck : Nat) : Word :=
  let c := cqOf s ck
  BitVec.ofNat 32 (c.posted % 2 ^ 16 * 2 ^ 16 + min c.owed 0xFFFF)

/-- A read at an offset of a function's ring set-up: the state after it and the value. -/
def ringRead (s : State) (fn : FnId) (o : Nat) : State × Word :=
  let plain := fnReg s fn o
  if o < 0x400 then (s, if o % 32 = 12 then sqState s (ringNo fn (o / 32)) else if o % 32 < 12 then plain else 0#32)
  else if o < 0x800 then
    (s, if o % 32 = 24 then cqState s (ringNo fn ((o - 0x400) / 32)) else if o % 32 < 24 then plain else 0#32)
  else if o < 0x840 then
    if o % 16 = 8 then (regSetFld s (fnBase fn + o) 8 8 0, plain) else (s, if o % 16 < 8 then plain else 0#32)
  else if o = 0x900 ∨ o = 0x904 then (s, plain)
  else if o = 0x908 then (s, BitVec.ofNat 32 (tagsOf s fn.tenant % 2 ^ 15))
  else (s, 0#32)

/-- A write at an offset of a function's event ring set-up. -/
def evtSetupWrite (s : State) (fn : FnId) (o : Nat) (w : Word) : State :=
  if o < 0x10 then if evtOn s fn then s else fnStore s fn (0x1000 + o) 0xFFFFFFFF w
  else if o = 0x10 then evtWriteCfg s fn w
  else if o = 0x14 then fnStore s fn 0x1014 0xFF03FF w
  else s

/-- EVT_STATE. -/
def evtState (s : State) (fn : FnId) : Word :=
  let e := evtOf s fn
  BitVec.ofNat 32 (e.posted % 2 ^ 16 * 2 ^ 16 + e.lost)

/-- A read at an offset of a function's event ring set-up. -/
def evtSetupRead (s : State) (fn : FnId) (o : Nat) : Word :=
  if o < 0x18 then fnReg s fn (0x1000 + o)
  else if o = 0x18 then evtState s fn
  else if o = 0x1C then BitVec.ofNat 32 (mapGet (fun _ => 0) s.rings.seqs fn.tenant)
  else 0#32

/-! ## The global window (25 Table - Global window index) -/

/-- ID_TOPO as read through a port (25 R542). -/
def topo (s : State) (port : Nat) : Word :=
  BitVec.ofNat 32 (((upto 64).filter (arrayUsable s)).length * 2 ^ 24 + port % 2 * 2 ^ 16 +
    (if s.assay.active = some .f4 then 2 ^ 8 else 0) + (((upto 8).filter (fabricLive s)).map (2 ^ ·)).sum)

/-- HMK_STATUS. -/
def hmkStatus (s : State) : Word :=
  BitVec.ofNat 32 (hmkCode s.hmk.state * 2 ^ 29 + (if s.hmk.draining then 2 ^ 28 else 0) + (if tenantCheck s then 2 ^ 27 else 0) +
    s.hmk.reason * 2 ^ 16 + s.hmk.genLast.toNat)

/-- Registers of the global window that a read returns as stored and a write leaves alone or stores by mask. -/
def globalRows : List RegRow :=
  [⟨0x00000, 0x00014, .all, 0, 0⟩, ⟨0x0001C, 0x0001C, .all, 0, 0⟩, ⟨0x01004, 0x01004, .all, 0xFFFFFFFF, 0⟩,
   ⟨0x0100C, 0x01010, .all, 0, 0⟩, ⟨0x0101C, 0x0101C, .all, 0, 0xFFFFFFFF⟩, ⟨0x01020, 0x01020, .all, 0, 0⟩,
   ⟨0x44000, 0x4607C, .all, 0, 0⟩, ⟨0x48000, 0x4A07C, .all, 0, 0⟩, ⟨0x4E000, 0x4E100, .all, 0, 0⟩,
   ⟨0x4F004, 0x4F100, .all, 0, 0xFFFFFFFF⟩, ⟨0x4F400, 0x4F404, .all, 0, 0⟩, ⟨0x70000, 0x70008, .all, 0xFFFFFFFF, 0⟩,
   ⟨0x70010, 0x70014, .all, 0, 0⟩, ⟨0x70020, 0x70028, .all, 0, 0⟩]

/-- The state after a read of stored register `k` under a row, with the value: RC bits clear (00 R10, R12). -/
def rowRead (s : State) (k : Nat) (r : RegRow) : State × Word :=
  let w := regGet s k
  (if r.rc = 0 then s else regSet s k (w &&& ~~~(BitVec.ofNat 32 r.rc)), w)

/-- The port whose owner ring set-up holds an offset of the global window, with the offset in it (17 R390). -/
def ownerRings (o : Nat) : Option (Nat × Nat) :=
  if 0x60000 ≤ o ∧ o < 0x62000 then some ((o - 0x60000) / 0x1000, o % 0x1000) else none

/-- The same for the owner's event ring set-up (24). -/
def ownerEvents (o : Nat) : Option (Nat × Nat) :=
  if 0x80000 ≤ o ∧ o < 0x80200 then some ((o - 0x80000) / 0x100, o % 0x100) else none

/-- A read in the global window (R541). -/
def globalRead (s : State) (port o : Nat) : State × Word :=
  match ownerRings o, ownerEvents o with
  | some (p, r), _ => if p = port then ringRead s ⟨port, 0⟩ r else (s, 0#32)
  | _, some (p, r) => (s, if p = port then evtSetupRead s ⟨port, 0⟩ r else 0#32)
  | _, _ =>
    if o = 0x18 then (s, topo s port)
    else if o = 0x1000 then (s, hmkStatus s)
    else if o = 0x1014 then (s, s.hmk.reopen.setWidth 32)
    else if o = 0x1018 then (s, (s.hmk.reopen >>> 32).setWidth 32)
    else if isSealed o then (s, sealedRead s o)
    else match findRow globalRows o with
      | some r => rowRead s o r
      | none => (s, 0#32)

/-- A write in the global window. -/
def globalWrite (s : State) (port o : Nat) (w : Word) : State :=
  match ownerRings o, ownerEvents o with
  | some (p, r), _ => if p = port then ringWrite s ⟨port, 0⟩ r w else s
  | _, some (p, r) => if p = port then evtSetupWrite s ⟨port, 0⟩ r w else s
  | _, _ =>
    if isSealed o then sealedWrite s o w
    else if o = 0x1008 then sealWrite s w
    else if o = 0x1010 then hmkCtrlWrite s w
    else if o = 0x1020 then regSet s o (BitVec.ofNat 32 (clampN 1 60000 (fld w 0 16)))
    else if 0x48000 ≤ o ∧ o ≤ 0x4A07C then
      groupWrite s ((o - 0x48000) / 128) ((o - 0x48000) % 128 / 8) (decide (o % 8 = 4)) w
    else if 0x4E000 < o ∧ o ≤ 0x4E100 then regSet s o (w &&& 0x3F#32)
    else if o = 0x4F400 then clearWrite s w
    else match findRow globalRows o with
      | some r => regSet s o ((regGet s o &&& ~~~(BitVec.ofNat 32 r.rw)) ||| (w &&& BitVec.ofNat 32 r.rw))
      | none => s

/-! ## The mailbox (23 R525) -/

/-- ASY_MBX_STATUS. -/
def mbxStatus (s : State) : Word :=
  let stage := if s.assay.dead.isSome then 15 else if s.assay.ready then 3 else 0
  let cause := match s.assay.dead with | some c => deadCode c | none => 0
  BitVec.ofNat 32 (stage * 2 ^ 28 + (if s.assay.bootB then 2 ^ 27 else 0) + cause * 2 ^ 16 + s.assay.imageVer.toNat)

/-- A write of ASY_MBX_CMD. An accepted PACKAGE_RESET is that row's command. -/
def mbxCmdWrite (s : State) (w : Word) : State :=
  let s := regSetFld s (mbxKey 4) 0 8 (fld w 0 8)
  if !bitOf w 31 then s
  else if fld w 0 8 = 1 then
    if mbxBusy s then s else if !resetState s then mbxResult s 3 2 else if !resetArg s then mbxRefuseOpen s else s
  else if fld w 0 8 = 2 then mbxUpdate s
  else if mbxBusy s then s
  else mbxResult s 3 1

/-- A read of the mailbox at an offset of the assay block. -/
def mbxRead (s : State) (o : Nat) : Word :=
  if o = 0xF0000 then mbxStatus s else if 0xF0004 ≤ o ∧ o ≤ 0xF0014 ∧ o % 4 = 0 then regGet s (aKey o) else 0#32

/-- A write of the mailbox at an offset of the assay block. -/
def mbxWrite (s : State) (o : Nat) (w : Word) : State :=
  if o = 0xF0004 then mbxCmdWrite s w else if 0xF0008 ≤ o ∧ o ≤ 0xF0010 then regSet s (aKey o) w else s

/-! ## Facet windows (25 Table - Facet window index) -/

/-- A register of a row is present in a facet's window. -/
def present (s : State) (f : Nat) (p : Presence) : Bool :=
  match p with | .all => true | .f0f4 => decide (f % 4 = 0) | .active => decide (f = activeFacet s)

/-- Key of a register present in a facet's window. -/
def rowKey (f off : Nat) (p : Presence) : Nat := match p with | .active => aKey off | _ => fKey f off

/-- ASY_ROLE (02). -/
def roleWord (s : State) (f : Nat) : Word :=
  if s.assay.active.isSome ∧ activeFacet s = f then (if s.assay.takeover then 3#32 else 2#32) else 0#32

/-- A transmit buffer register at an offset of the facet window: buffer and offset in it. -/
def txbAt (o : Nat) : Option (Nat × Nat) :=
  if 0xD0100 ≤ o ∧ o < 0xD0300 then some ((o - 0xD0100) / 128, (o - 0xD0100) % 128) else none

/-- A receive buffer register: buffer (16 the foreign one) and offset in it. -/
def rxbAt (o : Nat) : Option (Nat × Nat) :=
  if 0xD0800 ≤ o ∧ o < 0xD1080 then some ((o - 0xD0800) / 128, (o - 0xD0800) % 128) else none

/-- A read of a Chain buffer register, present in the active controller's window (21). -/
def chainBufRead (s : State) (o : Nat) : Word :=
  match txbAt o, rxbAt o with
  | some (_, r), _ => if r = 0 ∨ r = 4 ∨ 0x40 ≤ r then regGet s (aKey o) else 0#32
  | _, some (b, r) => if (r = 0 ∧ b < 16) ∨ r = 4 ∨ r = 8 ∨ r = 12 ∨ 0x40 ≤ r then regGet s (aKey o) else 0#32
  | _, _ => 0#32

/-- A write of a Chain buffer register (21 R472, R473, R475). -/
def chainBufWrite (s : State) (o : Nat) (w : Word) : State :=
  match txbAt o, rxbAt o with
  | some (b, r), _ => if r = 0 then txbWrite s b w else if 0x40 ≤ r then regSet s (aKey o) w else s
  | _, some (b, r) =>
    if r = 0 ∧ b < 16 then regSet s (aKey o) (w &&& 0x803F0000#32) else if r = 4 then rxbClear s b w else s
  | _, _ => s

/-- A read of a register the state computes in a facet's window, if it is one. -/
def facetComputed (s : State) (f o : Nat) : Option (State × Word) :=
  let act := decide (f = activeFacet s)
  if o = 0x10010 then some (s, regGet s (fKey f o) ||| (if s.clk.locked then 1#32 else 0#32))
  else if o = 0x10018 then some (s, s.clk.grains.setWidth 32)
  else if o = 0x1001C then some (s, (s.clk.grains >>> 32).setWidth 32)
  else if 0xA0100 ≤ o ∧ o ≤ 0xA01FC then some (s, if act then troyWord s ((o - 0xA0100) / 4) else 0#32)
  else if 0xA0200 ≤ o ∧ o ≤ 0xA03FC then
    some (s, if act then BitVec.ofNat 32 (troyIdOf s ((o - 0xA0200) / 8) / (if o % 8 = 4 then 2 ^ 32 else 1)) else 0#32)
  else if o = 0xD0014 then some (if act then (charPop s, charHead s) else (s, 0#32))
  else if (txbAt o).isSome ∨ (rxbAt o).isSome then some (s, if act then chainBufRead s o else 0#32)
  else if 0xF0000 ≤ o ∧ o ≤ 0xF0014 then some (s, if act then mbxRead s o else 0#32)
  else if o = 0xF0108 then some (s, roleWord s f)
  else none

/-- A read in facet f's window: one whose fabric island is fenced answers its fence map and role only (02 R45). -/
def facetRead (s : State) (f o : Nat) : State × Word :=
  if !fabricLive s f then
    (s, if o = 0xF0100 ∨ o = 0xF0104 then regGet s (fKey f o) else if o = 0xF0108 then roleWord s f else 0#32)
  else match facetComputed s f o with
    | some r => r
    | none =>
      if isSealed (fKey f o) ∧ isHot (fKey f o) then (s, sealedRead s (fKey f o))
      else if isSealed (aKey o) ∧ !isHot (aKey o) then (s, if f = activeFacet s then sealedRead s (aKey o) else 0#32)
      else match findRow facetRows o with
        | some r => if present s f r.pres then rowRead s (rowKey f o r.pres) r else (s, 0#32)
        | none => (s, 0#32)

/-- A write of a loader's CTRL: the fields are stored, then LOAD and UNLOAD act. -/
def loaderWrite (s : State) (o mask : Nat) (w : Word) (load unload : State → State) : State :=
  let s := ctrlStore s (aKey o) mask w
  let s := if bitOf w 0 then load s else s
  if bitOf w 1 then unload s else s

/-- A write of STR_LANE_CFG: clearing ENABLE takes the lane DOWN, setting it trains the lane (19). -/
def laneCfgWrite (s : State) (l : Nat) (w : Word) : State :=
  let was := bitOf (regGet s (laneKey l 0xB0000 4)) 0
  let s := regSet s (laneKey l 0xB0000 4) (w &&& 3#32)
  if !bitOf w 0 then laneDown s l true
  else if was then s
  else if laneUsable s l then train s l else s

/-- A write of STR_LANE_CTRL (19). -/
def laneCtrlWrite (s : State) (f : Nat) (w : Word) : State :=
  let s := if bitOf w 0 then laneAck s (2 * f) else s
  let s := if bitOf w 1 then laneAck s (2 * f + 1) else s
  let s := if bitOf w 2 then laneRetrain s (2 * f) else s
  if bitOf w 3 then laneRetrain s (2 * f + 1) else s

/-- A write of a register present in the active controller's window only, that acts, if it is one. -/
def activeActs (s : State) (o : Nat) (w : Word) : Option State :=
  if o = 0x5000C then some (loaderWrite s o 0x3F00 w srchLoad srchUnload)
  else if o = 0x80014 then some (loaderWrite s o 0xF3F30 w tokLoad tokUnload)
  else if o = 0x90014 then some (loaderWrite s o 0x3F00 w id clpUnload)
  else if o = 0xD0004 then some (gainWrite s w)
  else if o = 0xD0010 then some (charCfgWrite s w)
  else if o = 0xD0018 then some (charTxWrite s w)
  else if o = 0xD0028 then some (if bitOf w 0 then clearCut s else s)
  else if (txbAt o).isSome ∨ (rxbAt o).isSome then some (chainBufWrite s o w)
  else if 0xF0000 ≤ o ∧ o ≤ 0xF0014 then some (mbxWrite s o w)
  else none

/-- A write of a register of every window that acts, if it is one. -/
def facetActs (s : State) (port f o : Nat) (w : Word) : Option State :=
  if o = 0x10 then
    some (let s := if bitOf w 0 then schedLoad s f else s; if bitOf w 1 then schedClear s else s)
  else if o = 0x10000 ∨ o = 0x10004 then some (pmaxWrite s f (decide (o = 0x10004)) w)
  else if o = 0x3010C then
    some (let s := if bitOf w 0 then jobStart s f port else s; if bitOf w 1 then stopJob s f 7 else s)
  else if o = 0xB0000 ∨ o = 0xB0004 then some (laneCfgWrite s (2 * f + (o - 0xB0000) / 4) w)
  else if o = 0xB0010 then some (laneCtrlWrite s f w)
  else none

/-- A write in facet f's window (02 R45, 25 R540). -/
def facetWrite (s : State) (port f o : Nat) (w : Word) : State :=
  if !fabricLive s f then s
  else match facetActs s port f o w, activeActs s o w with
    | some s', _ => s'
    | _, some s' => if f = activeFacet s then s' else s
    | _, _ =>
      if isSealed (fKey f o) ∧ isHot (fKey f o) then sealedWrite s (fKey f o) w
      else if isSealed (aKey o) ∧ !isHot (aKey o) then if f = activeFacet s then sealedWrite s (aKey o) w else s
      else match findRow facetRows o with
        | some r =>
          if r.rw = 0 ∨ !present s f r.pres then s
          else
            let k := rowKey f o r.pres
            let m := BitVec.ofNat 32 r.rw
            regSet s k (clampFacet o ((regGet s k &&& ~~~m) ||| (w &&& m)))
        | none => s

/-! ## The virtual function view (25 R543 to R545) -/

/-- TEN_SELF. -/
def tenSelf (s : State) (fn : FnId) : Word :=
  BitVec.ofNat 32 (hmkCode s.hmk.state * 2 ^ 29 + (if reopened s fn.tenant || s.hmk.draining then 2 ^ 28 else 0) +
    fn.port % 2 * 2 ^ 23 + fn.tenant % 128 * 2 ^ 16 + s.hmk.genLast.toNat)

/-- Slot n of kind k (0 vocabulary, 1 grammar, 2 index, 3 template, 4 troy) is assigned to a tenant in force. -/
def slotAssigned (s : State) (t k n : Nat) : Bool :=
  let nm : SlotName := match k with | 0 => .vocab n | 1 => .grammar n | 2 => .index n | 3 => .template n | _ => .troy n 0
  assignedTo (forceGet s (nameAssign nm)) t

/-- A new descriptor naming the slot would resolve. -/
def slotUsable (s : State) (t k n : Nat) : Bool :=
  slotAssigned s t k n && (match k with
    | 0 => (match look s.voc n with | some v => !v.unloading | none => false)
    | 1 => (match look s.grm n with | some v => !v.unloading | none => false)
    | 2 => (match look s.idx n with | some v => !v.unloading | none => false)
    | 3 => (match look s.tpl n with | some v => !v.unloading | none => false)
    | _ => decide ((troyOf s n).state = .ready) && (troyOf s n).unload.isNone)

/-- Bits of the numbers from `lo` up, 32 or fewer, that satisfy a test. -/
def bitsFrom (lo n : Nat) (p : Nat → Bool) : Nat := ((upto n).map (fun i => if p (lo + i) then 2 ^ i else 0)).sum

/-- TEN_SLOTS at an offset of the view. -/
def tenSlots (s : State) (t o : Nat) : Word :=
  if o = 0x600 then BitVec.ofNat 32 (bitsFrom 0 16 (slotAssigned s t 0) * 2 ^ 16 + bitsFrom 0 16 (slotUsable s t 0))
  else if o = 0x650 then BitVec.ofNat 32 (bitsFrom 0 4 (fun i => assignedTo (forceGet s (aKey (0x50400 + 64 * i))) t))
  else if 0x610 ≤ o ∧ o < 0x650 then
    let k := (o - 0x610) / 16 + 1
    let lo := if o % 8 = 4 then 32 else 0
    BitVec.ofNat 32 (bitsFrom lo 32 (if o % 16 < 8 then slotAssigned s t k else slotUsable s t k))
  else 0#32

/-- A tenant-path accumulator is read and cleared (R545). -/
def tenantCount (s : State) (k : Nat) : State × Word :=
  ({ s with xign := mapSet (fun _ => 0) s.xign k 0 }, BitVec.ofNat 32 (mapGet (fun _ => 0) s.xign k))

/-- A read in a virtual function's BAR0. -/
def viewRead (s : State) (fn : FnId) (o : Nat) : State × Word :=
  let t := fn.tenant
  if o ≤ 0xC ∨ o = 0x18 ∨ o = 0x1C then globalRead s fn.port o
  else if o = 0x20 then (s, tenSelf s fn)
  else if o = 0x100 ∨ o = 0x104 then (s, forceGet s (0x4D000 + 8 * t + (o - 0x100)))
  else if o = 0x108 then (s, regGet s (0x4E000 + 4 * t))
  else if o = 0x10C then (s, forceGet s (0x4C000 + 4 * t))
  else if o = 0x110 then tenantCount s t
  else if 0x200 ≤ o ∧ o ≤ 0x2FC then (s, forceGet s (0x50000 + 256 * t + (o - 0x200)))
  else if 0x400 ≤ o ∧ o ≤ 0x47C then (s, forceGet s (0x40000 + 128 * t + (o - 0x400)))
  else if 0x480 ≤ o ∧ o ≤ 0x4FC then (s, regGet s (0x44000 + 128 * t + (o - 0x480)))
  else if 0x500 ≤ o ∧ o ≤ 0x51C then tenantCount s (128 * (1 + (o - 0x500) / 4) + t)
  else if 0x600 ≤ o ∧ o ≤ 0x650 then (s, tenSlots s t o)
  else if 0x1000 ≤ o ∧ o ≤ 0x107C then (s, regGet s (0x48000 + 128 * t + (o - 0x1000)))
  else if 0x2000 ≤ o ∧ o < 0x3000 then ringRead s fn (o - 0x2000)
  else if 0x3000 ≤ o ∧ o ≤ 0x301C then (s, evtSetupRead s fn (o - 0x3000))
  else (s, 0#32)

/-- A write in a virtual function's BAR0: groups, ring set-up and event ring set-up; everything else is read-only (R544). -/
def viewWrite (s : State) (fn : FnId) (o : Nat) (w : Word) : State :=
  if 0x1000 ≤ o ∧ o ≤ 0x107C then groupWrite s fn.tenant ((o - 0x1000) / 8) (decide (o % 8 = 4)) w
  else if 0x2000 ≤ o ∧ o < 0x3000 then ringWrite s fn (o - 0x2000) w
  else if 0x3000 ≤ o ∧ o ≤ 0x301C then evtSetupWrite s fn (o - 0x3000) w
  else s

/-! ## BAR2: MSI-X table and PBA (16 R355) -/

/-- A vector of a function. -/
def vecOf (s : State) (fn : FnId) (v : Nat) : Vec := mapGet (fun _ => vecReset) (funcOf s fn).vecs v

/-- A read in BAR2: four words to a vector from 0, pending bits from 0x8000. -/
def bar2Read (s : State) (fn : FnId) (o : Nat) : Word :=
  if o < 0x8000 then
    let v := vecOf s fn (o / 16)
    match o % 16 / 4 with
    | 0 => v.addr.setWidth 32
    | 1 => (v.addr >>> 32).setWidth 32
    | 2 => v.data
    | _ => if v.masked then 1#32 else 0#32
  else if o < 0x8100 then BitVec.ofNat 32 (bitsFrom ((o - 0x8000) / 4 * 32) 32 (fun v => (vecOf s fn v).pba))
  else 0#32

/-- A vector with one word of its table entry replaced. -/
def vecWrite (v : Vec) (word : Nat) (w : Word) : Vec :=
  match word with
  | 0 => { v with addr := (v.addr &&& 0xFFFFFFFF00000000#64) ||| w.setWidth 64 }
  | 1 => { v with addr := (v.addr &&& 0xFFFFFFFF#64) ||| (w.setWidth 64 <<< 32) }
  | 2 => { v with data := w }
  | _ => { v with masked := bitOf w 0 }

/-- A write in BAR2; a vector that is pending and no longer masked sends its message. -/
def bar2Write (s : State) (fn : FnId) (o : Nat) (w : Word) : State :=
  if 0x8000 ≤ o then s
  else
    let f := funcOf s fn
    releasePending (setFunc s fn
      { f with vecs := mapSet (fun _ => vecReset) f.vecs (o / 16) (vecWrite (vecOf s fn (o / 16)) (o % 16 / 4) w) }) fn

/-! ## Accesses (16 R351, 02 R52) -/

/-- Aligned accesses of four bytes; any other is malformed. -/
def wellSized (off size : Nat) : Bool := decide (size = 4) && decide (off % 4 = 0)

/-- A malformed access counts in HST_BAD_ACCESS of its port. -/
def badAccess (s : State) (port : Nat) : State := bump s (fKey (portFacet port) 0xC0010) 0 32 1

/-- A read in the physical function's BAR0 (00 R9). -/
def ownerRead (s : State) (port off : Nat) : State × Word :=
  if off < 0x100000 then globalRead s port off
  else if off < 0x900000 then facetRead s ((off - 0x100000) / 0x100000) (off % 0x100000)
  else (s, 0#32)

/-- A write in the physical function's BAR0. -/
def ownerWrite (s : State) (port off : Nat) (w : Word) : State :=
  if off < 0x100000 then globalWrite s port off w
  else if off < 0x900000 then facetWrite s port ((off - 0x100000) / 0x100000) (off % 0x100000) w
  else s

/-- Offset in the assay block of a dead package's mailbox that a port serves, if an access names it (23 R525). -/
def deadOffset (port tenant bar off : Nat) : Option Nat :=
  if tenant = 0 ∧ bar = 0 ∧ fKey (portFacet port) 0xF0000 ≤ off ∧ off ≤ fKey (portFacet port) 0xF0014 then
    some (off - facetBase (portFacet port)) else none

/-- A well-formed read. -/
def readBar (s : State) (fn : FnId) (bar off : Nat) : State × Word :=
  if bar = 2 then (s, bar2Read s fn off)
  else if bar ≠ 0 then (s, 0#32)
  else if fn.tenant = 0 then ownerRead s fn.port off
  else viewRead s fn off

/-- A well-formed write. -/
def writeBar (s : State) (fn : FnId) (bar off : Nat) (w : Word) : State :=
  if bar = 2 then bar2Write s fn off w
  else if bar ≠ 0 then s
  else if fn.tenant = 0 then ownerWrite s fn.port off w
  else viewWrite s fn off w

/-- A register read through a function: on a dead package every offset but the mailbox reads 0 (02 R52); a function without a path
gets no answer. -/
def regRead (s : State) (fn : FnId) (bar off size : Nat) : State :=
  if isDead s ∧ fnEnabled s fn then
    emit s (.regValue fn bar off (if wellSized off size then match deadOffset fn.port fn.tenant bar off with
      | some o => mbxRead s o | none => 0#32 else 0#32))
  else if !reachable s fn then s
  else if !wellSized off size then emit (badAccess s fn.port) (.regValue fn bar off 0#32)
  else
    let r := readBar s fn bar off
    emit r.1 (.regValue fn bar off r.2)

/-- A register write through a function. -/
def regWrite (s : State) (fn : FnId) (bar off size : Nat) (w : Word) : State :=
  if isDead s ∧ fnEnabled s fn then
    if wellSized off size then match deadOffset fn.port fn.tenant bar off with
      | some o => mbxWrite s o w | none => s
    else s
  else if !reachable s fn then s
  else if !wellSized off size then badAccess s fn.port
  else writeBar s fn bar off w

/-- REGISTER_WRITE (00 R10, R13; 16 R351). -/
def execRegisterWrite (port tenant bar off size : Nat) (w : Word) (s : State) : Result :=
  .next (regWrite s ⟨port, tenant⟩ bar off size w)

/-- REGISTER_READ (00 R10, R12; 25 R545). -/
def execRegisterRead (port tenant bar off size : Nat) (s : State) : Result :=
  .next (regRead s ⟨port, tenant⟩ bar off size)

end Sys2Proof.Machine
end

