-- ==== Sys2Proof/Machine/Pipeline.lean ====
section
/-! DEFINITION. Pipeline: PIPELINE, its plan and input, and its stages (01 R15 to R33). -/
namespace Sys2Proof.Machine

/-! ## Checks before the first stage (R16 to R20) -/

/-- FIRST_STAGE. -/
def pipeFirst (r : Request) : Nat := bodyB r 28 % 16
/-- LAST_STAGE. -/
def pipeLast (r : Request) : Nat := bodyB r 28 / 16

/-- A PIPELINE body that breaks R16. -/
def pipeBad (r : Request) : Bool :=
  decide (bodyLe r 24 4 = 0) || decide (65536 < bodyLe r 24 4) || decide (7 < pipeLast r) || decide (pipeLast r < pipeFirst r) ||
  decide (2 ≤ bodyB r 29) || !bodyZero r 30 2 || decide (bodyLe r 32 8 % 64 ≠ 0) || decide (bodyLe r 40 2 = 0) || decide (16 < bodyLe r 40 2) ||
  !bodyZero r 42 2 || decide (bodyLe r 44 8 % 64 ≠ 0) || decide (bodyLe r 52 4 < 64) || !bodyZero r 56 8

/-- A stage of a kind that takes a partition group. -/
def groupStage (n : Nat) : Bool := n == 2 || n == 5 || n == 7

/-- A record stands at its place in the plan (R18). PACK and PREFILL take no extension (17 Table - Opcodes). -/
def recordOk (n : Nat) (x : List Byte × Option (List Byte)) : Bool :=
  let d := x.1
  (rdB d 0 == n) && decide (rdB d 1 ≤ 1) && decide (rdB d 2 < 16) && (groupStage n || rdB d 2 == 0) && zeroAt d 3 13 &&
  (x.2.isNone || decide (n < 6))

/-- Units that a plan's records fill. -/
def planUnits (xs : List (List Byte × Option (List Byte))) : Nat := (xs.map (fun x => if x.2.isSome then 2 else 1)).sum

/-- The plan holds one record per stage, in order, and nothing else (R18). -/
def planShape (plan : List Byte) (first last : Nat) : Bool :=
  let xs := planRecords 9 plan
  decide (xs.length = last + 1 - first) && decide (64 * planUnits xs = plan.length) &&
  (xs.all (fun x => x.2.isNone || decide ((x.2.getD []).length = 64))) &&
  ((upto xs.length).all (fun i => match xs[i]? with | some x => recordOk (first + i) x | none => false))

/-- What the chapters of the stages require of a plan (09 R187, 10 R215, 11 R236, 12 R273, 13 R290, 14 R303). -/
def planRules (p : Pipeline) (inputLen : Nat) : Bool :=
  let has := fun n => decide (p.first ≤ n) && decide (n ≤ p.last)
  let d := fun n => match stageRecord p n with | some x => x.1 | none => []
  let extZero := match stageRecord p 4 with | some (_, some e) => zeroAt e 0 64 | _ => true
  !(has 0 && decide (0 < p.last) && nbit (rdB (d 0) 28) 1) &&
  !(has 1 && (decide (64 ≤ rdB (d 1) 28) || nbit (rdB (d 1) 29) 5)) &&
  !(has 2 && (decide (rdLe (d 2) 28 2 ≠ 1) || decide (rdLe (d 2) 48 8 ≠ 0))) &&
  !(has 3 && has 4 && !(zeroAt (d 4) 16 48 && extZero)) &&
  !(has 3 && decide (4 < p.last) && decide (rdB (d 3) 37 % 16 ≠ 0)) &&
  !(decide (p.first = 7) && decide (inputLen % 4 ≠ 0))

/-- TOKENS of a stage input block. -/
def blkTokens (b : List Byte) : Nat := rdLe b 0 4
/-- MAIN_LEN. -/
def blkMainLen (b : List Byte) : Nat := rdLe b 4 4
/-- ENTRIES. -/
def blkEntries (b : List Byte) : Nat := rdLe b 8 4
/-- FMT. -/
def blkFmt (b : List Byte) : Nat := rdB b 12
/-- The main section. -/
def blkMain (b : List Byte) : List Byte := b.drop (64 + roundUp (4 * blkTokens b) 64)

/-- A stage input block that breaks R17, whatever is named. -/
def blockShape (b : List Byte) (first last : Nat) : Bool :=
  let n := blkTokens b
  let e := blkEntries b
  decide (64 ≤ b.length) && decide (n ≤ 8192) && decide (blkFmt b ≤ 3) && zeroAt b 13 51 &&
  decide (b.length = 64 + roundUp (4 * n) 64 + blkMainLen b) && zeroAt b (64 + 4 * n) (roundUp (4 * n) 64 - 4 * n) &&
  (if 4 ≤ first then decide (16 * e ≤ blkMainLen b) && (first != 5 || (decide (1 ≤ e) && decide (e ≤ 4096))) && (first != 6 || decide (e ≤ 4096))
   else e == 0) &&
  !(decide (n = 0) && decide (first ≤ 5) && decide (5 ≤ last))

/-- RESCORE of a RERANK record. -/
def recRescore (d : List Byte) : Bool := nbit (rdB d 60) 4

/-- The blob of the index that a record names at an offset. -/
def recIndex (s : State) (d : List Byte) (off : Nat) : Option (List Byte) := (look s.idx (rdLe d off 4)).map (·.blob)

/-- MAIN_LEN and FMT of a block are those of its first stage (R17, Table - Main section by first stage). A query vector's length
follows the index of the record that uses it, a token row's the encoder image. -/
def blockMain (s : State) (r : Request) (p : Pipeline) (b : List Byte) : Bool :=
  let ml := blkMainLen b
  let d := fun n => match stageRecord p n with | some x => x.1 | none => []
  let vec := fun (blob : List Byte) => ixDim blob * fmtSize (blkFmt b)
  match p.first with
  | 1 => (blkFmt b == 0) && (ml % 4 == 0)
  | 2 => (blkFmt b == 0) && (match imageFor s r (rdLe (d 2) 44 4) with
      | .ok im => if tyKind im.md ≠ 0 then true else
          let rb := tyHidden im.md * fmtSize (tyEmb im.md)
          decide (rb ≤ ml) && (ml % rb == 0)
      | .error _ => true)
  | 3 => (match recIndex s (d 3) 24 with | some x => decide (ml = vec x) | none => true)
  | 6 => (blkFmt b == 0) && decide (ml = 16 * blkEntries b)
  | _ =>
    let e := 16 * blkEntries b
    if 5 ≤ p.last ∧ recRescore (d 5) then
      zeroAt (blkMain b) e (roundUp e 64 - e) && (match recIndex s (d 5) 52 with | some x => decide (ml = roundUp e 64 + vec x) | none => true)
    else (blkFmt b == 0) && decide (ml = e)

/-- A pool of this package that a record names exists; a pool elsewhere is judged there (14 R311). -/
def poolHeld (s : State) (d : List Byte) : Bool :=
  let w := rdLe d 40 4
  !nbit w 31 || pkgNo s != some (nfld w 24 6) || (poolNamed s (nfld w 16 7) (nfld w 0 4)).isSome

/-- Every handle and group of a record resolves for the tenant (R20). An image that is loading, or lost, is met by its stage. -/
def recordResolves (s : State) (r : Request) (n : Nat) (d : List Byte) : Bool :=
  let troyOk := fun (h : Nat) => match imageFor s r h with | .error .notFound => false | _ => true
  let ixOk := fun (h : Nat) => (indexOf s r h).isSome
  let groupOk := !groupStage n || decide (groupOf r (rdB d 2 % 16) ≠ 0)
  groupOk && (match n with
    | 0 => (vocOf s r (rdB d 28 / 16)).isSome
    | 2 => troyOk (rdLe d 44 4)
    | 3 => ixOk (rdLe d 24 4)
    | 5 => ixOk (rdLe d 52 4) && (rdLe d 56 4 == 0 || troyOk (rdLe d 56 4))
    | 6 => ixOk (rdLe d 44 4) && (templateOf s r (rdB d 60 % 64)).isSome
    | 7 => troyOk (rdLe d 28 4) && poolHeld s d
    | _ => true)

/-- Every name of a plan resolves. -/
def planResolves (s : State) (r : Request) (p : Pipeline) : Bool :=
  (rangeFrom p.first (p.last + 1 - p.first)).all (fun n => match stageRecord p n with
    | some x => recordResolves s r n x.1
    | none => false)

/-! ## Result (R25, R27, R28, 17 R380) -/

/-- The 64-byte result header. -/
def resultHeader (p : Pipeline) : List Byte :=
  p.statuses.flatMap (leBytes 1) ++ leBytes 1 p.run ++ leBytes 3 0 ++ leBytes 4 p.candidates ++ p.grains.flatMap (leBytes 4) ++
  leBytes 4 p.passages ++ leBytes 4 p.packed ++ leBytes 8 0

/-- Words of a PIPELINE's completion. -/
def pipeWords (p : Pipeline) : List Nat := [p.run, p.candidates, p.passages, p.packed]

/-- The completion status by the stages' statuses (R28). -/
def pipeStatus (p : Pipeline) : Status :=
  let codes := p.statuses.map (fun c => (statusOfCode c).getD .ok)
  match codes.find? isFailure with
  | some st => st
  | none => (codes.find? (fun st => st != .ok)).getD .ok

/-- Ends a PIPELINE with a status: the header, then on success the output, then the completion. -/
def pipeClose (s : State) (tag : Nat) (r : Request) (p : Pipeline) (st : Status) : State :=
  let a := bodyLe r 44 8
  let short := !isFailure st && decide (bodyLe r 52 4 - 64 < p.outLen)
  let st := if short then .resultShort else st
  let s := writeOut s r false a (resultHeader p)
  let s := if isFailure st then s else p.out.foldl (fun s x => writeOut s r false (a + 64 + x.1) x.2) s
  finish s tag st (pipeWords p)

/-- A pipeline before its first stage. -/
def pipeNew (first last : Nat) (plan input : List Byte) : Pipeline :=
  { plan := plan, input := input, first := first, last := last, next := first, statuses := List.replicate 8 0, run := 0, candidates := 0,
    grains := List.replicate 8 0, passages := 0, packed := 0, vocTag := 0, toks := [], rows := [], query := [], qfmt := 0, cands := [],
    prompt := [], out := [], outLen := 0, done := none, began := 0, streams := none, scanned := none, slots := [], leads := none }

/-! ## Stages (R19, R22 to R26) -/

/-- The group of a stage: its record's. -/
def stageGroup (p : Pipeline) (n : Nat) : Nat := match stageRecord p n with | some x => rdB x.1 2 % 16 | none => 0

/-- What a stage makes: the pipeline with it, and its status. -/
abbrev Staged := Reading (Pipeline × Status)

/-- The pipeline with an output in one piece. -/
def Pipeline.withOut (p : Pipeline) (d : List Byte) : Pipeline := { p with out := [(0, d)], outLen := d.length }

/-- A body without the link fields of TOKENIZE. -/
def unlinkTokenize (b : List Byte) : List Byte :=
  setAt (blank (blank b 0 12) 16 12) 12 (BitVec.ofNat 8 (rdB b 12 / 16 * 16 + rdB b 12 % 4))

/-- Stage 0 on the token unit of facet f (09 R184, R187, R188): OUT_LEN is a link field, so nothing is cut. -/
def stage0 (s : State) (r : Request) (p : Pipeline) (f : Nat) : Staged :=
  let r := { r with body := unlinkTokenize r.body }
  if tokenizeBad r then (s, .fail .badField)
  else
    let strictBit := rdB (extOf r) 0 % 2
    match vocOf s r (bodyB r 28 / 16) with
    | none => (s, .fail .notFound)
    | some v =>
      match engineFor s 3 f with
      | none => (s, .wait)
      | some (some st) => (s, .fail st)
      | some none =>
        let tp : TokParams := ⟨nbit (bodyB r 28) 1, nbit (bodyB r 29) 0, nbit (bodyB r 29) 1, extField r 1 strictBit 0 == 1, false⟩
        Got.andThen (tokenizeCore s r.tenant v tp (2 ^ 32) p.input) (fun s o =>
          let d := tokenBytes tp.offsets s.freeCount o.entries
          let s := countFallback { s with freeCount := s.freeCount + o.entries.length } f o.fallback
          (s, .ok ({ p.withOut d with toks := o.entries.map (·.1), vocTag := v.tag }, .ok)))

/-- A body without the link fields of GATHER. -/
def unlinkGather (b : List Byte) : List Byte :=
  setAt (blank (blank b 0 12) 16 12) 12 (BitVec.ofNat 8 (rdB b 12 / 64 * 64 + rdB b 12 % 16))

/-- The request of a pipeline's gather stage. -/
def gatherOf (r : Request) (p : Pipeline) : Request := let q := stageRequest r p 1; { q with body := unlinkGather q.body }

/-- Stage 1 starts (10 R215): the query tokens, or the main section's indices, and its row reads, which wait for the bounds on them like
any GATHER's (R26). -/
def stage1Open (s : State) (tag : Nat) (r : Request) (p : Pipeline) : State :=
  if (look s.gathers tag).isSome then s
  else
    let ids := if p.first = 1 then idsOf (blkMain p.input) else p.toks
    let x := gatherInputs s r (fun s => (s, .ok ids))
    match x.2 with
    | .wait => s
    | .fail st => finishStage x.1 tag [] st
    | .ok g => gatherOpen x.1 tag r g

/-- Stage 1 ends once its rows have come (10 R215). Slots are handed on without their padding. -/
def stage1 (s : State) (tag : Nat) (r : Request) (p : Pipeline) : Staged :=
  match look s.gathers tag with
  | none => (s, .wait)
  | some j =>
    if !(j.queue.isEmpty && j.flying.isEmpty) then (s, .wait)
    else
      let g := j.input
      let rep := replicaRead s j
      let counted := gatherCounts { s with gathers := remove s.gathers tag } r g rep
      match poisonedSlot s r j with
      | some (_, o) => (counted, .fail (poisonStatus o))
      | none =>
        let st := slotStride r g.table
        let outs := (gatherOut s r g rep (capturedBytes j.rows)).map (·.1)
        let rows := outs.flatMap (fun x => x.take (g.table.outDim * gatherElemBytes r g.table))
        let dropped := (g.idx.filter (fun i => !g.table.valid i)).length
        let p := { p with out := ((upto outs.length).zip outs).map (fun x => (x.1 * st, x.2)), outLen := outs.length * st, rows := rows }
        (counted, .ok (p, if dropped = 0 then .ok else .droppedIndices))

/-- Stage 2 (11 R236). -/
def stage2 (s : State) (tag : Nat) (r : Request) (p : Pipeline) : Staged :=
  let rows := if p.first = 2 then blkMain p.input else p.rows
  Got.andThen (embedStage s tag r (stageGroup p 2) rows) (fun s e =>
    (s, .ok ({ p with out := [(0, e.1)], outLen := roundUp e.1.length 64, query := e.1, qfmt := bodyB r 30 / 16 % 4 }, e.2.2)))

/-- A body without the link fields of SELECT. -/
def unlinkSelect (b : List Byte) : List Byte :=
  setAt (blank (blank b 0 12) 20 20) 16 (BitVec.ofNat 8 (rdB b 16 % 16))

/-- Stage 4 on a row of the stage input block (13 R290). -/
def stage4 (s : State) (r : Request) (p : Pipeline) : Staged :=
  let r := { r with body := unlinkSelect r.body }
  if selectBad r then (s, .fail .badField)
  else match selectUnits s r with
    | .error st => (s, .fail st)
    | .ok us => match scratchCheck s r us.length with
      | some st => (s, .fail st)
      | none => match entriesFrom (blkMain p.input) (blkEntries p.input) with
        | none => (s, .fail .badField)
        | some row =>
          let k := bodyLe r 28 4
          let asc := nbit (bodyB r 32) 3
          let out := bestK asc k row
          let s := spoilScratch (selectCounts s us row asc k) r us.length
          (s, .ok ({ p.withOut (entriesBytes out) with cands := out, candidates := out.length }, if out.length < k then .shortfall else .ok))

/-- Candidates that a stage takes: those of the stage before, or of the stage input block. -/
def stageCands (p : Pipeline) (n : Nat) : Option (List Entry) :=
  if p.first = n then entriesFrom (blkMain p.input) (blkEntries p.input) else some p.cands

/-- Stage 5 (11 R239). -/
def stage5 (s : State) (tag : Nat) (r : Request) (p : Pipeline) : Staged :=
  match stageCands p 5 with
  | none => (s, .fail .badField)
  | some cs =>
    Got.andThen (rerankStage s tag r (stageGroup p 5) cs p.toks p.query p.qfmt) (fun s e =>
      (s, .ok ({ p.withOut (entriesBytes e.1) with cands := e.1 }, e.2.2)))

/-- Facet whose clasp unit packs (14 R300). -/
def packFacet (s : State) (r : Request) (p : Pipeline) : Nat :=
  if p.first ≤ 5 then groupFacet (groupOf r (stageGroup p 5)) else if p.last = 7 then groupFacet (groupOf r (stageGroup p 7)) else lowFacet s r.tenant

/-- Stage 6 (14 R301). -/
def stage6 (s : State) (tag : Nat) (r : Request) (p : Pipeline) : Staged :=
  match stageCands p 6 with
  | none => (s, .fail .badField)
  | some cs =>
    Got.andThen (packStage s tag r cs p.toks (if p.first = 0 then some p.vocTag else none) (packFacet s r p)) (fun s k =>
      let out := packPieces r k
      let len := (out.map (fun x => x.1 + x.2.length)).foldl max 0
      (s, .ok ({ p with out := out, outLen := len, prompt := k.toks, passages := k.words.getD 1 0, packed := k.toks.length }, k.st)))

/-- The failure that a step of the stage under way has met: in its row reads, its matrix work, its search or its prefill (R25). -/
def stageBroke (p : Pipeline) : Option Status := match p.done with | some (_, st) => if isFailure st then some st else none | none => none

/-- A stage that has no steps of its own runs when it completes. -/
def stageRun (s : State) (tag : Nat) (r : Request) (p : Pipeline) (unit : Nat) : Staged :=
  let q := stageRequest r p p.next
  match stageBroke p with
  | some st => (s, .fail st)
  | none => match p.next with
  | 0 => stage0 s q p unit
  | 1 => stage1 s tag (gatherOf r p) p
  | 2 => stage2 s tag q p
  | 4 => stage4 s q p
  | 5 => stage5 s tag q p
  | 6 => stage6 s tag q p
  | _ => match p.done with
    | none => (s, .wait)
    | some (_, st) =>
      if p.next = 3 then (s, .ok (p.withOut (entriesBytes p.cands), st))
      else (s, .ok ({ p with out := [], outLen := 0 }, st))

/-- The next stage starts: gather, search and prefill go on in steps of their own. -/
def stageBegin (s : State) (tag : Nat) : State :=
  match look s.requests tag with
  | none => s
  | some r => match r.pipe with
    | none => s
    | some p =>
      let q := stageRequest r p p.next
      if p.next = 1 then stage1Open s tag (gatherOf r p) p
      else if p.next = 3 then
        (if p.first = 3 then searchStage s tag q (blkMain p.input) (blkFmt p.input) else searchStage s tag q p.query p.qfmt)
      else if p.next = 7 then prefillStage s tag q (stageGroup p 7) (if p.first = 7 then idsOf p.input else p.prompt)
      else s

/-- The record of a stage's end: its status, its bit and its grains (R27). -/
def markStage (p : Pipeline) (n : Nat) (st : Status) (grains : Nat) : Pipeline :=
  { p with statuses := setAt p.statuses n (statusCode st), run := p.run ||| 2 ^ n, grains := setAt p.grains n grains }

/-- Stage 4's own status when stage 3 ran too (12 R276): the two are one SEARCH. -/
def pairStatus (st : Status) : Status := if isFailure st ∨ st = .shortfall then st else .ok

/-- Grains of a stage from its first input to its final output (R27; 03 R68). -/
def grainsSince (s : State) (g : Nat) : Nat := s.clk.grains.toNat - g

/-- Stages 3 and 4 run as one SEARCH (12 R276). -/
def pairRuns (p : Pipeline) : Bool := decide (p.next = 3) && decide (4 ≤ p.last)

/-- The records of the stage that has ended. Of the pair, stage 3 goes from the query to the last score and stage 4 from the first score on;
a search that fails leaves stage 4 not run (R25; note 49), a mismatch of its selection fails stage 4 alone. -/
def markEnd (s : State) (p : Pipeline) (st : Status) (selection : Bool) : Pipeline :=
  let now := s.clk.grains.toNat
  if !pairRuns p then markStage p p.next st (grainsSince s p.began)
  else
    let searched := p.scanned.getD now - p.began
    let selected := grainsSince s (p.streams.getD now)
    if selection then markStage (markStage p 3 .ok searched) 4 st selected
    else if isFailure st then markStage p 3 st (grainsSince s p.began)
    else markStage (markStage p 3 st searched) 4 (pairStatus st) selected

/-- A stage has ended: the next one starts, or the pipeline ends (R25, R28). Stages 3 and 4 end together (12 R276, note 49). -/
def stageEnd (s : State) (tag : Nat) (r : Request) (p : Pipeline) (st : Status) (selection : Bool) : State :=
  let n := if pairRuns p then 4 else p.next
  let p := markEnd s p st selection
  let p := { p with done := none, next := n + 1, began := s.clk.grains.toNat, slots := if n = 5 && !isFailure st then [] else p.slots }
  let s := { setRequest s tag { r with pipe := some p } with mtx := remove s.mtx tag }
  if isFailure st then pipeClose s tag r p (pipeStatus p)
  else if n = p.last then pipeClose s tag r p (pipeStatus p)
  else stageBegin s tag

/-- The scratch areas of a search inside a pipeline that prefetches candidates hold values that the spec does not give (note 27). -/
def spoilSlots (s : State) (r : Request) (p : Pipeline) : State :=
  if p.next ≠ 3 ∨ p.last < 5 then s
  else
    let q := stageRequest r p 3
    if bodyLe q 30 2 = 65535 ∨ bodyLe q 56 8 = 0 then s
    else match scratchTable s r.tenant (memRead s (bodyLe q 56 8) 272) with
      | none => s
      | some sc => ((upto 8).zip sc).foldl (fun s x =>
          if x.2.2 = 0 ∨ bitOf (regGet s (fKey x.1 0x50040)) 9 then s else spoilBytes s x.2.1 x.2.2) s

/-- Slots of candidates that did not survive selection are discarded (12 R264); the others wait for the stage that consumes them. -/
def dropLosers (s : State) (p : Pipeline) : State × Pipeline :=
  if p.next ≠ 3 then (s, p)
  else
    let kept := fun (c : CandSlot) => p.cands.any (fun e => e.src == 0 && e.id == c.id)
    (countSlots s (p.slots.filter (fun c => !kept c)), { p with slots := p.slots.filter kept })

/-- Selection units that take part in the stage under way. -/
def stageSelects (s : State) (r : Request) (p : Pipeline) (u : CheckedUnit) : Bool :=
  match u with
  | .selection f => if p.next = 4 then (match selectUnits s (stageRequest r p 4) with | .ok us => us.contains f | .error _ => false)
      else pairRuns p && engineLive s f 1 && fabricLive s f
  | _ => false

/-- What the fabric did to the flits in which the stage took its input from the stage before (08 R164 to R168, R176): a flit that it
spoiled fails the stage (08 R171). The address of on-chip data is not stated (note 153). -/
def stageFabric (s : State) (r : Request) (p : Pipeline) (fab : Nat × FabricSeen) : State × Bool :=
  if p.next = p.first ∨ 8 ≤ fab.1 then (s, false)
  else
    let a := fun (k : Nat) => (Config.freeValue (s.freeCount + k)).toNat % 2 ^ 48
    (fabricMeets { s with freeCount := s.freeCount + fab.2.bad.foldl max 0 + 1 } fab.1 fab.2 fab.2.bad false a (some r.tenant), !fab.2.bad.isEmpty)

/-- A stage makes its output final (R22). `unit` is the facet of the token unit that runs stage 0; under register-only service a stage does
no work (02 R51). -/
def stageComplete (s : State) (tag : Nat) (r : Request) (p : Pipeline) (check : Option Mismatch) (unit : Nat) (fab : Nat × FabricSeen) : State :=
  let x := stageRun s tag r p unit
  match x.2 with
  | .wait => stageBegin s tag
  | .fail st => stageEnd x.1 tag r p (serviceStatus s st) false
  | .ok (p', st) =>
    if noService s then stageEnd s tag r p .noPartition false
    else
      let f := stageFabric x.1 r p fab
      if f.2 then stageEnd f.1 tag r p .poisonFabric false
      else
        let c := meetCheck f.1 (stageSelects f.1 r p) check
        if c.2 then stageEnd c.1 tag r p' .computeCheck true
        else
          let d := dropLosers (spoilSlots c.1 r p) p'
          stageEnd d.1 tag r d.2 st false

/-- STAGE_COMPLETE (R22). -/
def execStageComplete (tag : Nat) (check : Option Mismatch) (unit : Nat) (fabric : Nat × FabricSeen) (s : State) : Result :=
  .next (match running s tag 0x20 with
    | some r => match r.pipe with | some p => stageComplete s tag r p check unit fabric | none => s
    | none => s)

/-- GATHER_ROW_ARRIVAL (10 R209): a row of a GATHER, or of a pipeline's stage 1. -/
def execGatherRowArrival (tag : Nat) (x : RowArrival) (s : State) : Result :=
  .next (match running s tag 0x12, running s tag 0x20 with
    | some r, _ => rowArrival s tag r true x
    | none, some r => (match r.pipe with | some p => if p.next = 1 then rowArrival s tag (gatherOf r p) false x else s | none => s)
    | none, none => s)

/-! ## PIPELINE (R16 to R21) -/

/-- A pipeline fails before its first stage, on R17, R18, R20, register-only service or a read of its plan or input: the header says that
none ran. A body that breaks R16 is refused with no header, its RESULT_ADDR being no field to trust; the spec says neither (note 148). -/
def pipeRefused (s : State) (tag : Nat) (r : Request) (st : Status) : State :=
  pipeClose s tag r (pipeNew (pipeFirst r) (pipeLast r) [] []) st

/-- The input of the first stage arrived poisoned: that stage fails (08 R171). -/
def pipePoisoned (s : State) (tag : Nat) (r : Request) (p : Pipeline) (st : Status) : State :=
  pipeClose s tag r (markStage p p.first st 0) st

/-- What the input hands to later stages before any stage has run (R17). -/
def pipeInput (p : Pipeline) : Pipeline :=
  let b := p.input
  if p.first = 0 ∨ p.first = 7 then p
  else
    let v := roundUp (16 * blkEntries b) 64
    { p with
      toks := idsOf (slice b 64 (4 * blkTokens b)), qfmt := blkFmt b,
      query := if p.first = 3 then blkMain b else if p.first = 4 ∨ p.first = 5 then (blkMain b).drop v else [] }

/-- The checks on what was read, then the first stage (R17, R18, R20, R51). Which status wins where several apply is not stated; the order here is
the plan and the block's own shape, then names, then service, then the main section's length, which needs the named tables (note 149). -/
def pipeChecked (s : State) (tag : Nat) (r : Request) (plan : List Byte) (input : Got (List Byte)) : State :=
  let p := pipeNew (pipeFirst r) (pipeLast r) plan (match input with | .ok b => b | _ => [])
  let blk := decide (1 ≤ p.first) && decide (p.first ≤ 6)
  let bad : Bool := match input with | .ok b => blk && !blockShape b p.first p.last | _ => false
  if !planShape plan p.first p.last ∨ !planRules p (bodyLe r 24 4) ∨ bad then pipeRefused s tag r .badPlan
  else if !planResolves s r p then pipeRefused s tag r .notFound
  else if noService s then pipeRefused s tag r .noPartition
  else match input with
    | .wait => s
    | .fail st => pipePoisoned s tag r p st
    | .ok b =>
      if blk && !blockMain s r p b then pipeRefused s tag r .badPlan
      else stageBegin (setRequest s tag { r with pipe := some { pipeInput p with began := s.clk.grains.toNat } }) tag

/-- The extensions of a plan's records are fetched with it: _X fields that the tenant's mask ignores count (R13; 18 R400). -/
def notePlan (s : State) (r : Request) (plan : List Byte) : State :=
  (planRecords 9 plan).foldl (fun s x => noteExt s r.tenant r.expert (stageOp (rdB x.1 0)) x.2) s

/-- A PIPELINE reads its plan and its input, and starts (R21). -/
def pipeStart (s : State) (tag : Nat) (r : Request) : State :=
  if r.pipe.isSome then s
  else if pipeBad r then finish s tag .badPlan []
  else
    let y := hostGet s r (bodyLe r 32 8) (64 * bodyLe r 40 2)
    match y.2 with
    | .wait => keepReads s y.1
    | .fail st => pipeRefused s tag r st
    | .ok plan =>
      let x := readAt s r (nbit (bodyB r 29) 0) (bodyLe r 16 8) (bodyLe r 24 4)
      match x.2 with
      | .wait => keepReads s x.1
      | .fail st => let s := notePlan x.1 r plan; if 0xA0 ≤ statusCode st then pipeChecked s tag r plan (.fail st) else pipeRefused s tag r st
      | .ok b => pipeChecked (notePlan x.1 r plan) tag r plan (.ok b)

/-- PIPELINE (R16). -/
def execPipeline (tag : Nat) (s : State) : Result := .next (match running s tag 0x20 with | some r => pipeStart s tag r | none => s)

end Sys2Proof.Machine
end

