-- ==== Sys2Proof/Machine/Dispatch.lean ====
section
/-! DEFINITION. Dispatch: one arm per command, each one call of that command's meaning. -/
namespace Sys2Proof.Machine

def exec (i : Instr) (s : State) : Host.Outcome State Fault Refusal :=
  match i with
  | .pwrGoodRise straps boot => Sys2Proof.Machine.execPwrGoodRise straps boot s
  | .pwrGoodFall => Sys2Proof.Machine.execPwrGoodFall s
  | .packageReset facet boot => Sys2Proof.Machine.execPackageReset facet boot s
  | .imageUpdate => Sys2Proof.Machine.execImageUpdate s
  | .imageUpdateDone res boot => Sys2Proof.Machine.execImageUpdateDone res boot s
  | .heartbeat => Sys2Proof.Machine.execHeartbeat s
  | .heartbeatTimeout => Sys2Proof.Machine.execHeartbeatTimeout s
  | .phyLockLost unit => Sys2Proof.Machine.execPhyLockLost unit s
  | .clkPmaxWrite facet high w => Sys2Proof.Machine.execClkPmaxWrite facet high w s
  | .dcoStep part => Sys2Proof.Machine.execDcoStep part s
  | .dcoFault part => Sys2Proof.Machine.execDcoFault part s
  | .pllLockLost => Sys2Proof.Machine.execPllLockLost s
  | .clockRelock gapUs => Sys2Proof.Machine.execClockRelock gapUs s
  | .fabSchedLoad facet => Sys2Proof.Machine.execFabSchedLoad facet s
  | .fabSchedBlobChecked facet blob => Sys2Proof.Machine.execFabSchedBlobChecked facet blob s
  | .fabSchedActivate slips => Sys2Proof.Machine.execFabSchedActivate slips s
  | .fabSchedClear facet => Sys2Proof.Machine.execFabSchedClear facet s
  | .rdS line tid => Sys2Proof.Machine.execRdS line tid s
  | .rdO line tid store => Sys2Proof.Machine.execRdO line tid store s
  | .upg line tid store => Sys2Proof.Machine.execUpg line tid store s
  | .wb line tid data => Sys2Proof.Machine.execWb line tid data s
  | .evict line tid => Sys2Proof.Machine.execEvict line tid s
  | .fwdData line sender => Sys2Proof.Machine.execFwdData line sender s
  | .ackInv line sender => Sys2Proof.Machine.execAckInv line sender s
  | .dataGrant line tid seen => Sys2Proof.Machine.execDataGrant line tid seen s
  | .fwdS line part => Sys2Proof.Machine.execFwdS line part s
  | .fwdO line part => Sys2Proof.Machine.execFwdO line part s
  | .inv line part => Sys2Proof.Machine.execInv line part s
  | .wbAck line tid => Sys2Proof.Machine.execWbAck line tid s
  | .ioAccess id tenant line op found => Sys2Proof.Machine.execIoAccess id tenant line op found s
  | .nsFill part mem near len => Sys2Proof.Machine.execNsFill part mem near len s
  | .nsDrain part near mem len => Sys2Proof.Machine.execNsDrain part near mem len s
  | .fenceInstruction part => Sys2Proof.Machine.execFenceInstruction part s
  | .scrubRead addr row found => Sys2Proof.Machine.execScrubRead addr row found s
  | .rowRetireCopyDone hbm unit row room => Sys2Proof.Machine.execRowRetireCopyDone hbm unit row room s
  | .resvEvaluation => Sys2Proof.Machine.execResvEvaluation s
  | .extentRead id reader cls extent => Sys2Proof.Machine.execExtentRead id reader cls extent s
  | .nandCommandIssue lun aged => Sys2Proof.Machine.execNandCommandIssue lun aged s
  | .readStatusPoll lun st => Sys2Proof.Machine.execReadStatusPoll lun st s
  | .nandTimeout lun => Sys2Proof.Machine.execNandTimeout lun s
  | .codewordDecode id decodes more cw => Sys2Proof.Machine.execCodewordDecode id decodes more cw s
  | .zqCalibrationShort lun => Sys2Proof.Machine.execZqCalibrationShort lun s
  | .flsJobStart facet port => Sys2Proof.Machine.execFlsJobStart facet port s
  | .flsJobAbort facet => Sys2Proof.Machine.execFlsJobAbort facet s
  | .jobErase facet entry st => Sys2Proof.Machine.execJobErase facet entry st s
  | .jobProgram facet entry st data dataSt => Sys2Proof.Machine.execJobProgram facet entry st data dataSt s
  | .jobScan facet entry st marks => Sys2Proof.Machine.execJobScan facet entry st marks s
  | .jobRead facet entry st cws => Sys2Proof.Machine.execJobRead facet entry st cws s
  | .nop tag => Sys2Proof.Machine.execNop tag s
  | .fence tag => Sys2Proof.Machine.execFence tag s
  | .pipeline tag => Sys2Proof.Machine.execPipeline tag s
  | .stageComplete tag grains unit waste => Sys2Proof.Machine.execStageComplete tag grains unit waste s
  | .tokenize tag unit => Sys2Proof.Machine.execTokenize tag unit s
  | .detokenize tag unit => Sys2Proof.Machine.execDetokenize tag unit s
  | .tokLdLoad w => Sys2Proof.Machine.execTokLdLoad w s
  | .tokLoadDone blob st => Sys2Proof.Machine.execTokLoadDone blob st s
  | .tokLdUnload w => Sys2Proof.Machine.execTokLdUnload w s
  | .slotUnloadDone => Sys2Proof.Machine.execSlotUnloadDone s
  | .maskReady tag seq grains => Sys2Proof.Machine.execMaskReady tag seq grains s
  | .gather tag => Sys2Proof.Machine.execGather tag s
  | .gatherRowArrival tag addr => Sys2Proof.Machine.execGatherRowArrival tag addr s
  | .scatterWrite tag => Sys2Proof.Machine.execScatterWrite tag s
  | .scatterAdd tag => Sys2Proof.Machine.execScatterAdd tag s
  | .scatterRefresh tag => Sys2Proof.Machine.execScatterRefresh tag s
  | .embed tag => Sys2Proof.Machine.execEmbed tag s
  | .rerank tag => Sys2Proof.Machine.execRerank tag s
  | .tilePassDone tag part pass => Sys2Proof.Machine.execTilePassDone tag part pass s
  | .outputTileDone tag part => Sys2Proof.Machine.execOutputTileDone tag part s
  | .search tag => Sys2Proof.Machine.execSearch tag s
  | .centroidExchange tag => Sys2Proof.Machine.execCentroidExchange tag s
  | .scanDone tag check => Sys2Proof.Machine.execScanDone tag check s
  | .nbPrefetchCopyDone tag facet list => Sys2Proof.Machine.execNbPrefetchCopyDone tag facet list s
  | .shardDeadlineX tag => Sys2Proof.Machine.execShardDeadlineX tag s
  | .srchLdLoad w => Sys2Proof.Machine.execSrchLdLoad w s
  | .srchLoadDone blob st => Sys2Proof.Machine.execSrchLoadDone blob st s
  | .srchLdUnload w => Sys2Proof.Machine.execSrchLdUnload w s
  | .selectRow tag check => Sys2Proof.Machine.execSelectRow tag check s
  | .selectMerge tag => Sys2Proof.Machine.execSelectMerge tag s
  | .packPrompt tag => Sys2Proof.Machine.execPackPrompt tag s
  | .prefill tag => Sys2Proof.Machine.execPrefill tag s
  | .prefillLayerDone tag => Sys2Proof.Machine.execPrefillLayerDone tag s
  | .decodeAttach tag => Sys2Proof.Machine.execDecodeAttach tag s
  | .detach tag => Sys2Proof.Machine.execDetach tag s
  | .admitMsX tag seq => Sys2Proof.Machine.execAdmitMsX tag seq s
  | .decodeStep tag bad => Sys2Proof.Machine.execDecodeStep tag bad s
  | .chunkUs tag seq => Sys2Proof.Machine.execChunkUs tag seq s
  | .textConsumedReread tag consumed st => Sys2Proof.Machine.execTextConsumedReread tag consumed st s
  | .clpLdLoad w blob st => Sys2Proof.Machine.execClpLdLoad w blob st s
  | .clpLdUnload w => Sys2Proof.Machine.execClpLdUnload w s
  | .tenGroupWrite tenant group high w => Sys2Proof.Machine.execTenGroupWrite tenant group high w s
  | .loadWeightsLoad tag => Sys2Proof.Machine.execLoadWeightsLoad tag s
  | .loadWeightsSwap tag => Sys2Proof.Machine.execLoadWeightsSwap tag s
  | .loadWeightsUnload tag => Sys2Proof.Machine.execLoadWeightsUnload tag s
  | .troyMetadataArrival slot => Sys2Proof.Machine.execTroyMetadataArrival slot s
  | .segmentComplete slot seg => Sys2Proof.Machine.execSegmentComplete slot seg s
  | .inPlaceSwapStart slot => Sys2Proof.Machine.execInPlaceSwapStart slot s
  | .windowUnitCopyDone tag => Sys2Proof.Machine.execWindowUnitCopyDone tag s
  | .linkDown port => Sys2Proof.Machine.execLinkDown port s
  | .perstAssert port => Sys2Proof.Machine.execPerstAssert port s
  | .hotReset port => Sys2Proof.Machine.execHotReset port s
  | .linkUp port speed width cfg => Sys2Proof.Machine.execLinkUp port speed width cfg s
  | .vfFlr port vf => Sys2Proof.Machine.execVfFlr port vf s
  | .pfFlr port => Sys2Proof.Machine.execPfFlr port s
  | .vfEnableClear port => Sys2Proof.Machine.execVfEnableClear port s
  | .d3hotTransition port tenant enter => Sys2Proof.Machine.execD3hotTransition port tenant enter s
  | .atsInvalidateRequest port tenant id => Sys2Proof.Machine.execAtsInvalidateRequest port tenant id s
  | .completionTimeout tag addr len => Sys2Proof.Machine.execCompletionTimeout tag addr len s
  | .doorbellPoll port tenant line => Sys2Proof.Machine.execDoorbellPoll port tenant line s
  | .doorbellPollData port tenant line data st => Sys2Proof.Machine.execDoorbellPollData port tenant line data st s
  | .descriptorFetchData port tenant ring entry st body bodySt => Sys2Proof.Machine.execDescriptorFetchData port tenant ring entry st body bodySt s
  | .cqHeadReread port tenant cq head st => Sys2Proof.Machine.execCqHeadReread port tenant cq head st s
  | .modUsExpiry port tenant cq => Sys2Proof.Machine.execModUsExpiry port tenant cq s
  | .rngSqEnable port tenant ring w line st => Sys2Proof.Machine.execRngSqEnable port tenant ring w line st s
  | .rngCqEnable port tenant ring w => Sys2Proof.Machine.execRngCqEnable port tenant ring w s
  | .rngDbEnable port tenant line w => Sys2Proof.Machine.execRngDbEnable port tenant line w s
  | .ringDisable port tenant kind index w => Sys2Proof.Machine.execRingDisable port tenant kind index w s
  | .evtEnable port tenant w => Sys2Proof.Machine.execEvtEnable port tenant w s
  | .tenClearStart w => Sys2Proof.Machine.execTenClearStart w s
  | .tenClearDone => Sys2Proof.Machine.execTenClearDone s
  | .fecLock lane fast => Sys2Proof.Machine.execFecLock lane fast s
  | .laneTrainingRetry lane => Sys2Proof.Machine.execLaneTrainingRetry lane s
  | .lldpTransmit lane => Sys2Proof.Machine.execLldpTransmit lane s
  | .lldpduReceived lane csub chassis psub port ttl => Sys2Proof.Machine.execLldpduReceived lane csub chassis psub port ttl s
  | .lldpTtlExpiry lane => Sys2Proof.Machine.execLldpTtlExpiry lane s
  | .strLaneAck lane => Sys2Proof.Machine.execStrLaneAck lane s
  | .strLaneRetrain lane => Sys2Proof.Machine.execStrLaneRetrain lane s
  | .strandRefclkLoss => Sys2Proof.Machine.execStrandRefclkLoss s
  | .flowOpen lane frame => Sys2Proof.Machine.execFlowOpen lane frame s
  | .acceptFrame lane frame => Sys2Proof.Machine.execAcceptFrame lane frame s
  | .refuseFrame lane frame => Sys2Proof.Machine.execRefuseFrame lane frame s
  | .ackFrame lane frame => Sys2Proof.Machine.execAckFrame lane frame s
  | .finFrame lane frame => Sys2Proof.Machine.execFinFrame lane frame s
  | .keepaliveFrame lane frame => Sys2Proof.Machine.execKeepaliveFrame lane frame s
  | .resetFrame lane frame => Sys2Proof.Machine.execResetFrame lane frame s
  | .keepaliveTimer => Sys2Proof.Machine.execKeepaliveTimer s
  | .retransmitTimeout mine peer num seq => Sys2Proof.Machine.execRetransmitTimeout mine peer num seq s
  | .ackDelay mine peer num => Sys2Proof.Machine.execAckDelay mine peer num s
  | .peerLossTimeout peer => Sys2Proof.Machine.execPeerLossTimeout peer s
  | .seqOpen lane frame => Sys2Proof.Machine.execSeqOpen lane frame s
  | .kvBlock lane frame => Sys2Proof.Machine.execKvBlock lane frame s
  | .shardQuery lane frame => Sys2Proof.Machine.execShardQuery lane frame s
  | .shardResult lane frame => Sys2Proof.Machine.execShardResult lane frame s
  | .weightReq lane frame => Sys2Proof.Machine.execWeightReq lane frame s
  | .weightData lane frame => Sys2Proof.Machine.execWeightData lane frame s
  | .chnRxgainApply => Sys2Proof.Machine.execChnRxgainApply s
  | .noiseMeasurement noise => Sys2Proof.Machine.execNoiseMeasurement noise s
  | .noiseStale => Sys2Proof.Machine.execNoiseStale s
  | .syncMiss => Sys2Proof.Machine.execSyncMiss s
  | .characterReceived c => Sys2Proof.Machine.execCharacterReceived c s
  | .characterSend collided => Sys2Proof.Machine.execCharacterSend collided s
  | .chnCharTxData b => Sys2Proof.Machine.execChnCharTxData b s
  | .chnCharTxAbort => Sys2Proof.Machine.execChnCharTxAbort s
  | .chnCharRxRead port => Sys2Proof.Machine.execChnCharRxRead port s
  | .chainTxAttempt stp => Sys2Proof.Machine.execChainTxAttempt stp s
  | .chainTxCut => Sys2Proof.Machine.execChainTxCut s
  | .chainBusStuck => Sys2Proof.Machine.execChainBusStuck s
  | .clearCut => Sys2Proof.Machine.execClearCut s
  | .enumStart frame => Sys2Proof.Machine.execEnumStart frame s
  | .assignFrame frame => Sys2Proof.Machine.execAssignFrame frame s
  | .claimResend => Sys2Proof.Machine.execClaimResend s
  | .enumInChange level => Sys2Proof.Machine.execEnumInChange level s
  | .capFrame frame => Sys2Proof.Machine.execCapFrame frame s
  | .departFrame frame => Sys2Proof.Machine.execDepartFrame frame s
  | .applicationFrame frame => Sys2Proof.Machine.execApplicationFrame frame s
  | .foreignFrame frame => Sys2Proof.Machine.execForeignFrame frame s
  | .chnTxbGo buf w => Sys2Proof.Machine.execChnTxbGo buf w s
  | .chnTxbWithdraw buf w => Sys2Proof.Machine.execChnTxbWithdraw buf w s
  | .chnRxbStatusClear buf w => Sys2Proof.Machine.execChnRxbStatusClear buf w s
  | .strPlanLoad w blob st => Sys2Proof.Machine.execStrPlanLoad w blob st s
  | .pwrbrakeAsserted => Sys2Proof.Machine.execPwrbrakeAsserted s
  | .pwrbrakeReleased => Sys2Proof.Machine.execPwrbrakeReleased s
  | .powerLoopIteration m => Sys2Proof.Machine.execPowerLoopIteration m s
  | .ejectAsserted => Sys2Proof.Machine.execEjectAsserted s
  | .quiesceFlowReset => Sys2Proof.Machine.execQuiesceFlowReset s
  | .quiesceRequestFail => Sys2Proof.Machine.execQuiesceRequestFail s
  | .quiesceHeld => Sys2Proof.Machine.execQuiesceHeld s
  | .ejectReleased => Sys2Proof.Machine.execEjectReleased s
  | .hmkSeal w => Sys2Proof.Machine.execHmkSeal w s
  | .hmkCheckDone => Sys2Proof.Machine.execHmkCheckDone s
  | .openAll => Sys2Proof.Machine.execOpenAll s
  | .openTenant t => Sys2Proof.Machine.execOpenTenant t s
  | .drainComplete => Sys2Proof.Machine.execDrainComplete s
  | .hmkDrainX => Sys2Proof.Machine.execHmkDrainX s
  | .crystalLoss => Sys2Proof.Machine.execCrystalLoss s
  | .thermtrip => Sys2Proof.Machine.execThermtrip s
  | .registerWrite port tenant bar off size w => Sys2Proof.Machine.execRegisterWrite port tenant bar off size w s
  | .strandLaneDown lane canSend => Sys2Proof.Machine.execStrandLaneDown lane canSend s
  | .busIdle => Sys2Proof.Machine.execBusIdle s
  | .chainFrameNotTaken src level why => Sys2Proof.Machine.execChainFrameNotTaken src level why s
  | .dataFrame lane frame => Sys2Proof.Machine.execDataFrame lane frame s
  | .strandFrameDiscard lane why corrected => Sys2Proof.Machine.execStrandFrameDiscard lane why corrected s
  | .statusMsg lane frame => Sys2Proof.Machine.execStatusMsg lane frame s
  | .hostReadCompletion tag addr data st => Sys2Proof.Machine.execHostReadCompletion tag addr data st s
  | .registerRead port tenant bar off size => Sys2Proof.Machine.execRegisterRead port tenant bar off size s
  | .vfEnableSet port numVfs => Sys2Proof.Machine.execVfEnableSet port numVfs s
  | .jtagInstruction code => Sys2Proof.Machine.execJtagInstruction code s
  | .openRetry num => Sys2Proof.Machine.execOpenRetry num s

end Sys2Proof.Machine
end

