-- ==== Sys2Proof/Machine/Tick.lean ====
section
/-! DEFINITION. Tick: what passes on its own when no command waits (note 30). -/
namespace Sys2Proof.Machine

/-- One grain of 8 ns passes: the grain count rises while the package is powered and its PLL is locked (03 R67, R69), a schedule that was
cleared ends with its frame, and the scheduled flits of the grain that begins go (04 R91, R92). -/
def tick (s : State) : State :=
  if s.supply.powerGood && s.clk.locked then fabricGrain (frameEnds { s with clk := { s.clk with grains := s.clk.grains + 1#64 } }) else s

end Sys2Proof.Machine
end

