-- ==== Sys2Proof/Safety.lean ====
section
/-! DEFINITION. Safety: canonical forms, the invariants that every step keeps, and the views of the state in which frames are
stated: `State.sansX s` is s with the parts named X at their reset values, so that `t.sansX = s.sansX` says that nothing
else changed. -/
namespace Sys2Proof.Machine

/-- Device memory is in canonical form: addresses rising, no listed byte equal to what an unlisted address reads as (note 5). -/
abbrev Memory.wf (m : Memory) : Bool := mapWf (fun _ => 0#8) m.bytes

/-- The state's tables are in canonical form: device memory, the registers, the sealed values in force, and the requests by tag. -/
abbrev State.wf (s : State) : Bool :=
  s.mem.wf && mapWf resetWord s.regs && mapWf resetWord s.force && rising s.requests

/-- Reading n bytes at a meets no granule whose cells hold an error, one that the read would correct or one that it cannot. -/
abbrev readsClean (s : State) (a n : Nat) : Bool :=
  (granulesOf a n).all (fun g => (!s.mem.broken.contains g || (look s.mem.poison g).isSome) && (look s.mem.weak g).isNone)

/-- No line of the n bytes at a is held by a cache or in a transaction at its home. -/
abbrev homeQuiet (s : State) (a n : Nat) : Bool := !cohBusy s a n && (keysOf s.coh.dir).all (fun l => !lineIn a n l)

/-- Writing n bytes at a reads no such granule: none of those it covers in part holds an error. -/
abbrev writesClean (s : State) (a n : Nat) : Bool :=
  ((granulesOf a n).filter (fun g => !covers a n g)).all (fun g => readsClean s g (granule g))

/-- The state without what sending an event may touch: rings and event counters, functions' pending bits, translations kept, outputs. -/
def State.sansEvents (s : State) : State :=
  { s with rings := State.reset.rings, funcs := [], atc := [], outs := [] }

end Sys2Proof.Machine
end

