-- ==== Sys2Proof/Certificates/Slice0/Obligations.lean ====
section
/-! DEFINITION. Obligations: what is stated of the model for the provers. Each definition is a statement; its docstring gives
the sentence it formalises and the rules of spec/ it rests on. Statements about a command's effect have the next state as
their conclusion. -/
open Sys2Proof Sys2Proof.Machine

/-- For every command c, every state s and every rest of the queue, step of s with c in front of the rest is exec of c on
s with the rest as its queue. (The queue is the model's own, so the statement is derived.) (00_scope.md.) -/
def Obligations.StepRunsFrontCommand : Prop :=
  ∀ (c : Instr) (rest : List Instr) (s : State), step { s with pending := c :: rest } = exec c { s with pending := rest }

/-- With an empty queue, step answers a next state. While PWR_GOOD is high and the package PLL is locked it has the grain
count one higher, the same requests, and the same schedule in force, unless a CLEAR waits and a frame begins: then none is
in force; and it is s in all else while no scheduled flit and no CLEAR waits. Otherwise it is s itself. That a grain passes on an empty queue is the model's own choice (log
entry 30). (03_clock_islands.md R67, 03_clock_islands.md R69.) -/
def Obligations.EmptyQueueCountsOneGrain : Prop :=
  ∀ s : State, s.pending = [] →
    (s.supply.powerGood = true → s.clk.locked = true →
      (s.fabric.inject = [] → s.fabric.ending = false → step s = .next { s with clk := { s.clk with grains := s.clk.grains + 1#64 } }) ∧
      ∃ t, step s = .next t ∧ t.clk = { s.clk with grains := s.clk.grains + 1#64 } ∧ t.pending = [] ∧ t.requests = s.requests ∧
        t.fabric.active = (if s.fabric.ending = true ∧ grainInFrame (s.clk.grains + 1#64).toNat = 0 then [] else s.fabric.active)) ∧
    (s.supply.powerGood = false ∨ s.clk.locked = false → step s = .next s)

/-- For every command and every state exec answers a next state: every misuse that the spec describes is a completion
status, an event, a count or an ignored access, and none is a fault or a refusal. (23_bring_up_and_hallmark.md R525,
25_register_map.md R540.) -/
def Obligations.EveryCommandAnswersANextState : Prop :=
  ∀ (c : Instr) (s : State), ∃ t, exec c s = .next t

/-- Frame number times 128 plus the grain within the frame is the grain count, the grain within the frame is below 128,
and both are the quotient and remainder by 128. (R68.) -/
def Obligations.FrameNumberAndGrainInFrame : Prop :=
  ∀ g : Nat, frameNo g = g / 128 ∧ grainInFrame g = g % 128 ∧ 128 * frameNo g + grainInFrame g = g

/-- CLK_PMAX_WRITE on a live facet takes each of the four 7-bit ceilings, held at 104, sets SLEWING of each of the four
partitions exactly when its code in force differs from its target, and changes nothing but registers. DCO_STEP of a
live partition moves its code one step toward its target and changes nothing but registers. DCO_FAULT sets the
partition's DCO_FAULT bit and fences it with cause DCO. PLL_LOCK_LOST stops the clocks and enters HELD with
CLOCK_FAULT and reason 0x11. CLOCK_RELOCK locks the PLL and restarts the grain count from 0. (03_clock_islands.md R63,
03_clock_islands.md R64, 03_clock_islands.md R66, 03_clock_islands.md R67, 03_clock_islands.md R69.) -/
def Obligations.ClockCommandsComplete : Prop :=
  (∀ (s : State) (f : Nat) (high : Bool) (w : Word), alive s = true → f < 8 → fabricLive s f = true →
    ∃ t, exec (.clkPmaxWrite f high w) s = .next t ∧ { t with regs := s.regs } = s ∧
      ∀ i, i < 4 → let p := 8 * f + (if high then 4 else 0) + i
        regFld t (pmaxAt p).1 (pmaxAt p).2 7 = min (fld w (8 * i) 7) 104 ∧
        pcur t p = pcur s p ∧
        regFld t (pcurAt p).1 ((pcurAt p).2 + 7) 1 = if pcur t p = targetCode t p then 0 else 1) ∧
  (∀ (s : State) (p : Nat), alive s = true → s.clk.locked = true → p < 64 → partLive s p = true →
    ∃ t, exec (.dcoStep p) s = .next t ∧ { t with regs := s.regs } = s ∧ targetCode t p = targetCode s p ∧
      pcur t p = (if pcur s p < targetCode s p then pcur s p + 1
        else if targetCode s p < pcur s p then pcur s p - 1 else pcur s p) ∧
      regFld t (pcurAt p).1 ((pcurAt p).2 + 7) 1 = if pcur t p = targetCode t p then 0 else 1) ∧
  (∀ (s : State) (p : Nat), alive s = true → p < 64 → partLive s p = true →
    ∃ s1, exec (.dcoFault p) s = .next (fenceUnit s1 1 p 4) ∧
      s1 = regSetFld s (fKey (p / 8) 0x10010) (8 + p % 8) 1 1 ∧ regFld s1 (fKey (p / 8) 0x10010) (8 + p % 8) 1 = 1) ∧
  (∀ s : State, alive s = true → s.clk.locked = true →
    exec .pllLockLost s = .next (enterHeld { s with clk := { s.clk with locked := false } } .clockFault 0x11)) ∧
  (∀ (s : State) (gap : Nat), alive s = true → s.clk.locked = false →
    ∃ t, exec (.clockRelock gap) s = .next t ∧ t.clk.locked = true ∧ t.clk.grains = 0#64 ∧ t.clk.grant = s.clk.grant ∧
      t.fabric = ⟨[], [], [], false⟩ ∧ t.coh = State.reset.coh ∧ t.hmk = s.hmk)

/-- FAB_SCHED_LOAD on a live facet with no load in progress, while SEALED, puts the facet in LOADING with the frame it
resolved and reads the blob. A blob that passes the checks puts the facet in READY and keeps the blob, while another
live facet has none yet. FAB_SCHED_ACTIVATE with every live facet ready for one frame, which has begun, makes every live
facet ACTIVE with its own blob in force and ends the loads, whatever flits of the old schedule slip; before that frame
it changes nothing but the flits that sources wrote. FAB_SCHED_CLEAR marks a schedule in force to end, and
when the next frame begins no live facet is ACTIVE and no schedule in force. LOAD in FAB_SCHED_CTRL while the hallmark is not SEALED leaves every live facet REFUSED with reason
0x0A and the refusing facet in the refuse register, ends every load, and leaves the schedule in force. (04_fabric.md
R86, 04_fabric.md R87, 04_fabric.md R88, 04_fabric.md R89, 04_fabric.md R90.) -/
def Obligations.FabricScheduleCommandsComplete : Prop :=
  (∀ (s : State) (f : Nat), alive s = true → isSealedNow s = true → f < 8 → fabricLive s f = true →
    schedState s f ≠ 1 → schedState s f ≠ 2 →
    ∃ t, exec (.fabSchedLoad f) s = .next t ∧ schedState t f = 1 ∧
      look t.fabric.loads f = some ⟨resolveFrame (regGet s (fKey f 0xC)).toNat (frameNo s.clk.grains.toNat), none⟩ ∧
      t.fabric.active = s.fabric.active ∧
      t.outs = (askOwner s (pair (regGet s) (fKey f 0)) (regGet s (fKey f 8)).toNat).outs ∧
      t.ports = (askOwner s (pair (regGet s) (fKey f 0)) (regGet s (fKey f 8)).toNat).ports) ∧
  (∀ (s : State) (f g : Nat) (b : List Byte) (l : SchedLoad), alive s = true → f < 8 → fabricLive s f = true →
    look s.fabric.loads f = some l → l.frame.isSome = true → schedState s f = 1 →
    checkBlob s (regGet s (fKey f 8)).toNat b = none →
    g < 8 → g ≠ f → fabricLive s g = true → look s.fabric.loads g = none →
    ∃ t, exec (.fabSchedBlobChecked f b) s = .next t ∧ schedState t f = 2 ∧
      look t.fabric.loads f = some ⟨l.frame, some b⟩ ∧ t.fabric.active = s.fabric.active) ∧
  (∀ (s : State) (w : List SchedWrites), alive s = true → frameBegun s = true → allReady s = true → (agreedFrame s).isSome = true →
    (∀ q, q ∈ s.fabric.inject → ∀ x, x ∈ q.2 → x.flit.flow < 4096) →
    ∃ t, exec (.fabSchedActivate w) s = .next t ∧ t.fabric.loads = [] ∧
      ∀ f, f < 8 → fabricLive s f = true → schedState t f = 3 ∧
        schedOn t f = (look s.fabric.loads f).bind (fun l => l.blob)) ∧
  (∀ (s : State) (w : List SchedWrites), alive s = true → frameBegun s = false →
    ∃ t, exec (.fabSchedActivate w) s = .next t ∧ t.fabric.loads = s.fabric.loads ∧ t.fabric.active = s.fabric.active ∧
      { t with fabric := s.fabric } = s) ∧
  (∀ (s : State) (f : Nat), alive s = true → f < 8 → fabricLive s f = true →
    exec (.fabSchedClear f) s = .next (if s.fabric.active = [] then s else { s with fabric := { s.fabric with ending := true } })) ∧
  (∀ s : State, s.pending = [] → s.supply.powerGood = true → s.clk.locked = true → s.fabric.ending = true → s.fabric.inject = [] →
    grainInFrame (s.clk.grains + 1#64).toNat = 0 →
    ∃ t, step s = .next t ∧ t.fabric = ⟨s.fabric.loads, [], [], false⟩ ∧
      (∀ g, g < 8 → fabricLive s g = true → schedState t g = if schedState s g = 3 then 0 else schedState s g) ∧
      { t with regs := s.regs, fabric := s.fabric, clk := s.clk } = s) ∧
  (∀ (s : State) (f : Nat), alive s = true → isSealedNow s = false → f < 8 → fabricLive s f = true →
    schedState s f ≠ 1 → schedState s f ≠ 2 →
    ∃ t, exec (.fabSchedLoad f) s = .next t ∧ t.fabric = { s.fabric with loads := [] } ∧
      ∀ g, g < 8 → fabricLive s g = true →
        schedState t g = 4 ∧ regGet t (fKey g 0x14) = BitVec.ofNat 32 (0xA * 2 ^ 24 + f * 2 ^ 16))

/-- A partition that waits on no fence instruction: a read of a line its cache holds, and a store to one it holds in E or M,
go to no home; the store leaves the line in M. Any other access that its tenant or a fenced unit forbids fails and moves
nothing. A request for a cacheable line with no transaction and no queue takes its miss register, while that is free. An
uncached line, free of errors in its cells, is granted at once from memory: E for RD_S, M for RD_O. Such a line in S
answers RD_S with DATA_S and one more sharer, and UPG of the only live sharer with GRANT_M. A line that a live cache
owns is forwarded to the owner, FWD_S for RD_S and FWD_O for RD_O, and the home waits for that owner alone.
(05_line_ownership.md R97, 05_line_ownership.md R98.) -/
def Obligations.OwnershipRequestsAtHome : Prop :=
  ∀ (s : State) (l : Nat) (tid : Tid) (st : Option (Nat × List Byte)),
    alive s = true → partLive s tid.part = true → tid.part < 64 → tid.entry < 32 → (homeOf l).isSome = true →
    s.coh.fencing.contains tid.part = false →
    (∀ h, look (cacheOf s tid.part).lines l = some h →
      exec (.rdS l tid) s = .next s ∧
      (∀ off n, h.state ≠ .shared →
        ∃ t, exec (.rdO l tid (some (off, n))) s = .next t ∧ look (cacheOf t tid.part).lines l = some (storedLine h off n) ∧
          { t with coh := s.coh } = s)) ∧
    (∀ f, look (cacheOf s tid.part).lines l = none → look (cacheOf s tid.part).misses tid.entry = none →
      cacheCheck s l tid.part = some f →
      exec (.rdS l tid) s = .next (partFault s tid.part f) ∧ exec (.rdO l tid st) s = .next (partFault s tid.part f) ∧
      exec (.upg l tid st) s = .next (partFault s tid.part f)) ∧
    (look (cacheOf s tid.part).misses tid.entry = none → cacheCheck s l tid.part = none →
    look s.coh.txn l = none → mapGet (fun _ => []) s.coh.queue l = [] →
    (∀ h, look (cacheOf s tid.part).lines l = some h → h.state = .shared) →
    (dirOf s l = .invalid → readsClean s (lineAddr l) 128 = true → look (cacheOf s tid.part).lines l = none →
      (∃ t, exec (.rdS l tid) s = .next t ∧ dirOf t l = .owned tid.part ∧
        t.coh.net = s.coh.net ++ [.grant .dataE l tid (lineOfMem s l).1 (lineOfMem s l).2] ∧
        look (cacheOf t tid.part).misses tid.entry = some ⟨l, none⟩ ∧ { t with coh := s.coh } = s) ∧
      (∃ t, exec (.rdO l tid st) s = .next t ∧ dirOf t l = .owned tid.part ∧
        t.coh.net = s.coh.net ++ [.grant .dataM l tid (lineOfMem s l).1 (lineOfMem s l).2] ∧
        look (cacheOf t tid.part).misses tid.entry = some ⟨l, st⟩ ∧ { t with coh := s.coh } = s)) ∧
    (∀ v, dirOf s l = .shared v →
      (readsClean s (lineAddr l) 128 = true → look (cacheOf s tid.part).lines l = none →
        ∃ t, exec (.rdS l tid) s = .next t ∧ dirOf t l = .shared (setBit v tid.part true) ∧
        t.coh.net = s.coh.net ++ [.grant .dataS l tid (lineOfMem s l).1 (lineOfMem s l).2] ∧ { t with coh := s.coh } = s) ∧
      (bitOf v tid.part = true → (∀ p, p ∈ sharersOf v → p = tid.part ∨ partLive s p = false) →
        ∃ t, exec (.upg l tid st) s = .next t ∧ dirOf t l = .owned tid.part ∧
          t.coh.net = s.coh.net ++ [.grant .grantM l tid [] none] ∧
          look (cacheOf t tid.part).misses tid.entry = some ⟨l, st⟩ ∧ { t with coh := s.coh } = s)) ∧
    (∀ p, dirOf s l = .owned p → partLive s p = true → look (cacheOf s tid.part).lines l = none →
      (∃ t, exec (.rdS l tid) s = .next t ∧ dirOf t l = .owned p ∧ look t.coh.txn l = some ⟨.rdS tid, [p], none, none⟩ ∧
        t.coh.net = s.coh.net ++ [.fwdS l p tid] ∧ { t with coh := s.coh } = s) ∧
      (∃ t, exec (.rdO l tid st) s = .next t ∧ dirOf t l = .owned p ∧ look t.coh.txn l = some ⟨.rdO tid, [p], none, none⟩ ∧
        t.coh.net = s.coh.net ++ [.fwdO l p tid] ∧ { t with coh := s.coh } = s)))

/-- A WB of the line's owner with no forward outstanding is written to memory: the line becomes uncached, its 128 bytes
are those its writeback buffer entry holds (those the command carries where the cache still held the line), every
other byte of memory is as before, and WB_ACK is sent. A WB whose TID a FWD_DATA made stale changes no byte of memory
and no directory entry; it is acknowledged and its record is used up. Any other WB with no forward outstanding to its
sender fences the sender for a protocol fault, cause 5. EVICT of the owner of a line that it does not hold in M, with
no forward outstanding, leaves the line uncached and the cache without it. When an RD_O waits for one partition, with
nothing queued behind it and nothing waiting for a credit, that partition's FWD_DATA gives the requester the line it carries in M, and its ACK_INV
gives the requester the line from memory, free of errors in its cells, in M; either way the requester becomes the
owner, the transaction ends, and the answer is taken off the network. (05_line_ownership.md R97, 05_line_ownership.md
R105, 05_line_ownership.md R106, 05_line_ownership.md R107, 05_line_ownership.md R98.) -/
def Obligations.WritebackAcceptedOnce : Prop :=
  (∀ (s : State) (l : Nat) (tid : Tid) (data : List Byte), alive s = true → tid.part < 64 → tid.entry < 16 → (homeOf l).isSome = true →
    ((wbLine (wbEvict s l tid data) l tid data).1.length = 128 → s.coh.stale.contains (tidNo tid, l) = false → forwardOut s l tid.part = false →
      dirOf s l = .owned tid.part →
      ∃ t, exec (.wb l tid data) s = .next t ∧ dirOf t l = .invalid ∧ t.coh.net = s.coh.net ++ [.wbAck l tid] ∧
        (∀ i, i < 128 → memByte t (128 * l + i) = (wbLine (wbEvict s l tid data) l tid data).1.getD i 0#8) ∧
        (∀ a, a < 128 * l ∨ 128 * l + 128 ≤ a → memByte t a = memByte s a) ∧
        { t with coh := s.coh, mem := s.mem } = s) ∧
    (s.coh.stale.contains (tidNo tid, l) = true →
      ∃ t, exec (.wb l tid data) s = .next t ∧ t.mem = s.mem ∧ t.coh.dir = s.coh.dir ∧
        t.coh.stale = s.coh.stale.erase (tidNo tid, l) ∧ t.coh.net = s.coh.net ++ [.wbAck l tid] ∧
        { t with coh := s.coh, regs := s.regs } = s) ∧
    (s.coh.stale.contains (tidNo tid, l) = false → forwardOut s l tid.part = false → dirOf s l ≠ .owned tid.part →
      exec (.wb l tid data) s = .next (fenceUnit s 1 tid.part 5)) ∧
    (holdsM s l tid.part = false → forwardOut s l tid.part = false → dirOf s l = .owned tid.part →
      ∃ t, exec (.evict l tid) s = .next t ∧ dirOf t l = .invalid ∧ look (cacheOf t tid.part).lines l = none ∧
        t.coh.net = s.coh.net ∧ { t with coh := s.coh } = s)) ∧
  (∀ (s : State) (l p : Nat) (tid : Tid) (rest : List CohMsg),
    look s.coh.txn l = some ⟨.rdO tid, [p], none, none⟩ → mapGet (fun _ => []) s.coh.queue l = [] → s.coh.waits = [] →
    (∀ d po x, s.coh.net = .fwdData l p x d po none :: rest →
      ∃ t, exec (.fwdData l p) s = .next t ∧ dirOf t l = .owned tid.part ∧ look t.coh.txn l = none ∧
        t.coh.net = rest ++ [.grant .dataM l tid d po] ∧ { t with coh := s.coh } = s) ∧
    (∀ x, s.coh.net = .ackInv l p x :: rest → readsClean s (lineAddr l) 128 = true →
      ∃ t, exec (.ackInv l p) s = .next t ∧ dirOf t l = .owned tid.part ∧ look t.coh.txn l = none ∧
        t.coh.net = rest ++ [.grant .dataM l tid (lineOfMem s l).1 (lineOfMem s l).2] ∧ { t with coh := s.coh } = s))

/-- A cache with room in the line's set that receives DATA_M for a miss with a store of n bytes at an offset in the line
holds the line in M with those bytes in place and the grant's bytes elsewhere, and its miss register is free. A line
that arrives for a load with DATA_S is held in S with the poison it carried, or, where the fabric code finds an error
that it cannot correct, poisoned with origin FABRIC.
(05_line_ownership.md R97, 05_line_ownership.md R99.) -/
def Obligations.StoreBeforeAnsweringForward : Prop :=
  (∀ (s : State) (l : Nat) (tid : Tid) (d n : List Byte) (off : Nat) (po : Option Origin) (rest : List CohMsg),
    s.coh.net = .grant .dataM l tid d po :: rest → d.length = 128 → off + n.length ≤ 128 →
    look (cacheOf s tid.part).misses tid.entry = some ⟨l, some (off, n)⟩ → inSet (cacheOf s tid.part) l < 16 →
    ∃ t h, exec (.dataGrant l tid ⟨none, ⟨[], 0, []⟩⟩) s = .next t ∧ look (cacheOf t tid.part).lines l = some h ∧ h.state = .modified ∧
      h.data.length = 128 ∧ (∀ i, i < n.length → h.data.getD (off + i) 0#8 = n.getD i 0#8) ∧
      (∀ i, i < off ∨ off + n.length ≤ i → h.data.getD i 0#8 = d.getD i 0#8) ∧
      look (cacheOf t tid.part).misses tid.entry = none ∧ t.coh.net = rest ∧ { t with coh := s.coh } = s) ∧
  (∀ (s : State) (l : Nat) (tid : Tid) (d : List Byte) (po : Option Origin) (rest : List CohMsg) (fab : FabricSeen),
    s.coh.net = .grant .dataS l tid d po :: rest →
    look (cacheOf s tid.part).misses tid.entry = some ⟨l, none⟩ → inSet (cacheOf s tid.part) l < 16 →
    ∃ t h, exec (.dataGrant l tid ⟨none, fab⟩) s = .next t ∧ look (cacheOf t tid.part).lines l = some h ∧ h.state = .shared ∧
      h.data = d ∧ h.poison = (if po = none ∧ fab.bad ≠ [] then some .fabric else po) ∧
      look (cacheOf t tid.part).misses tid.entry = none ∧ t.coh.net = rest)

/-- An owner cache answers FWD_S with its line and keeps it in S, and answers FWD_O with its line and drops it. A line
that stands only in the writeback buffer is answered from its entry, with WBB naming the entry, and the entry stays.
INV is answered with ACK_INV and the line is dropped. WB_ACK frees the writeback buffer entry it names.
(05_line_ownership.md R98, 05_line_ownership.md R105.) -/
def Obligations.CacheAnswersForwards : Prop :=
  ∀ (s : State) (l p : Nat) (tid : Tid) (rest : List CohMsg),
    (∀ h, look (cacheOf s p).lines l = some h →
      (s.coh.net = .fwdS l p tid :: rest →
        ∃ t, exec (.fwdS l p) s = .next t ∧ look (cacheOf t p).lines l = some { h with state := .shared } ∧
          t.coh.net = rest ++ [.fwdData l p tid h.data h.poison none] ∧ { t with coh := s.coh } = s) ∧
      (s.coh.net = .fwdO l p tid :: rest →
        ∃ t, exec (.fwdO l p) s = .next t ∧ look (cacheOf t p).lines l = none ∧
          t.coh.net = rest ++ [.fwdData l p tid h.data h.poison none] ∧ { t with coh := s.coh } = s)) ∧
    (∀ e w, look (cacheOf s p).lines l = none → wbFor (cacheOf s p) l = some (e, w) →
      (s.coh.net = .fwdS l p tid :: rest →
        ∃ t, exec (.fwdS l p) s = .next t ∧ cacheOf t p = cacheOf s p ∧
          t.coh.net = rest ++ [.fwdData l p tid w.data w.poison (some e)] ∧ { t with coh := s.coh } = s) ∧
      (s.coh.net = .fwdO l p tid :: rest →
        ∃ t, exec (.fwdO l p) s = .next t ∧ cacheOf t p = cacheOf s p ∧
          t.coh.net = rest ++ [.fwdData l p tid w.data w.poison (some e)] ∧ { t with coh := s.coh } = s)) ∧
    (s.coh.net = .inv l p tid :: rest →
      ∃ t, exec (.inv l p) s = .next t ∧ look (cacheOf t p).lines l = none ∧
        t.coh.net = rest ++ [.ackInv l p tid] ∧ { t with coh := s.coh } = s) ∧
    (s.coh.net = .wbAck l tid :: rest →
      ∃ t, exec (.wbAck l tid) s = .next t ∧ look (cacheOf t tid.part).wbs tid.entry = none ∧
        (cacheOf t tid.part).lines = (cacheOf s tid.part).lines ∧ t.coh.net = rest ∧ { t with coh := s.coh } = s)

/-- An I/O access that passes the check of its tenant and units runs: a read of an uncached line returns the line as
memory holds it and changes no memory; a write inside an uncached line writes exactly its bytes; where no error stands
in the cells read. An access that fails the check is reported with its status and moves nothing. NS_FILL of aligned
lines that no cache holds copies memory into the near store byte for byte and leaves every other byte; NS_DRAIN of
aligned uncached lines copies the near store into memory likewise. A fence instruction of a live partition with
nothing outstanding completes at once. NS_FILL or NS_DRAIN of a live partition whose memory address, near-store offset
or length is not a multiple of 128 is reported with BAD_ALIGN and moves no line; the request that the partition works
for, if any, ends with that status.
(05_line_ownership.md R108, 05_line_ownership.md R109, 05_line_ownership.md R110, 05_line_ownership.md R111.) -/
def Obligations.IoAndNearStoreTransfers : Prop :=
  (∀ (s : State) (id tn l h : Nat), alive s = true → homeOf l = some h → ioAt s h < 2048 →
    s.coh.waits.any (fun w => homeOf w.1 == some h) = false → look s.coh.txn l = none → mapGet (fun _ => []) s.coh.queue l = [] → dirOf s l = .invalid →
    (ioCheck s tn l .read = none → readsClean s (lineAddr l) 128 = true →
      ∃ t, exec (.ioAccess id tn l .read []) s = .next t ∧
      t.coh.ioDone = s.coh.ioDone ++ [(id, (lineOfMem s l).1, (lineOfMem s l).2)] ∧ { t with coh := s.coh } = s) ∧
    (∀ off n, off + n.length ≤ 128 → ioCheck s tn l (.write off n) = none → writesClean s (128 * l + off) n.length = true →
      ∃ t, exec (.ioAccess id tn l (.write off n) []) s = .next t ∧ dirOf t l = .invalid ∧
        (∀ a, memByte t a = if 128 * l + off ≤ a ∧ a < 128 * l + off + n.length then n.getD (a - (128 * l + off)) 0#8
          else memByte s a) ∧ { t with coh := s.coh, mem := s.mem } = s)) ∧
  (∀ (s : State) (id tn l : Nat) (op : IoOp) (found : List (Nat × Nat × CellCheck)) (st : Status), alive s = true →
    ioFits op = true → ioCheck s tn l op = some st →
    exec (.ioAccess id tn l op found) s = .next { s with coh := { s.coh with ioFaults := s.coh.ioFaults ++ [(id, st)] } }) ∧
  (∀ (s : State) (p mem near len : Nat), alive s = true → isSealedNow s = true → p < 64 → partLive s p = true →
    nsCheck s p near mem len = none → s.coh.fencing.contains p = false → s.coh.waits = [] → (∀ h, ioAt s h < 2048) →
    (∀ i, i < len / 128 → (homeOf (mem / 128 + i)).isSome = true ∧ look s.coh.txn (mem / 128 + i) = none ∧
      mapGet (fun _ => []) s.coh.queue (mem / 128 + i) = [] ∧ dirOf s (mem / 128 + i) = .invalid) →
    ((∀ i, i < len / 128 → readsClean s (lineAddr (mem / 128 + i)) 128 = true) →
      ∃ t, exec (.nsFill p mem near len) s = .next t ∧
      (∀ a, memByte t a = if p * 0x400000 + near ≤ a ∧ a < p * 0x400000 + near + len
        then memByte s (mem + (a - (p * 0x400000 + near))) else memByte s a) ∧ { t with mem := s.mem } = s) ∧
    ((∀ i, i < len / 128 → readsClean s (p * 0x400000 + (near + 128 * i)) 128 = true) →
      ∃ t, exec (.nsDrain p near mem len) s = .next t ∧
      (∀ a, memByte t a = if mem ≤ a ∧ a < mem + len then memByte s (p * 0x400000 + near + (a - mem)) else memByte s a) ∧
      (∀ i, i < len / 128 → dirOf t (mem / 128 + i) = .invalid) ∧ { t with coh := s.coh, mem := s.mem } = s)) ∧
  (∀ (s : State) (p : Nat), alive s = true → p < 64 → partLive s p = true → nsPending s p = false → s.coh.fencing = [] →
    ∃ t, exec (.fenceInstruction p) s = .next t ∧ t.coh.fencing = [] ∧
      mapGet (fun _ => 0) t.coh.fenced p = mapGet (fun _ => 0) s.coh.fenced p + 1 ∧ { t with coh := s.coh } = s) ∧
  (∀ (s : State) (p mem near len : Nat), alive s = true → isSealedNow s = true → p < 64 → partLive s p = true →
    s.coh.fencing.contains p = false → (mem % 128 ≠ 0 ∨ near % 128 ≠ 0 ∨ len % 128 ≠ 0) →
    let u := { s with coh := { s.coh with nsFaults := s.coh.nsFaults ++ [(p, .badAlign)] } }
    exec (.nsFill p mem near len) s = .next (partFault s p .badAlign) ∧
    exec (.nsDrain p near mem len) s = .next (partFault s p .badAlign) ∧
    (partTag s p = none → partFault s p .badAlign = u) ∧
    (∀ tag r, partTag s p = some tag → look s.requests tag = some r → r.pipe = none →
      partFault s p .badAlign = finish u tag .badAlign []))

/-- A scrub that finds an error it corrects counts one correction, saturating; one that finds an uncorrectable error
counts it and leaves the granule in error; neither changes a byte of memory. A finished copy of an HBM row that finds
room for a repair is taken out of the copies under way and put on the retired-row list. RESV_EVALUATION re-computes
the grants of every facet and tier. PHY_LOCK_LOST fences the unit with cause PHY. (06_memory_tiers.md R121,
06_memory_tiers.md R122, 06_memory_tiers.md R123, 06_memory_tiers.md R124, 06_memory_tiers.md R125, 06_memory_tiers.md
R131.) -/
def Obligations.MemoryCommandsComplete : Prop :=
  (∀ (s : State) (a row : Nat), alive s = true →
    let g := a / granule a * granule a
    populated s g (granule a) = true → rangeLive s g (granule a) = true → look s.mem.poison g = none →
    (∃ t, exec (.scrubRead a row .clean) s = .next t ∧ t = s) ∧
    (∃ t, exec (.scrubRead a row .correctable) s = .next t ∧ t.mem.bytes = s.mem.bytes ∧ t.mem.broken = s.mem.broken ∧
      regFld t (eccKey a) 16 16 = min (regFld s (eccKey a) 16 16 + 1) 0xFFFF ∧ { t with regs := s.regs, mem := s.mem } = s) ∧
    (∃ t, exec (.scrubRead a row .uncorrectable) s = .next t ∧ t.mem.bytes = s.mem.bytes ∧ g ∈ t.mem.broken ∧
      regFld t (eccKey a) 0 16 = min (regFld s (eccKey a) 0 16 + 1) 0xFFFF ∧ { t with regs := s.regs, mem := s.mem } = s)) ∧
  (∀ (s : State) (f row : Nat), (⟨true, f, row⟩ : RowId) ∈ s.mem.copying → s.nor.retired.length < 4096 →
    ∃ t, exec (.rowRetireCopyDone true f row true) s = .next t ∧ t.mem.copying = s.mem.copying.erase ⟨true, f, row⟩ ∧
      (⟨true, f, row⟩ : RowId) ∈ t.mem.retired ∧ rowNo ⟨true, f, row⟩ ∈ t.nor.retired ∧
      t.outs = s.outs ++ (if s.nor.retired.contains (rowNo ⟨true, f, row⟩) then [] else [.nor norWriteCmds norKept.1 norKept.2]) ∧
      { t with regs := s.regs, mem := s.mem, nor := s.nor, outs := s.outs } = s) ∧
  (∀ s : State, alive s = true → exec .resvEvaluation s = .next (evalGrants s)) ∧
  (∀ (s : State) (u : PhyUnit) (k n : Nat), alive s = true → phyUnit u = some (k, n) →
    exec (.phyLockLost u) s = .next (fenceUnit s k n 6))

/-- While a reservation stands unchanged, an evaluation that gives a value at or below the grant makes that value the
grant; a higher value leaves the grant unless every evaluation kept for the last 1 ms is above it, and then the grant
is the lowest of them. At the first evaluation after a reservation changed, the grant is the evaluated value. An evaluation at once adds no
period to those kept: the lowest value of the present one counts. (That
the last 1 ms keeps eleven evaluations is the model's choice, log entry 6.) (06_memory_tiers.md R133.) -/
def Obligations.GrantFallsAtOnceRisesAfterOneMillisecond : Prop :=
  ∀ (s : State) (f t v : Nat) (tier : Tier), v < 2 ^ 20 →
    let i := resvIndex t f tier
    let old := mapGet (fun _ => 0#32) s.mem.lastResv i
    let cur := regFld s (grantKey i) 0 20
    let hist := (v :: mapGet (fun _ => []) s.mem.history i).take historyLen
    (resvWord s i ≠ old → regFld (applyGrant s f tier t v) (grantKey i) 0 20 = v) ∧
    (resvWord s i = old → v ≤ cur → regFld (applyGrant s f tier t v) (grantKey i) 0 20 = v) ∧
    (resvWord s i = old → cur < v → (hist.length < historyLen ∨ hist.foldl min v ≤ cur) →
      regFld (applyGrant s f tier t v) (grantKey i) 0 20 = cur) ∧
    (resvWord s i = old → cur < v → hist.length = historyLen → cur < hist.foldl min v →
      regFld (applyGrant s f tier t v) (grantKey i) 0 20 = hist.foldl min v) ∧
    (∀ x xs, resvWord s i = old → mapGet (fun _ => []) s.mem.history i = x :: xs →
      mapGet (fun _ => []) (grantValue false s f tier t v).mem.history i = min v x :: xs)

/-- After a write of bytes to device memory every address inside the bytes written reads the byte written and every other
address reads as before, and the canonical form of memory is kept. Every granule that n bytes touch reads the origin
they were poisoned with, and granules they do not touch keep what they had. After a clean write a granule covered
whole holds no poison, and a poisoned granule outside the write keeps its origin. The four origins give 0xA0, 0xA1,
0xA2 and 0xA3, and each is a failure status. (06_memory_tiers.md R114, 08_integrity_chain.md R169,
08_integrity_chain.md R172, 24_errors_and_events.md R526.) -/
def Obligations.DeviceMemoryReadAfterWrite : Prop :=
  (∀ (s : State) (a : Nat) (d : List Byte) (p : Option Origin),
    (∀ b, memByte (memWriteP s a d p) b = if a ≤ b ∧ b < a + d.length then d.getD (b - a) 0#8 else memByte s b) ∧
    (s.mem.wf = true → (memWriteP s a d p).mem.wf = true) ∧
    { memWriteP s a d p with mem := s.mem } = s) ∧
  (∀ (s : State) (a n g : Nat) (o : Origin), n ≠ 0 →
    look (poisonRange s a n o).mem.poison g = if g ∈ granulesOf a n then some o else look s.mem.poison g) ∧
  (∀ (s : State) (a g : Nat) (d : List Byte), d ≠ [] →
    (g ∈ granulesOf a d.length → covers a d.length g = true → look (memWrite s a d).mem.poison g = none) ∧
    (g ∉ granulesOf a d.length → look (memWrite s a d).mem.poison g = look s.mem.poison g)) ∧
  (∀ o : Origin, statusCode (poisonStatus o) = 0xA0 + originCode o) ∧ (∀ o : Origin, isFailure (poisonStatus o) = true)

/-- In the reset state the hallmark is EMPTY with GEN_LAST 0 and no tenant re-opened, no request, flow, pool or flash job
exists, no schedule is in force, device memory lists nothing, and the registers named read the reset values of the
register indexes. (Values the spec does not give are the model's, log entries 1 to 5.) (23_bring_up_and_hallmark.md
R506, 25_register_map.md R540.) -/
def Obligations.ResetLeavesTheSpecsValues : Prop :=
  let r := State.reset
  r.hmk.state = .empty ∧ r.hmk.genLast = 0#16 ∧ r.hmk.reopen = 0#64 ∧ r.requests = [] ∧ r.strand.flows = [] ∧
  r.pools = [] ∧ r.flash.jobs = [] ∧ r.fabric.active = [] ∧ r.mem.bytes = [] ∧ r.outs = [] ∧
  regGet r 0x0 = 0xF8101FD3#32 ∧ regGet r 0x1C = 1#32 ∧ regGet r 0x1020 = 0x3E8#32 ∧ regGet r 0x70110 = 0x3C#32 ∧
  (∀ f, f < 8 → regGet r (fKey f 0x10000) = 0x68686868#32 ∧ regGet r (fKey f 0x10004) = 0x68686868#32 ∧
    regGet r (fKey f 0x10020) = 5#32 ∧ regGet r (fKey f 0x20084) = 3#32 ∧ regGet r (fKey f 0xE0004) = 0x00140014#32) ∧
  regGet r (aKey 0xE0100) = 0x3C3C#32 ∧ (∀ t, t ≤ 64 → regGet r (0x4C000 + 4 * t) = 0x400#32)

/-- A rise of PWR_GOOD samples the straps, leaves the hallmark EMPTY with GEN_LAST 0 and no request, whatever the world
shows during power-on. A fall of PWR_GOOD leaves no request, flow or hallmark state, drives ENUM_OUT low, empties
device memory and keeps manufacture's values, the straps and the SPI NOR. PACKAGE_RESET with the key argument in an
allowed state keeps the straps and leaves the hallmark EMPTY with GEN_LAST 0; while SEALED it is refused with STATE
and the hallmark stands. (23_bring_up_and_hallmark.md R504, 23_bring_up_and_hallmark.md R506,
23_bring_up_and_hallmark.md R525.) -/
def Obligations.PowerAndResetCommandsComplete : Prop :=
  (∀ (s : State) (st : Straps) (b : BootReport), s.supply.powerGood = false →
    ∃ t, exec (.pwrGoodRise st b) s = .next t ∧ t.supply.powerGood = true ∧ t.supply.straps = st ∧
      t.hmk = State.reset.hmk ∧ t.requests = [] ∧ t.force = [] ∧ t.mfg = s.mfg ∧ t.pending = s.pending) ∧
  (∀ s : State, s.supply.powerGood = true →
    ∃ t, exec .pwrGoodFall s = .next t ∧ t.supply.powerGood = false ∧ t.supply.straps = s.supply.straps ∧
      t.hmk = State.reset.hmk ∧ t.requests = [] ∧ t.strand.flows = [] ∧ t.mem.bytes = [] ∧ t.force = [] ∧
      bitOf (regGet t (cKey 0x20)) 16 = false ∧ t.nor = s.nor ∧ t.mfg = s.mfg) ∧
  (∀ (s : State) (f : Nat) (b : BootReport), mbxAt s f = true → mbxBusy s = false → resetArg s = true →
    (resetState s = true →
      ∃ t, exec (.packageReset f b) s = .next t ∧ t.supply.straps = s.supply.straps ∧ t.hmk = State.reset.hmk ∧
        t.requests = [] ∧ t.force = [] ∧ t.mfg = s.mfg) ∧
    (resetState s = false →
      ∃ t, exec (.packageReset f b) s = .next t ∧ regGet t (mbxKey 0x14) = 0x32000000#32 ∧ { t with regs := s.regs } = s))

/-- IMAGE_UPDATE of at most 8 MiB on a live package with no command busy makes the mailbox BUSY and reads the image; a
written image of an allowed version makes the copy that was not booted the preferred one. HEARTBEAT sends a heartbeat
and changes nothing else. A heartbeat timeout gives the standby the package when its facet has the register-only set,
with the hallmark HELD; otherwise the package is dead, with NO_PAIR when the standby's controller is live and
NO_CONTROLLER when it is not. Loss of the crystal makes the package dead with NO_CRYSTAL. (02_package_and_grades.md
R38, 02_package_and_grades.md R52, 23_bring_up_and_hallmark.md R509, 26_pins_and_electrical.md R561.) -/
def Obligations.AssayCommandsComplete : Prop :=
  (∀ s : State, alive s = true → mbxBusy s = false → (regGet s (mbxKey 0x10)).toNat ≤ 0x800000 →
    let fn : FnId := ⟨activeFacet s / 4, 0⟩
    ∃ t, exec .imageUpdate s = .next t ∧ t.assay.updating = true ∧ mbxBusy t = true ∧
      ({ t with regs := s.regs, assay := s.assay } : State) =
        if dmaOpen s fn then hostAsk s fn (pair (regGet s) (mbxKey 8)) (regGet s (mbxKey 0x10)).toNat else s) ∧
  (∀ (s : State) (v : BitVec 16) (b : BootReport), alive s = true → s.assay.updating = true → s.assay.resetWaits = false →
    s.mfg.minVersion.toNat ≤ v.toNat →
    ∃ t, exec (.imageUpdateDone (.written v) b) s = .next t ∧ t.nor = { s.nor with preferB := !s.assay.bootB } ∧
      t.assay.updating = false ∧ regGet t (mbxKey 0x14) = 0x20000000#32 ∧
      let u := hostBack s ⟨activeFacet s / 4, 0⟩ (pair (regGet s) (mbxKey 8)) (regGet s (mbxKey 0x10)).toNat
      let c := norCopy (!s.assay.bootB)
      t.outs = u.outs ++ [.nor norWriteCmds c.1 c.2, .nor [.fastRead] c.1 c.2, .nor norWriteCmds norBoot.1 norBoot.2] ∧
      ({ t with regs := s.regs, assay := s.assay, nor := s.nor, outs := u.outs } : State) = u) ∧
  (∀ s : State, alive s = true → s.assay.active.isSome = true →
    exec .heartbeat s = .next { s with outs := s.outs ++ [.heartbeat] }) ∧
  (∀ (s : State) (x : Side), alive s = true → s.assay.active = some x →
    (meetsR50 s (otherSide x) = true →
      ∃ t, exec .heartbeatTimeout s = .next t ∧ t.assay.active = some (otherSide x) ∧ t.assay.takeover = true ∧
        t.assay.dead = none ∧ t.hmk.state = .held) ∧
    (meetsR50 s (otherSide x) = false →
      ∃ t, exec .heartbeatTimeout s = .next t ∧ t.assay.active = none ∧
        t.assay.dead = some (if assayLive s (sideFacet (otherSide x)) then .noPair else .noController))) ∧
  (∀ s : State, alive s = true →
    ∃ t, exec .crystalLoss s = .next t ∧ t.supply.crystal = false ∧ t.assay.dead = some .noCrystal ∧ t.assay.active = none)

/-- THERMTRIP on a powered package latches, asserts THERMTRIP#, brings every port down and drives ENUM_OUT low. A TAP
instruction is held in the instruction register and changes nothing else inside the package; EXTEST and CLAMP act
while the hallmark is EMPTY or the package is dead, and act as BYPASS otherwise. (26_pins_and_electrical.md R563,
26_pins_and_electrical.md R567.) -/
def Obligations.ThermtripAndTapComplete : Prop :=
  (∀ s : State, s.supply.powerGood = true → s.supply.thermtrip = false →
    ∃ t, exec .thermtrip s = .next t ∧ t.supply.thermtrip = true ∧ t.outs.getLast? = some .thermtrip ∧
      (∀ p, (portOf t p).up = false) ∧ bitOf (regGet t (cKey 0x20)) 16 = false ∧ t.hmk = s.hmk) ∧
  (∀ (s : State) (c : Byte),
    ∃ a, exec (.jtagInstruction c) s = .next { s with supply := { s.supply with tap := c }, outs := s.outs ++ [.tap a (tapBits a)] } ∧
      (c = 0#8 → s.supply.powerGood = true → (s.assay.dead.isSome = true ∨ s.hmk.state = .empty) → a = .extest) ∧
      (c = 3#8 → s.supply.powerGood = true → (s.assay.dead.isSome = true ∨ s.hmk.state = .empty) → a = .clamp) ∧
      ((c = 0#8 ∨ c = 3#8) → s.assay.dead = none → s.hmk.state ≠ .empty → a = .bypass) ∧
      (c = 2#8 → a = .sample) ∧ (c = 0xFF#8 → a = .bypass))

/-- From EMPTY, OPEN or HELD with EJECT# not asserted, HMK_SEAL enters CHECKING with the GEN written and the CRC of that
moment. While SEALED with a tenant re-opened and neither a drain nor a check under way, it starts a per-tenant check
and the state stays SEALED. With EJECT# asserted it is refused with reason 8 and no check starts. While CHECKING,
during a drain, or SEALED with no tenant re-opened, it is ignored and counted in HMK_IGNORED.
(23_bring_up_and_hallmark.md R515, 22_rack_and_power.md R498.) -/
def Obligations.SealStartsACheck : Prop :=
  ∀ (s : State) (w : Word), alive s = true →
    (ejectAsserted s = false → (s.hmk.state = .empty ∨ s.hmk.state = .opened ∨ s.hmk.state = .held) →
      ∃ t c, exec (.hmkSeal w) s = .next t ∧ t.hmk.state = .checking ∧ t.hmk.check = some c ∧ c.gen = w.setWidth 16 ∧
        c.crc = regGet s 0x1004 ∧ c.perTenant = false ∧ t.hmk.genLast = s.hmk.genLast ∧ t.regs = s.regs ∧ t.force = s.force) ∧
    (ejectAsserted s = false → s.hmk.state = .sealed → s.hmk.reopen ≠ 0#64 → s.hmk.draining = false → s.hmk.check = none →
      ∃ t c, exec (.hmkSeal w) s = .next t ∧ t.hmk.state = .sealed ∧ t.hmk.check = some c ∧ c.gen = w.setWidth 16 ∧
        c.crc = regGet s 0x1004 ∧ c.perTenant = true ∧ { t with hmk := s.hmk } = s) ∧
    (ejectAsserted s = true → (s.hmk.state = .empty ∨ s.hmk.state = .opened ∨ s.hmk.state = .held) →
      ∃ t, exec (.hmkSeal w) s = .next t ∧ t.hmk = { s.hmk with reason := 8 } ∧ t.force = s.force) ∧
    ((s.hmk.state = .checking ∨ (s.hmk.state = .sealed ∧ (s.hmk.reopen = 0#64 ∨ s.hmk.draining = true))) →
      ∃ t, exec (.hmkSeal w) s = .next t ∧ regFld t 0x101C 0 32 = min (regFld s 0x101C 0 32 + 1) (2 ^ 32 - 1) ∧
        { t with regs := s.regs } = s)

/-- HMK_CHECK_DONE with no failing reason makes the sealed values last written the values in force, GEN_LAST becomes the
GEN of the seal, no tenant stays re-opened, the reason reads 0 and the state is SEALED. With a failing reason no
sealed value in force and no GEN_LAST changes, the reason and HMK_WHERE are reported, and the state is HELD after a
global check and stays SEALED after a per-tenant one. A check whose CRC is not the seal CRC of the sealed words
reports reason 1 at HMK_CRC, whatever else is wrong. With the CRC right, a GEN that is not one more than GEN_LAST
reports reason 2 at HMK_SEAL. A check that passes has both right. (23_bring_up_and_hallmark.md R514,
23_bring_up_and_hallmark.md R516, 23_bring_up_and_hallmark.md R517, 23_bring_up_and_hallmark.md R524,
23_bring_up_and_hallmark.md R513.) -/
def Obligations.CheckEndsTheSeal : Prop :=
  (∀ (s : State) (c : HmkCheck), alive s = true → s.hmk.check = some c → s.clear = none →
    (checkReason (checkView s c) c = none → (c.perTenant = true → s.hmk.state = .sealed) →
      ∃ t, exec .hmkCheckDone s = .next t ∧ t.hmk.state = .sealed ∧ t.hmk.genLast = c.gen ∧ t.hmk.reason = 0 ∧
        t.hmk.reopen = 0#64 ∧ t.hmk.check = none ∧ (∀ k, isSealed k = true → forceGet t k = regGet s k)) ∧
    (∀ r loc, checkReason (checkView s c) c = some (r, loc) →
      ∃ t, exec .hmkCheckDone s = .next t ∧ t.force = s.force ∧ t.hmk.genLast = s.hmk.genLast ∧ t.hmk.reason = r ∧
        t.hmk.reopen = s.hmk.reopen ∧ t.hmk.check = none ∧ regGet t 0x100C = BitVec.ofNat 32 loc ∧
        t.hmk.state = if c.perTenant then s.hmk.state else .held)) ∧
  (∀ (s : State) (c : HmkCheck),
    (c.crc ≠ sealCrc s → checkReason s c = some (1, 0x1004)) ∧
    (c.crc = sealCrc s → c.gen ≠ s.hmk.genLast + 1#16 → checkReason s c = some (2, 0x1008)) ∧
    (checkReason s c = none → c.crc = sealCrc s ∧ c.gen = s.hmk.genLast + 1#16 ∧ (∀ k, k ∈ requiredKeys s → k ∈ s.hmk.written) ∧
      reservedBad s = [] ∧ inconsistent s = [] ∧ oversubscribed s = []))

/-- OPEN in EMPTY, or in HELD not left by a quiesce, takes effect at once. OPEN while SEALED starts a drain and the state
stays SEALED. OPEN in OPEN, CHECKING or during a drain is ignored and counted. A drain with nothing left in flight
ends in OPEN, as does one whose limit passes; then no tenant is re-opened and no required register counts as written.
OPEN_TENANT of tenant 1 to 64, while SEALED with neither a drain nor a check, marks that tenant re-opened and leaves
every other tenant's mark. (23_bring_up_and_hallmark.md R516, 23_bring_up_and_hallmark.md R519,
23_bring_up_and_hallmark.md R520, 23_bring_up_and_hallmark.md R522.) -/
def Obligations.OpenAndDrainComplete : Prop :=
  ∀ s : State, alive s = true →
    ((s.hmk.state = .empty ∨ (s.hmk.state = .held ∧ s.hmk.quiesced = false)) →
      ∃ t, exec .openAll s = .next t ∧ t.hmk = { s.hmk with state := .opened, reopen := 0#64 } ∧ t.force = s.force ∧ t.regs = s.regs) ∧
    (s.hmk.state = .sealed → s.hmk.draining = false →
      ∃ t, exec .openAll s = .next t ∧ t.hmk = { s.hmk with draining := true }) ∧
    ((s.hmk.state = .opened ∨ s.hmk.state = .checking ∨ (s.hmk.state = .sealed ∧ s.hmk.draining = true)) →
      ∃ t, exec .openAll s = .next t ∧ regFld t 0x101C 0 32 = min (regFld s 0x101C 0 32 + 1) (2 ^ 32 - 1) ∧
        { t with regs := s.regs } = s) ∧
    (s.hmk.draining = true →
      (drained s = true →
        ∃ t, exec .drainComplete s = .next t ∧ t.hmk.state = .opened ∧ t.hmk.draining = false ∧ t.hmk.reopen = 0#64 ∧
          t.hmk.written = [] ∧ t.force = s.force) ∧
      (∃ t, exec .hmkDrainX s = .next t ∧ t.hmk.state = .opened ∧ t.hmk.draining = false ∧ t.hmk.reopen = 0#64 ∧
          t.hmk.written = [] ∧ t.force = s.force)) ∧
    (∀ n, 1 ≤ n → n ≤ 64 → s.hmk.state = .sealed → s.hmk.draining = false → s.hmk.check = none →
      ∃ t, exec (.openTenant n) s = .next t ∧ t.hmk.state = .sealed ∧ reopened t n = true ∧
        (∀ m, 1 ≤ m → m ≤ 64 → m ≠ n → reopened t m = reopened s m) ∧ { t with regs := s.regs, hmk := s.hmk } = s)

/-- In EMPTY and OPEN a write of a sealed register is stored. In CHECKING and HELD, and in SEALED with no tenant re-
opened, it changes no register but HMK_IGNORED, which counts it. No write of a sealed register changes a value in
force. (23_bring_up_and_hallmark.md R512, 23_bring_up_and_hallmark.md R523.) -/
def Obligations.SealedWritesNeedAnOpenHallmark : Prop :=
  ∀ (s : State) (k : Nat) (w : Word), isSealed k = true →
    ((s.hmk.state = .empty ∨ s.hmk.state = .opened) → regGet (sealedWrite s k w) k = w ∧
      ∀ j, j ≠ k → regGet (sealedWrite s k w) j = regGet s j) ∧
    ((s.hmk.state = .checking ∨ s.hmk.state = .held ∨ (s.hmk.state = .sealed ∧ s.hmk.reopen = 0#64)) →
      regFld (sealedWrite s k w) 0x101C 0 32 = min (regFld s 0x101C 0 32 + 1) (2 ^ 32 - 1) ∧
      ∀ j, j ≠ 0x101C → regGet (sealedWrite s k w) j = regGet s j) ∧
    (sealedWrite s k w).force = s.force

/-- EJECT# asserted outside a quiesce is shown as asserted and the quiesce starts. At t0 + 4.0 ms every flow still open is
reset with DEPARTING. At t0 + 4.5 ms the requests that remain end with DEPARTING. At t0 + 5.0 ms a SEALED package is
HELD with EJECTED, which only a seal leaves. EJECT# released while the package is quiet shows the quiesce as over.
(22_rack_and_power.md R496, 22_rack_and_power.md R498.) -/
def Obligations.EjectAndQuiesceComplete : Prop :=
  ∀ s : State, alive s = true →
    (ejectAsserted s = false → ejectState s ≠ 1 →
      ∃ s1, exec .ejectAsserted s = .next (ejectStart s1) ∧ ejectAsserted s1 = true ∧ { s1 with regs := s.regs } = s) ∧
    (ejectState s = 1 → exec .quiesceFlowReset s = .next (resetFlows s .departing)) ∧
    (ejectState s = 1 → s.hmk.state ≠ .sealed →
      exec .quiesceRequestFail s = .next (settle (strandSettle (endAll s .departing)))) ∧
    (ejectState s = 1 → s.hmk.state = .sealed →
      exec .quiesceRequestFail s = .next (quiesceFail s) ∧
      ∃ t, exec .quiesceHeld s = .next t ∧ t.hmk.state = .held ∧ t.hmk.reason = 0x12 ∧ t.hmk.quiesced = true ∧
        (ejectState t = 2 ∨ ejectState t = 0)) ∧
    (ejectAsserted s = true →
      ∃ t, exec .ejectReleased s = .next t ∧ ejectAsserted t = false ∧
        ejectState t = (if ejectState s = 2 then 0 else ejectState s) ∧ { t with regs := s.regs } = s)

/-- A power-loop iteration shows the measured power in PWR_PKG, raises PWR_PEAK to it, and shows each facet's share.
PWRBRAKE# taken as asserted shows the brake and a limit of 40% of the cap; released, the limit is the cap in force
again. Neither changes the cap, the hallmark or a sealed value. (22_rack_and_power.md R489, 22_rack_and_power.md R490,
22_rack_and_power.md R492, 22_rack_and_power.md R493.) -/
def Obligations.PowerCommandsComplete : Prop :=
  (∀ (s : State) (m : PowerSample), alive s = true →
    ∃ t, exec (.powerLoopIteration m) s = .next t ∧ regGet t (aKey 0xE0104) = BitVec.ofNat 32 (m.pkg % 2 ^ 16) ∧
      regFld t (aKey 0xE0108) 0 16 = min (max (regFld s (aKey 0xE0108) 0 16) m.pkg) (2 ^ 16 - 1) ∧
      capCode t = capCode s ∧ t.hmk = s.hmk ∧ t.force = s.force ∧ t.power.brake = s.power.brake) ∧
  (∀ s : State, alive s = true → s.power.brake = false →
    ∃ t, exec .pwrbrakeAsserted s = .next t ∧ t.power.brake = true ∧ bitOf (regGet t capKey) 31 = true ∧
      capCode t = capCode s ∧ regFld t capKey 8 8 = capCode s * 2 / 5 ∧ t.hmk = s.hmk ∧ t.force = s.force) ∧
  (∀ s : State, alive s = true → s.power.brake = true →
    ∃ t, exec .pwrbrakeReleased s = .next t ∧ t.power.brake = false ∧ bitOf (regGet t capKey) 31 = false ∧
      capCode t = capCode s ∧ regFld t capKey 8 8 = capCode s ∧ t.hmk = s.hmk ∧ t.force = s.force)

/-- Shedding any number of steps from full grants on all facets, with every ceiling at most 104: no partition's code
rises, and if the code of some class 0 partition falls, then every partition of class 1, 2 or 3 stands at code 0 and
every facet's p and duty stand at 0.30 and 0.25. (22_rack_and_power.md R493.) -/
def Obligations.SheddingSparesClassZeroUntilLast : Prop :=
  ∀ (s : State) (n : Nat), (∀ p, p < 64 → (fullGrants s).codes.getD p 0 ≤ 104) →
    (∀ p, p < 64 → (shed s (upto 8) n (fullGrants s)).codes.getD p 0 ≤ (fullGrants s).codes.getD p 0) ∧
    ∀ p, p < 64 → partClass s p = some 0 →
      (shed s (upto 8) n (fullGrants s)).codes.getD p 0 < (fullGrants s).codes.getD p 0 →
      (∀ q c, q < 64 → 1 ≤ c → c ≤ 3 → partClass s q = some c → (shed s (upto 8) n (fullGrants s)).codes.getD q 0 = 0) ∧
      (∀ f, f < 8 → (shed s (upto 8) n (fullGrants s)).p.getD f 20 = 6 ∧
        (shed s (upto 8) n (fullGrants s)).duty.getD f 20 = 5)

/-- When a request fetched from a ring ends and its function is not in D3hot, its tag is free and POSTED rises by one, the
completion owed is given back, no other request changes, and the hallmark, memory and all registers but the facets' two
prefetch-waste counts stand; and when the function's PCIe port is live and no translation that came back for the
request denies access to the entry's 32 bytes, its completion entry is written, in transfers of the port's
Max_Payload_Size, at the completion ring's posting place with its status code, USER, ring, slot, MORE 0 and the pass's
PHASE. In D3hot the completion waits and the tag stays taken. (17_rings_and_doorbells.md R377,
17_rings_and_doorbells.md R379, 17_rings_and_doorbells.md R384, 16_host_attach.md R350.) -/
def Obligations.EndingARequestPostsItsCompletion : Prop :=
  ∀ (s : State) (tag : Nat) (r : Request) (st : Status) (result : List Nat) (fn : FnId) (ring cq log2 : Nat) (index : Word),
    look s.requests tag = some r → r.source = .ring fn ring index cq log2 →
    ((funcOf s fn).d3hot = false →
      let t := endRequest s tag st result
      let c := cqOf s (ringNo fn cq)
      let clog := fld (cqCfg s (ringNo fn cq)) 16 5
      let a := fnPair s fn (0x400 + 32 * cq) + 32 * (c.posted % 2 ^ clog)
      let e := completionBytes result r.user ((sqOf s (ringNo fn ring)).fetch.toNat % 2 ^ 16) ring (statusCode st)
        (index.toNat % 2 ^ log2) false (phaseAt c.posted clog)
      look t.requests tag = none ∧ (∀ g, g ≠ tag → look t.requests g = look s.requests g) ∧
      (hostLive s (portFacet fn.port) = true → noAccess r a 32 = false →
        ∀ x, x ∈ hostParts (maxPayload s fn.port) a e.length → .hostWrite fn (pasidOf s fn) x.1 (slice e (x.1 - a) x.2) ∈ t.outs) ∧
      (cqOf t (ringNo fn cq)).posted = c.posted + 1 ∧ (cqOf t (ringNo fn cq)).owed = c.owed - 1 ∧
      (∀ k, (∀ f, f < 8 → k ≠ fKey f 0x50028 ∧ k ≠ fKey f 0x5002C) → regGet t k = regGet s k) ∧
      (look s.searches tag = none → (∀ p, r.pipe = some p → p.slots = []) → t.regs = s.regs) ∧
      t.hmk = s.hmk ∧ t.mem = s.mem ∧ t.force = s.force ∧ t.clk = s.clk ∧ t.coh = s.coh) ∧
    ((funcOf s fn).d3hot = true →
      let t := endRequest s tag st result
      (∀ g, (look t.requests g).isSome = (look s.requests g).isSome) ∧ look t.parked tag = some (st, result) ∧
        t.outs = s.outs ∧ t.rings = s.rings)

/-- NOP of a started request whose body is 48 zero bytes ends it with OK and no result; then what waited for it starts. (A
body that is not all zero ends it with BAD_FIELD: log entry 22, not part of this statement.) (R375.) -/
def Obligations.NopCompletesAtOnce : Prop :=
  ∀ (s : State) (tag : Nat) (r : Request), running s tag 0 = some r → zeroAt r.body 0 48 = true →
    exec (.nop tag) s = .next (settle (endRequest s tag .ok []))

/-- FENCE of a started request with SCOPE 0 to 2 and every other body byte 0 keeps its bounds and is judged, and then
whatever is due happens; a request at or above a bound of a fence in force does not start. With another body it ends
with BAD_FIELD. A judged fence ends with OK only when every predecessor below its bounds has gone.
(17_rings_and_doorbells.md R376.) -/
def Obligations.FenceHoldsAndCompletes : Prop :=
  (∀ (s : State) (tag : Nat) (r : Request) (h : FenceHold), running s tag 1 = some r → rdB r.body 0 ≤ 2 →
    zeroAt r.body 1 47 = true → r.fence = some h →
    exec (.fence tag) s = .next (settle (setRequest s tag { r with fence := some { h with judged := true } }))) ∧
  (∀ (s : State) (tag : Nat) (r : Request), running s tag 1 = some r → (3 ≤ rdB r.body 0 ∨ zeroAt r.body 1 47 = false) →
    exec (.fence tag) s = .next (settle (endRequest s tag .badField []))) ∧
  (∀ (s : State) (tag ft : Nat) (r f : Request) (h : FenceHold) (rk : Nat) (i b : Word), (ft, f) ∈ s.requests → ft ≠ tag →
    f.fence = some h → (rk, b) ∈ h.bounds → ringOf r = some (rk, i) → reached i b = true → mayStart s tag r = false) ∧
  (∀ (s : State) (tag : Nat), nextDue s = some (.fenceOk tag) →
    ∃ r h, (tag, r) ∈ s.requests ∧ r.fence = some h ∧ h.judged = true ∧
      ∀ b, b ∈ h.bounds → ∀ p, p ∈ s.requests → p.1 ≠ tag → p.2.attached = false → ∀ i, ringOf p.2 = some (b.1, i) →
        reached i b.2 = true)

/-- DOORBELL_POLL of an enabled idle line reads its 64 bytes and changes nothing but rings, the port's reads, translations kept and outputs. Poll data with the
line's EPOCH gives the one ring bound to the line its new producer index when the entries fit the ring; an index that
leads too far, or backward, leaves the index and stops the ring with fault OVERRUN or BACKWARD. Data with another
EPOCH gives no ring an index and counts in MISS. (17_rings_and_doorbells.md R362, 17_rings_and_doorbells.md R363,
17_rings_and_doorbells.md R364.) -/
def Obligations.DoorbellCommandsComplete : Prop :=
  ∀ (s : State) (port tn d : Nat), reachable s ⟨port, tn⟩ = true → d < 4 → dbOn s ⟨port, tn⟩ d = true →
    ((funcOf s ⟨port, tn⟩).d3hot = false → (lineOf s ⟨port, tn⟩ d).polling = false →
      ∃ t, exec (.doorbellPoll port tn d) s = .next t ∧ (lineOf t ⟨port, tn⟩ d).polling = true ∧
        t.outs = (hostAsk s ⟨port, tn⟩ (fnPair s ⟨port, tn⟩ (0x800 + 16 * d)) 64).outs ∧
        t.ports = (hostAsk s ⟨port, tn⟩ (fnPair s ⟨port, tn⟩ (0x800 + 16 * d)) 64).ports ∧
        { t with rings := s.rings, outs := s.outs, ports := s.ports, atc := s.atc } = s) ∧
    ((lineOf s ⟨port, tn⟩ d).polling = true → ∀ (line : List Byte) (r : Nat), ringsOnLine s ⟨port, tn⟩ d = [r] →
      let rk := ringNo ⟨port, tn⟩ r
      let q := sqOf s rk
      let pi := linePi line (fld (sqCfg s rk) 0 4)
      q.fault = .none →
      (lineEpoch line = fld (dbCfg s ⟨port, tn⟩ d) 16 16 → (pi - q.prec).toNat ≠ 0 →
        ((q.prec - q.fetch).toNat + (pi - q.prec).toNat ≤ 2 ^ fld (sqCfg s rk) 16 5 →
          ∃ t, exec (.doorbellPollData port tn d line .good) s = .next t ∧ (sqOf t rk).prec = pi ∧
            (sqOf t rk).fetch = q.fetch ∧ (sqOf t rk).fault = .none ∧ (lineOf t ⟨port, tn⟩ d).polling = false ∧
            (lineOf t ⟨port, tn⟩ d).interval = pollMin s ⟨port, tn⟩) ∧
        (2 ^ fld (sqCfg s rk) 16 5 < (q.prec - q.fetch).toNat + (pi - q.prec).toNat →
          ∃ t, exec (.doorbellPollData port tn d line .good) s = .next t ∧ (sqOf t rk).prec = q.prec ∧
            (sqOf t rk).fault = (if 2 ^ 31 ≤ (pi - q.prec).toNat then .backward else .overrun))) ∧
      (lineEpoch line ≠ fld (dbCfg s ⟨port, tn⟩ d) 16 16 →
        ∃ t, exec (.doorbellPollData port tn d line .good) s = .next t ∧ sqOf t rk = q ∧
          regFld t (fnBase ⟨port, tn⟩ + 0x808 + 16 * d) 8 8 =
            min (regFld s (fnBase ⟨port, tn⟩ + 0x808 + 16 * d) 8 8 + 1) 255))

/-- When a ring may fetch and a tag is free, a descriptor without extension that passes its header checks advances the
fetch index by one and takes the least free tag; the request under that tag has the descriptor's opcode and USER, the
function's tenant and the ring and index it came from. No request that was in flight is given another tenant.
(17_rings_and_doorbells.md R368, 17_rings_and_doorbells.md R374, 17_rings_and_doorbells.md R384.) -/
def Obligations.DescriptorTakesATag : Prop :=
  ∀ (s : State) (port tn ring tag : Nat) (e body : List Byte),
    mayFetch s ⟨port, tn⟩ ring = true → freeKey s.requests 0 65536 = some tag →
    let rk := ringNo ⟨port, tn⟩ ring
    let fmtB := bitOf (sqCfg s rk) 30
    (sqOf s rk).heldDesc = none → hasExt fmtB e = false → fetchFault fmtB e .good .good = none →
    ∃ t r, exec (.descriptorFetchData port tn ring e .good body .good) s = .next t ∧
      (sqOf t rk).fetch = (sqOf s rk).fetch + 1#32 ∧ look t.requests tag = some r ∧ r.opcode = rdB e 0 ∧ r.tenant = tn ∧
      r.user = BitVec.ofNat 64 (rdLe e 8 8) ∧ r.headFault = none ∧ ringOf r = some (rk, (sqOf s rk).fetch) ∧
      (∀ g r', look s.requests g = some r' → g ≠ tag → ∀ r'', look t.requests g = some r'' → r''.tenant = r'.tenant)

/-- The header check answers BAD_OPCODE for every first byte that is no opcode, whatever else the descriptor holds; for a
known opcode other than PIPELINE in format A, a reserved flag bit or a nonzero reserved byte 2 to 7 is BAD_FIELD;
PIPELINE in format A is BAD_PLAN. (17_rings_and_doorbells.md R374.) -/
def Obligations.HeaderChecksRefuseInOrder : Prop :=
  (∀ (b : Bool) (e : List Byte), look opcodes (rdB e 0) = none → headerFault b e = some .badOpcode) ∧
  (∀ (b : Bool) (e : List Byte), (look opcodes (rdB e 0)).isSome = true → rdB e 0 ≠ 0x20 →
    (rdB e 1 % 64 ≠ 0 ∨ zeroAt e 2 6 = false) → headerFault b e = some .badField) ∧
  (∀ e : List Byte, rdB e 0 = 0x20 → headerFault false e = some .badPlan)

/-- While a completion ring has no room, a head word between the last one read and POSTED becomes the ring's head and
nothing but rings and the port's reads changes; the read leaves when the port has a tag for it and no read waits. When MOD_US has run for a ring whose timer runs, the timer stops and no entry counts as
unsignalled; the same holds of an event ring. (17_rings_and_doorbells.md R381, 17_rings_and_doorbells.md R382,
17_rings_and_doorbells.md R383, 24_errors_and_events.md R537.) -/
def Obligations.HeadWordsAndModeration : Prop :=
  ∀ (s : State) (port tn : Nat), reachable s ⟨port, tn⟩ = true →
    (∀ c head, (funcOf s ⟨port, tn⟩).d3hot = false → awaitsHead s ⟨port, tn⟩ (some c) = true →
      (cqOf s (ringNo ⟨port, tn⟩ c)).head ≤ head → head ≤ (cqOf s (ringNo ⟨port, tn⟩ c)).posted →
      ∃ t, exec (.cqHeadReread port tn (some c) head .good) s = .next t ∧
        cqOf t (ringNo ⟨port, tn⟩ c) = { cqOf s (ringNo ⟨port, tn⟩ c) with head := head } ∧
        ((portOf s port).held = [] → (portOf s port).reads.length < readBound s port → (fnConfig s ⟨port, tn⟩).ats = false →
          fnPair s ⟨port, tn⟩ (0x408 + 32 * c) % 8 = 0 →
          .hostRead ⟨port, tn⟩ (pasidOf s ⟨port, tn⟩) (fnPair s ⟨port, tn⟩ (0x408 + 32 * c)) 8 ∈ t.outs) ∧
        { t with rings := s.rings, ports := s.ports, atc := s.atc, outs := s.outs } = s) ∧
    (∀ c, c < 32 → cqOn s (ringNo ⟨port, tn⟩ c) = true → (cqOf s (ringNo ⟨port, tn⟩ c)).timer = true →
      ∃ t, exec (.modUsExpiry port tn (some c)) s = .next t ∧
        cqOf t (ringNo ⟨port, tn⟩ c) = { cqOf s (ringNo ⟨port, tn⟩ c) with unsignalled := 0, timer := false } ∧
        t.sansEvents = s.sansEvents) ∧
    (evtOn s ⟨port, tn⟩ = true → (evtOf s ⟨port, tn⟩).timer = true →
      ∃ t, exec (.modUsExpiry port tn none) s = .next t ∧
        evtOf t ⟨port, tn⟩ = { evtOf s ⟨port, tn⟩ with unsignalled := 0, timer := false } ∧ t.sansEvents = s.sansEvents)

/-- A submission ring with a sound set-up whose line shows the EPOCH enables with both indices at the line's producer
index; an unsound set-up leaves it disabled with fault CONFIG. A completion ring with sound fields enables with
POSTED, OWED and head 0; an aligned doorbell line enables at the poll minimum and is idle; a tenant's event ring
enables with POSTED 0 while not SEALED. RING_DISABLE of a submission ring clears its ENABLE, of an unbound completion
ring with nothing owed and of a line no ring uses likewise; a completion ring still bound is left as it is.
(17_rings_and_doorbells.md R387, 17_rings_and_doorbells.md R388, 24_errors_and_events.md R538.) -/
def Obligations.RingSetupCommandsComplete : Prop :=
  ∀ (s : State) (port tn i : Nat) (w : Word), reachable s ⟨port, tn⟩ = true →
    (i < 32 → sqOn s (ringNo ⟨port, tn⟩ i) = false → bitOf w 31 = true →
      (∀ line, sqSetupOk s ⟨port, tn⟩ i w = true → lineEpoch line = fld (dbCfg s ⟨port, tn⟩ (fld w 4 2)) 16 16 →
        ∃ t, exec (.rngSqEnable port tn i w line .good) s = .next t ∧ sqOn t (ringNo ⟨port, tn⟩ i) = true ∧
          sqOf t (ringNo ⟨port, tn⟩ i) = ⟨linePi line (fld w 0 4), linePi line (fld w 0 4), .none, none⟩) ∧
      (∀ line st, sqSetupOk s ⟨port, tn⟩ i w = false →
        ∃ t, exec (.rngSqEnable port tn i w line st) s = .next t ∧ sqOn t (ringNo ⟨port, tn⟩ i) = false ∧
          (sqOf t (ringNo ⟨port, tn⟩ i)).fault = .config)) ∧
    (i < 32 → cqOn s (ringNo ⟨port, tn⟩ i) = false → bitOf w 31 = true → log2Ok w = true →
      fnPair s ⟨port, tn⟩ (0x400 + 32 * i) % 4096 = 0 → fnPair s ⟨port, tn⟩ (0x408 + 32 * i) % 8 = 0 →
      ∃ t, exec (.rngCqEnable port tn i w) s = .next t ∧ cqOn t (ringNo ⟨port, tn⟩ i) = true ∧
        cqOf t (ringNo ⟨port, tn⟩ i) = ⟨0, 0, 0, 0, false⟩ ∧ { t with regs := s.regs, rings := s.rings } = s) ∧
    (i < 4 → dbOn s ⟨port, tn⟩ i = false → bitOf w 0 = true → fnPair s ⟨port, tn⟩ (0x800 + 16 * i) % 64 = 0 →
      ∃ t, exec (.rngDbEnable port tn i w) s = .next t ∧ dbOn t ⟨port, tn⟩ i = true ∧
        lineOf t ⟨port, tn⟩ i = ⟨pollMin s ⟨port, tn⟩, false⟩ ∧ { t with regs := s.regs, rings := s.rings } = s) ∧
    (tn ≠ 0 → isSealedNow s = false → evtOn s ⟨port, tn⟩ = false → bitOf w 31 = true → log2Ok w = true →
      fnPair s ⟨port, tn⟩ 0x1000 % 4096 = 0 → fnPair s ⟨port, tn⟩ 0x1008 % 8 = 0 →
      ∃ t, exec (.evtEnable port tn w) s = .next t ∧ evtOn t ⟨port, tn⟩ = true ∧ (evtOf t ⟨port, tn⟩).posted = 0 ∧
        (evtOf t ⟨port, tn⟩).lost = (evtOf s ⟨port, tn⟩).lost ∧ { t with regs := s.regs, rings := s.rings } = s) ∧
    (i < 32 → sqOn s (ringNo ⟨port, tn⟩ i) = true →
      ∃ t, exec (.ringDisable port tn .sq i w) s = .next t ∧ sqOn t (ringNo ⟨port, tn⟩ i) = false) ∧
    (i < 32 → cqOn s (ringNo ⟨port, tn⟩ i) = true →
      (cqBound s ⟨port, tn⟩ i = false → (cqOf s (ringNo ⟨port, tn⟩ i)).owed = 0 →
        ∃ t, exec (.ringDisable port tn .cq i w) s = .next t ∧ cqOn t (ringNo ⟨port, tn⟩ i) = false ∧
          { t with regs := s.regs } = s) ∧
      (cqBound s ⟨port, tn⟩ i = true → exec (.ringDisable port tn .cq i w) s = .next s)) ∧
    (i < 4 → dbOn s ⟨port, tn⟩ i = true → ringsOnLine s ⟨port, tn⟩ i = [] →
      ∃ t, exec (.ringDisable port tn .db i w) s = .next t ∧ dbOn t ⟨port, tn⟩ i = false ∧
        { t with regs := s.regs, rings := s.rings } = s)

/-- A completion of a request's host read adds the piece to the request's host data, and good data changes nothing else but the
ports' reads: none of the request's whose bytes have all come stays outstanding or waits. A completion timeout adds the bytes asked for as a poisoned piece; a poisoned piece counts one poisoning of origin HOST
for each flit of it on the port's facet and makes no other change to the request. (08_integrity_chain.md R166, 16_host_attach.md R344.) -/
def Obligations.HostReadsReachTheirRequest : Prop :=
  ∀ (s : State) (tag addr : Nat) (r : Request), alive s = true → look s.requests tag = some r →
    (∀ data, ∃ t, exec (.hostReadCompletion tag addr data .good) s = .next t ∧
      look t.requests tag = some { r with hostIn := r.hostIn ++ [⟨addr, data, .good⟩] } ∧
      (∀ p x, p < 2 → x ∈ (portOf t p).reads ++ (portOf t p).held → x.tag = tag →
        askHere { r with hostIn := r.hostIn ++ [⟨addr, data, .good⟩] } x = false) ∧
      { t with requests := s.requests, ports := s.ports, atc := s.atc, outs := s.outs } = s) ∧
    (∀ len, ∃ t, exec (.completionTimeout tag addr len) s = .next t ∧
      look t.requests tag = some { r with hostIn := r.hostIn ++ [⟨addr, List.replicate len 0#8, .poisoned⟩] } ∧
      regFld t (fKey (portFacet (requestFn r).port) 0x44) 8 8 =
        min (regFld s (fKey (portFacet (requestFn r).port) 0x44) 8 8 + (flitOf (len - 1) + 1)) 255)

/-- A port that may train comes up at the rate and width trained, with the settings of its configuration space, and HST_LINK
shows them; LINK_CHANGE is sent when an event had taken the link down before. A link that goes down, and a hot reset,
leave the port down with VF Enable and NumVFs 0 and its settings at reset, add 1 to DOWN_COUNT, clear HST_LINK's state
and abandon the requests of the port's physical function; PERST# asserted on a port that is up does the same and is
held, and on a port that is not up it is held. A function-level reset of a virtual function abandons its requests and
returns its set-up to reset values; a physical function's reset also clears VF Enable and NumVFs and returns the
settings to reset, and the link stays up. None of these changes the hallmark, a sealed value in force or the other
port. VF Enable set gives the port its virtual functions; cleared, it takes them away and abandons their requests. A
function that configuration requests reach enters D3hot, and leaves it on its return. An ATS invalidate takes the
function's translations away; it is answered at once on a port that carries traffic and has no read of the function
outstanding, and otherwise waits until the last of those reads has completed. A port's translation cache never exceeds
2,048 entries. A transfer to or from host memory is cut so that no piece exceeds the limit or crosses
4 KiB, and together the pieces are the transfer; a port never has more reads outstanding than its tags. (16_host_attach.md
R341, 16_host_attach.md R343, 16_host_attach.md R345, 16_host_attach.md R346, 16_host_attach.md R350, 16_host_attach.md
R353, 16_host_attach.md R354, 16_host_attach.md R356, 16_host_attach.md R358, 16_host_attach.md R359, 16_host_attach.md R360.) -/
def Obligations.LinkAndFunctionCommandsComplete : Prop :=
  (∀ (s : State) (p speed width : Nat) (cfg : PortConfig), mayTrain s p = true → p < 2 → (portOf s p).up = false →
    3 ≤ speed → speed ≤ 6 → [1, 4, 8, 16].contains width = true →
    ∃ t, exec (.linkUp p speed width cfg) s = .next t ∧ (portOf t p).up = true ∧ (portOf t p).config = cfg ∧
      (portOf t p).speed = speed ∧ (portOf t p).width = width ∧ regFld t (linkKey p) 0 4 = speed ∧
      regFld t (linkKey p) 4 4 = width % 16 ∧ regFld t (linkKey p) 8 1 = 1 ∧ t.hmk = s.hmk ∧ t.force = s.force ∧
      ((portOf s p).cameDown = false → { t with ports := s.ports, regs := s.regs } = s) ∧
      ((portOf s p).cameDown = true → alive s = true →
        mapGet (fun _ => 0) t.rings.seqs 0 = (mapGet (fun _ => 0) s.rings.seqs 0 + 1) % 2 ^ 32)) ∧
  (∀ (s : State) (p : Nat), s.supply.powerGood = true → p < 2 → (portOf s p).up = true →
    (∀ c, c ∈ [1, 2, 3] →
      (portOf (portDown s p c) p).up = false ∧ (portOf (portDown s p c) p).vfEnable = false ∧
      (portOf (portDown s p c) p).numVfs = 0 ∧ (portOf (portDown s p c) p).config = portReset.config ∧
      (portOf (portDown s p c) p).cameDown = true ∧ portOf (portDown s p c) (1 - p) = portOf s (1 - p) ∧
      regFld (portDown s p c) (linkKey p) 16 16 = min (regFld s (linkKey p) 16 16 + 1) (2 ^ 16 - 1) ∧
      regFld (portDown s p c) (linkKey p) 0 10 = 0 ∧
      (∀ tag r, look (portDown s p c).requests tag = some r → fetchedBy ⟨p, 0⟩ r = false) ∧
      (portDown s p c).hmk = s.hmk ∧ (portDown s p c).force = s.force) ∧
    exec (.linkDown p) s = .next (portDown s p 1) ∧ exec (.hotReset p) s = .next (portDown s p 3) ∧
    ((portOf s p).perst = false →
      exec (.perstAssert p) s = .next (setPort (portDown s p 2) p { portOf (portDown s p 2) p with perst := true })) ∧
    (∃ t, exec (.pfFlr p) s = .next t ∧ (portOf t p).up = true ∧ (portOf t p).vfEnable = false ∧ (portOf t p).numVfs = 0 ∧
      (portOf t p).config = portReset.config ∧ portOf t (1 - p) = portOf s (1 - p) ∧
      (∀ tag r, look t.requests tag = some r → fetchedBy ⟨p, 0⟩ r = false) ∧ t.hmk = s.hmk ∧ t.force = s.force) ∧
    ((portOf s p).vfEnable = true →
      ∃ t, exec (.vfEnableClear p) s = .next t ∧ (portOf t p).vfEnable = false ∧ (portOf t p).up = true ∧
        (portOf t p).numVfs = (portOf s p).numVfs ∧ portOf t (1 - p) = portOf s (1 - p) ∧
        (∀ v tag r, 1 ≤ v → v ≤ 64 → fnEnabled s ⟨p, v⟩ = true → look t.requests tag = some r → fetchedBy ⟨p, v⟩ r = false) ∧
        t.hmk = s.hmk ∧ t.force = s.force) ∧
    (∀ n, n ≤ 64 → (portOf s p).vfEnable = false →
      exec (.vfEnableSet p n) s = .next (setPort s p { portOf s p with vfEnable := true, numVfs := n }))) ∧
  (∀ (s : State) (p : Nat), s.supply.powerGood = true → p < 2 → (portOf s p).perst = false → (portOf s p).up = false →
    ∃ t, exec (.perstAssert p) s = .next t ∧ (portOf t p).perst = true ∧ (portOf t p).up = false ∧ t.hmk = s.hmk ∧
      t.requests = s.requests) ∧
  (∀ (s : State) (p v : Nat), s.supply.powerGood = true → 1 ≤ v → v ≤ 64 → fnEnabled s ⟨p, v⟩ = true → cfgReach s ⟨p, v⟩ = true →
    exec (.vfFlr p v) s = .next (afterReset (flrOne s ⟨p, v⟩)) ∧
    (∀ off, off < 0x2000 → regGet (flrOne s ⟨p, v⟩) (fnBase ⟨p, v⟩ + off) = resetWord (fnBase ⟨p, v⟩ + off)) ∧
    (∀ tag r, look (flrOne s ⟨p, v⟩).requests tag = some r → fetchedBy ⟨p, v⟩ r = false) ∧
    (flrOne s ⟨p, v⟩).force = s.force ∧ (flrOne s ⟨p, v⟩).hmk = s.hmk ∧
    ∃ t, exec (.vfFlr p v) s = .next t ∧ (portOf t p).up = true ∧ (portOf t p).vfEnable = (portOf s p).vfEnable ∧
      (portOf t p).config = (portOf s p).config ∧ (∀ tag r, look t.requests tag = some r → fetchedBy ⟨p, v⟩ r = false) ∧
      t.hmk = s.hmk ∧ t.force = s.force) ∧
  (∀ (s : State) (p v : Nat), alive s = true → fnEnabled s ⟨p, v⟩ = true → v ≤ 64 → cfgReach s ⟨p, v⟩ = true →
    ((funcOf s ⟨p, v⟩).d3hot = false →
      exec (.d3hotTransition p v true) s = .next (setFunc s ⟨p, v⟩ { funcOf s ⟨p, v⟩ with d3hot := true })) ∧
    ((funcOf s ⟨p, v⟩).d3hot = true →
      ∃ t, exec (.d3hotTransition p v false) s = .next t ∧ (funcOf t ⟨p, v⟩).d3hot = false)) ∧
  (∀ (s : State) (p v id : Nat), s.supply.powerGood = true → fnEnabled s ⟨p, v⟩ = true → hostLive s (portFacet p) = true →
    (fnConfig s ⟨p, v⟩).ats = true →
    (∀ w, w ∈ (portOf s p).invals → w.left.any (fun x => (portOf s p).reads.contains x) = true) →
    ∃ t, exec (.atsInvalidateRequest p v id) s = .next t ∧ (∀ x, x ∈ atcOf t p → x.tenant ≠ v) ∧
      (readsOf s ⟨p, v⟩ = [] → t.outs = s.outs ++ [.atsAnswer ⟨p, v⟩ id] ∧ portOf t p = portOf s p) ∧
      (readsOf s ⟨p, v⟩ ≠ [] → t.outs = s.outs ∧
        portOf t p = { portOf s p with invals := (portOf s p).invals ++ [⟨v, id, readsOf s ⟨p, v⟩⟩] }) ∧
      { t with ports := s.ports, atc := s.atc, outs := s.outs } = s) ∧
  (∀ (s : State) (fn : FnId) (id a n : Nat) (left : List HostAsk), (portOf s fn.port).invals = [⟨fn.tenant, id, left⟩] → left ≠ [] →
    (∀ x, x ∈ left → x ∈ (portOf s fn.port).reads ∧ x.tenant = fn.tenant ∧ x.tag = ownReads ∧ a ≤ x.addr ∧ x.addr + x.len ≤ a + n) →
    .atsAnswer fn id ∈ (hostBack s fn a n).outs ∧ (portOf (hostBack s fn a n) fn.port).invals = []) ∧
  (∀ (s : State) (fn : FnId) (a n : Nat), (atcOf s fn.port).length ≤ 2048 → (atcOf (hostAsk s fn a n) fn.port).length ≤ 2048) ∧
  (∀ m a n, 128 ≤ m → ((hostParts m a n).map (·.2)).sum = n ∧
    ∀ x, x ∈ hostParts m a n → 1 ≤ x.2 ∧ x.2 ≤ m ∧ a ≤ x.1 ∧ x.1 + x.2 ≤ a + n ∧ x.1 / 4096 = (x.1 + x.2 - 1) / 4096) ∧
  (∀ (s : State) (p : Nat), 128 ≤ maxPayload s p ∧ maxPayload s p ≤ 512 ∧ 128 ≤ maxRead s p ∧ maxRead s p ≤ 4096) ∧
  (∀ (s : State) (fn : FnId) (a n : Nat), (portOf s fn.port).reads.length ≤ readBound s fn.port →
    (portOf (hostAsk s fn a n) fn.port).reads.length ≤ readBound s fn.port)

/-- On a live package an event sent to a target raises that target's SEQ by one, modulo 2^32, whether or not it is
written, and leaves every other target's. To a tenant whose only enabled event ring stands on port 0, while SEALED and
with no loss to report, the event is written at the ring's posting place when there is room and port 0 is live and the
function is not in D3hot; out of D3hot with no room nothing is written and LOST rises by one; in D3hot nothing is
written or lost and the event waits, last in line (log entry 135). Only rings, pending interrupt bits and outputs
change. (24_errors_and_events.md R531, 24_errors_and_events.md R533, 24_errors_and_events.md R535.) -/
def Obligations.EventsAreNumberedAndWrittenOrLost : Prop :=
  ∀ (s : State) (n : Nat) (c : EventCode) (b f tn d : Nat), alive s = true →
    let t := raise s n c b f tn d
    mapGet (fun _ => 0) t.rings.seqs n = (mapGet (fun _ => 0) s.rings.seqs n + 1) % 2 ^ 32 ∧
    (∀ m, m ≠ n → mapGet (fun _ => 0) t.rings.seqs m = mapGet (fun _ => 0) s.rings.seqs m) ∧ t.sansEvents = s.sansEvents ∧
    (n ≠ 0 → isSealedNow s = true → evtOn s ⟨0, n⟩ = true → evtOn s ⟨1, n⟩ = false → (evtOf s ⟨0, n⟩).lost = 0 →
      ((funcOf s ⟨0, n⟩).d3hot = false → hostLive s (portFacet 0) = true → 1 ≤ evtRoom s ⟨0, n⟩ →
        (evtOf t ⟨0, n⟩).posted = (evtOf s ⟨0, n⟩).posted + 1 ∧
        ∃ bytes : List Byte, bytes.length = 32 ∧
          let a := fnPair s ⟨0, n⟩ 0x1000 + 32 * ((evtOf s ⟨0, n⟩).posted % 2 ^ fld (evtCfg s ⟨0, n⟩) 16 5)
          (∀ x, x ∈ hostParts (maxPayload s 0) a 32 →
            .hostWrite ⟨0, n⟩ (pasidOf s ⟨0, n⟩) x.1 (slice bytes (x.1 - a) x.2) ∈ t.outs) ∧
          rdLe bytes 0 4 = eventSeverity c * 2 ^ 30 + eventNumber c ∧
          rdLe bytes 4 4 = mapGet (fun _ => 0) s.rings.seqs n % 2 ^ 32) ∧
      ((funcOf s ⟨0, n⟩).d3hot = false → evtRoom s ⟨0, n⟩ = 0 →
        t.outs = s.outs ∧ (evtOf t ⟨0, n⟩).posted = (evtOf s ⟨0, n⟩).posted ∧ (evtOf t ⟨0, n⟩).lost = 1) ∧
      ((funcOf s ⟨0, n⟩).d3hot = true →
        t.outs = s.outs ∧ ∃ e, evtOf t ⟨0, n⟩ = { evtOf s ⟨0, n⟩ with waits := (evtOf s ⟨0, n⟩).waits ++ [e] } ∧
          e.seq = mapGet (fun _ => 0) s.rings.seqs n % 2 ^ 32))

/-- A well-formed access of a function with a path acts on the register its window names, and a read sends the value back.
An access that is not 4 bytes aligned counts one in HST_BAD_ACCESS of the port, changes no other register, and a read
then returns 0. Beyond the windows a read returns 0 and a write changes nothing. Through the owner's BAR0, HMK_IGNORED
returns the count and then reads 0, and no other register changes. The same holds of every count register of a live
facet's window whose bits are all RC. CLK_SLEW_X and CLK_PMAX return their values and nothing changes. (00_scope.md
R9, 00_scope.md R10, 16_host_attach.md R351, 25_register_map.md R540.) -/
def Obligations.RegisterAccessesComplete : Prop :=
  (∀ (s : State) (port tn bar off size : Nat) (w : Word), reachable s ⟨port, tn⟩ = true → isDead s = false →
    (wellSized off size = true →
      exec (.registerWrite port tn bar off size w) s = .next (writeBar s ⟨port, tn⟩ bar off w) ∧
      exec (.registerRead port tn bar off size) s =
        .next (emit (readBar s ⟨port, tn⟩ bar off).1 (.regValue ⟨port, tn⟩ bar off (readBar s ⟨port, tn⟩ bar off).2))) ∧
    (wellSized off size = false →
      (∃ t, exec (.registerWrite port tn bar off size w) s = .next t ∧ { t with regs := s.regs } = s ∧
        regFld t (fKey (portFacet port) 0xC0010) 0 32 =
          min (regFld s (fKey (portFacet port) 0xC0010) 0 32 + 1) (2 ^ 32 - 1) ∧
        ∀ k, k ≠ fKey (portFacet port) 0xC0010 → regGet t k = regGet s k) ∧
      (∃ t, exec (.registerRead port tn bar off size) s = .next t ∧
        t.outs = s.outs ++ [.regValue ⟨port, tn⟩ bar off 0#32] ∧ { t with regs := s.regs, outs := s.outs } = s)) ∧
    (0x900000 ≤ off → bar = 0 → tn = 0 →
      writeBar s ⟨port, tn⟩ bar off w = s ∧ readBar s ⟨port, tn⟩ bar off = (s, 0#32))) ∧
  (∀ (s : State) (port : Nat), readBar s ⟨port, 0⟩ 0 0x101C = (regSet s 0x101C 0#32, regGet s 0x101C)) ∧
  (∀ (s : State) (port f o : Nat), f < 8 → fabricLive s f = true →
    o ∈ [0x00024, 0x00040, 0x00044, 0x0004C, 0x20010, 0x20014, 0x20018, 0x30030, 0x30034, 0x30038, 0x3003C, 0x70010, 0x70014] →
    readBar s ⟨port, 0⟩ 0 (fKey f o) = (regSet s (fKey f o) 0#32, regGet s (fKey f o))) ∧
  (∀ (s : State) (port f o : Nat), f < 8 → fabricLive s f = true → o ∈ [0x10000, 0x10004, 0x10020, 0x20080, 0x20084] →
    readBar s ⟨port, 0⟩ 0 (fKey f o) = (s, regGet s (fKey f o)))

/-- A tenant whose RING bit is clear writes RNG_POLL_MIN_X through its ring set-up: its ring set-up, every sealed value
and the hallmark stand, and TEN_XIGN counts it. With the bit set the register takes the value, held between 1 and 400.
TEN_EXPERT takes effect at the owner's write. (00_scope.md R13, 00_scope.md R14, 18_tenants.md R401.) -/
def Obligations.ExpertFieldsNeedTheirBit : Prop :=
  ∀ (s : State) (port tn : Nat) (w : Word), 1 ≤ tn → tn ≤ 64 → reachable s ⟨port, tn⟩ = true → isDead s = false →
    ((expertOf s tn).testBit 0 = false →
      exec (.registerWrite port tn 0 0x2900 4 w) s = .next (countXign s tn)) ∧
    ((expertOf s tn).testBit 0 = true →
      ∃ t, exec (.registerWrite port tn 0 0x2900 4 w) s = .next t ∧
        pollMin t ⟨port, tn⟩ = max 1 (min 400 (fld w 0 9)) ∧ { t with regs := s.regs } = s) ∧
    (∀ p, reachable s ⟨p, 0⟩ = true →
      ∃ t, exec (.registerWrite p 0 0 (0x4E000 + 4 * tn) 4 w) s = .next t ∧ expertOf t tn = fld w 0 6 ∧
        { t with regs := s.regs } = s)

/-- A read of the view at 0x0_0400 + 4 i returns tenant t's reservation word in force, not the one last written, and
changes nothing. A write through the view outside group masks, ring set-up and event set-up changes nothing.
(25_register_map.md R543, 25_register_map.md R544.) -/
def Obligations.TenantViewShowsValuesInForce : Prop :=
  ∀ (s : State) (port tn : Nat), 1 ≤ tn → tn ≤ 64 →
    (∀ i, i < 32 → readBar s ⟨port, tn⟩ 0 (0x400 + 4 * i) = (s, forceGet s (0x40000 + 128 * tn + 4 * i))) ∧
    (∀ off w, off < 0x1000 → writeBar s ⟨port, tn⟩ 0 off w = s) ∧
    (∀ (k : Nat) (w : Word), isSealed k = true → ∀ i, i < 32 →
      (readBar (sealedWrite s k w) ⟨port, tn⟩ 0 (0x400 + 4 * i)).2 = (readBar s ⟨port, tn⟩ 0 (0x400 + 4 * i)).2)

/-- EXTENT_READ of a good extent by an engine that serves the request waits for a queued read of its page, and of a bad one
ends the read with its status; the prefetcher's takes a candidate slot first. NAND_COMMAND_ISSUE puts the command whose
turn it is in flight on its LUN, with waiting commands of its kind on other planes. READ_STATUS_POLL that is ready lets
a page read transfer, erases the block of an erase, and stores the page of a program; a failed update puts its block on
the grown bad-block list and leaves its pages undefined; the last page of a scan sends its bytes. The first timeout
resets the target and repeats the operation; the second takes the target offline, and no other target of a channel that
keeps one. CODEWORD_DECODE of the last codeword of a read, clean and for its own address, delivers the bytes asked, to
the host when a flash job reads. ZQ calibration sends one ZQ command. (07_flash_attach.md R139, 07_flash_attach.md
R141, 07_flash_attach.md R142, 07_flash_attach.md R147, 07_flash_attach.md R148, 07_flash_attach.md R150,
07_flash_attach.md R151, 07_flash_attach.md R154, 07_flash_attach.md R156, 07_flash_attach.md R159, 07_flash_attach.md
R161.) -/
def Obligations.FlashReadCommandsComplete : Prop :=
  (∀ (s : State) (id tag : Nat) (eng : FlashEngine) (e : List Byte) (r : Request), alive s = true →
    look s.requests tag = some r → look s.flash.reads id = none →
    let rd := extentJob s tag (engineClass eng) r.tenant e
    (eng ≠ .prefetch → engineServes eng r.opcode = true → extentFault s r.tenant e = none →
      ∃ t w, exec (.extentRead id tag eng e) s = .next t ∧ look t.flash.reads id = some { rd with waits := w } ∧
        queuedRead t (rd.op s) = some w ∧ t.flash.finished = s.flash.finished ∧ { t with flash := s.flash, outs := s.outs } = s) ∧
    (∀ st, eng ≠ .prefetch → engineServes eng r.opcode = true → extentFault s r.tenant e = some st → tag < 65536 →
      ∃ t, exec (.extentRead id tag eng e) s = .next t ∧ look t.flash.reads id = none ∧
        t.flash.finished = s.flash.finished ++ [⟨tag, e, [], [], some st⟩] ∧ { t with flash := s.flash } = s) ∧
    (∀ p c u q x, r.pipe = some p → p.next = 3 → candFor s tag (stageRequest r p 3) p e = some c →
      slotFor s tag c.lead c.facet c.id c.left p = some (u, q, x) → x.reads.contains e = false →
      exec (.extentRead id tag .prefetch e) s = .next (extentRead
        (setRequest u tag { r with pipe := some { q with slots := q.slots ++ [{ x with reads := x.reads ++ [e] }] } }) id tag .prefetch e))) ∧
  (∀ (s : State) (lun i : Nat) (turn : NandTurn) (c : NandCmd), alive s = true → look s.flash.inFlight lun = none →
    lunLive s lun = true → inFlightOn s (lun / 32) < 64 → nextIssue (lunQueue s lun) turn = some i → (lunQueue s lun)[i]? = some c →
    ∃ t ds, exec (.nandCommandIssue lun turn) s = .next t ∧ look t.flash.inFlight lun = some ⟨c :: ds, false, false⟩ ∧
      (∀ d, d ∈ ds → d ∈ lunQueue s lun ∧ d.op.sameKind c.op = true) ∧
      (turn.planes = [] → ds = [] ∧ lunQueue t lun = (lunQueue s lun).eraseIdx i) ∧
      t.outs = (setLevel s lun c.op.levelCode).outs ++ [.nand lun (c.op :: ds.map (·.op))] ∧
      { t with flash := s.flash, outs := s.outs } = s) ∧
  (∀ (s : State) (lun : Nat) (f : NandFlight), alive s = true → look s.flash.inFlight lun = some f → f.done = false →
    (f.isUpdate = false → s.flash.reads.any (fun p => f.parts.any (fun c => c.num == p.2.waits)) = true →
      (∀ j, look s.flash.jobs (lun / 128) = some j → ∀ ps ms a b, j.work ≠ .scan ps ms a b) →
      ∃ t, exec (.readStatusPoll lun .ready) s = .next t ∧ look t.flash.inFlight lun = some { f with done := true } ∧
        t.flash.reads = s.flash.reads ∧ { t with flash := s.flash, outs := s.outs } = s) ∧
    (∀ j left marks a b, f.isUpdate = false → look s.flash.jobs (lun / 128) = some j → j.work = .scan left marks a b → j.after = 0 →
      (∀ p, p ∈ left → f.parts.any (fun c => c.op == .read p 0 0) = true) → dmaOpen s ⟨j.port, 0⟩ = true →
      ∃ t d, exec (.readStatusPoll lun .ready) s = .next t ∧ d.length = marks.length ∧
        (∀ i, i < marks.length → d.getD i 9#8 = if s.nor.badBlocks.contains (b + i) then 2#8
          else if marks.getD i false then 1#8 else 0#8) ∧
        (∀ x, x ∈ hostParts (maxPayload s j.port) a d.length →
          .hostWrite ⟨j.port, 0⟩ (pasidOf s ⟨j.port, 0⟩) x.1 (slice d (x.1 - a) x.2) ∈ t.outs) ∧
        (if j.entry + 1 < j.count then look t.flash.jobs (lun / 128) = some { j with entry := j.entry + 1, work := .fetch }
         else look t.flash.jobs (lun / 128) = none ∧
          regGet t (fKey (lun / 128) 0x30110) = BitVec.ofNat 32 (2 * 2 ^ 28 + (j.entry + 1) % 2 ^ 16))) ∧
    (∀ c b, f.parts = [c] → c.op = .erase b → look s.flash.jobs (lun / 128) = none →
      (∃ t, exec (.readStatusPoll lun .ready) s = .next t ∧ look t.flash.inFlight lun = none ∧ b ∈ t.flash.erased ∧
        (∀ p, p / 2 ^ 12 = b → look t.flash.pages p = none) ∧
        (∀ p, p / 2 ^ 12 ≠ b → look t.flash.pages p = look s.flash.pages p) ∧ { t with flash := s.flash, outs := s.outs } = s) ∧
      (∀ which, s.nor.badBlocks.length < 4096 → s.nor.badBlocks.contains b = false →
        ∃ t, exec (.readStatusPoll lun (.failed which)) s = .next t ∧ look t.flash.inFlight lun = none ∧
          t.nor.badBlocks = s.nor.badBlocks ++ [b] ∧ (∀ p, p / 4096 ≠ b → look t.flash.pages p = look s.flash.pages p) ∧
          (∀ p, p / 4096 = b → look t.flash.pages p = (look s.flash.pages p).map (fun _ => .undef)) ∧
          t.regs = s.regs ∧ t.mem = s.mem)) ∧
    (∀ c p, f.parts = [c] → c.op = .program p → look s.flash.jobs (lun / 128) = none → programBreaks s p = false →
      ∃ t, exec (.readStatusPoll lun .ready) s = .next t ∧ look t.flash.inFlight lun = none ∧
        look t.flash.pages p = some (.data c.data) ∧
        (∀ q, q ≠ p → look t.flash.pages q = look s.flash.pages q) ∧ { t with flash := s.flash, outs := s.outs } = s) ∧
    (f.retried = false →
      ∃ t, exec (.nandTimeout lun) s = .next t ∧ look t.flash.inFlight lun = some { f with retried := true } ∧
        t.outs = s.outs ++ [.nandReset lun, .nand lun (f.parts.map (·.op))] ∧ { t with flash := s.flash, outs := s.outs } = s) ∧
    (∀ e, f.retried = true → lun < 1024 → e < 8 → bitOf (chCfg s (lun / 32)) (24 + e) = true → 8 * (lun / 32) + e ≠ lun / 4 →
      targetOff s (8 * (lun / 32) + e) = false →
      ∃ t, exec (.nandTimeout lun) s = .next t ∧ targetOff t (lun / 4) = true ∧ lunLive t lun = false ∧
        targetOff t (8 * (lun / 32) + e) = false)) ∧
  (∀ (s : State) (id g : Nat) (cw : List Byte) (r : ExtentRead), alive s = true →
    look s.flash.reads id = some r → transfers s (r.op s).lun r.waits = true →
    cwSource s (r.fca s) = .shown → cw.length = 4648 → 64 ≤ zeroBits cw → r.level = 0 → r.soft = 0 →
    rdLe cw 4128 6 = r.fca s → r.off + r.left ≤ 4096 → badSectors cw r.off r.left = [] →
    ∃ t, exec (.codewordDecode id true (g, ⟨[], 0, []⟩) cw) s = .next t ∧ look t.flash.reads id = none ∧
      (r.reader < 65536 →
        t.flash.finished = s.flash.finished ++ [⟨r.reader, r.extent, r.data ++ slice cw r.off r.left, r.bad, none⟩] ∧
        regFld t (fKey (fcaFacet (r.fca s)) 0x30030) 0 32 =
          min (regFld s (fKey (fcaFacet (r.fca s)) 0x30030) 0 32 + 1) (2 ^ 32 - 1) ∧
        { t with flash := s.flash, regs := s.regs } = s) ∧
      (∀ f j a, r.reader = jobReader f → look s.flash.jobs f = some j → j.work = .reading a → dmaOpen s ⟨j.port, 0⟩ = true →
        let d := jobBytes (r.data ++ slice cw r.off r.left) r.bad
        ∀ x, x ∈ hostParts (maxPayload s j.port) a d.length →
          .hostWrite ⟨j.port, 0⟩ (pasidOf s ⟨j.port, 0⟩) x.1 (slice d (x.1 - a) x.2) ∈ t.outs)) ∧
  (∀ (s : State) (lun : Nat), alive s = true → lunLive s lun = true → bitOf (chCfg s (lun / 32)) (24 + lun / 4 % 8) = true →
    4 ≤ fld (chCfg s (lun / 32)) 12 4 → exec (.zqCalibrationShort lun) s = .next { s with outs := s.outs ++ [.zq lun] })

/-- FLS_JOB_START while SEALED starts a job on the list its registers name and reads its first entry, or is done at once on
an empty list; in another state it is refused with reason 5. FLS_JOB_ABORT stops the job with reason 7 and its present
entry, or, while programs or erases of it are in flight, leaves none of them waiting and stops it when they have ended.
A good ERASE or PROGRAM entry on usable blocks queues one operation per block or page; a PROGRAM of a refused block
stops the job with reason 3, and one whose data come poisoned programs the pages before and stops the job with reason
1. SCAN queues the first and the last page of every block, and READ waits for its pages as an extent read does.
(07_flash_attach.md R158, 07_flash_attach.md R159, 07_flash_attach.md R161, 07_flash_attach.md R162.) -/
def Obligations.FlashJobsComplete : Prop :=
  (∀ (s : State) (f port : Nat), alive s = true → f < 8 → fabricLive s f = true → port < 2 → look s.flash.jobs f = none →
    let n := regFld s (fKey f 0x30108) 0 16
    let a := pair (regGet s) (fKey f 0x30100)
    (isSealedNow s = true → n ≠ 0 →
      ∃ t, exec (.flsJobStart f port) s = .next t ∧
        look t.flash.jobs f = some ⟨port, a, n, 0, .fetch, 0, false⟩ ∧
        regGet t (fKey f 0x30110) = BitVec.ofNat 32 (1 * 2 ^ 28) ∧
        t.outs = (if dmaOpen s ⟨port, 0⟩ then hostAsk s ⟨port, 0⟩ a 32 else s).outs ∧
        { t with flash := s.flash, regs := s.regs, ports := s.ports, atc := s.atc, outs := s.outs } = s) ∧
    (isSealedNow s = true → n = 0 →
      exec (.flsJobStart f port) s = .next (regSet s (fKey f 0x30110) (BitVec.ofNat 32 (2 * 2 ^ 28)))) ∧
    (isSealedNow s = false →
      exec (.flsJobStart f port) s = .next (regSet s (fKey f 0x30110) (BitVec.ofNat 32 (3 * 2 ^ 28 + 5 * 2 ^ 24))))) ∧
  (∀ (s : State) (f : Nat) (j : FlashJob), alive s = true → f < 8 → fabricLive s f = true → look s.flash.jobs f = some j →
    let why := if j.after = 0 then 7 else j.after
    (updatesFly s f = false →
      ∃ t, exec (.flsJobAbort f) s = .next t ∧ look t.flash.jobs f = none ∧
        (j.work ≠ .updates → j.entry < j.count →
          regGet t (fKey f 0x30110) = BitVec.ofNat 32 (3 * 2 ^ 28 + why * 2 ^ 24 + j.entry % 2 ^ 16)) ∧
        (∀ g, g ≠ f → look t.flash.jobs g = look s.flash.jobs g) ∧ t.flash.inFlight = s.flash.inFlight ∧
        { t with flash := s.flash, regs := s.regs } = s) ∧
    (updatesFly s f = true →
      ∃ t k, exec (.flsJobAbort f) s = .next t ∧ look t.flash.jobs f = some k ∧ k.after = why ∧ k.entry = j.entry ∧
        updatesWait t f = false ∧ t.flash.inFlight = s.flash.inFlight ∧ { t with flash := s.flash } = s)) ∧
  (∀ (s : State) (f : Nat) (e : List Byte) (j : FlashJob), jobReady s f = some j → entryBad s f e = false →
    lunLive s (fcaLun (rdLe e 4 6)) = true →
    let a := rdLe e 4 6
    let n := rdLe e 2 2
    let sz := 4096 * cwPer s (fcaChannel a)
    (rdB e 0 = 1 → (∀ b, b ∈ rangeFrom (fcaBlock a) n → blockRefused s b = false) →
      ∃ t, exec (.jobErase f e .good) s = .next t ∧ look t.flash.jobs f = some { j with work := .updates, after := 0, cut := false } ∧
        (∀ b, b ∈ rangeFrom (fcaBlock a) n → (lunQueue t (b / 2 ^ 16)).any (fun c => c.op == .erase b) = true) ∧
        t.flash.pages = s.flash.pages ∧ { t with flash := s.flash, ports := s.ports, atc := s.atc, outs := s.outs } = s) ∧
    (∀ (data : List Byte) (dataSt : List ReadStatus), rdB e 0 = 2 → data.length = n * sz →
      (blockRefused s (fcaBlock a) = false → (∀ i, i < n → dataSt.getD i .good = .good) →
        ∃ t, exec (.jobProgram f e .good data dataSt) s = .next t ∧
          look t.flash.jobs f = some { j with work := .updates, after := 0, cut := false } ∧
          (∀ i, i < n → ∃ k, ⟨k, .program (fcaPage a + i), .update, 0, slice data (i * sz) sz⟩ ∈
            lunQueue t ((fcaPage a + i) / 2 ^ 28)) ∧ t.flash.pages = s.flash.pages ∧
          { t with flash := s.flash, ports := s.ports, atc := s.atc, outs := s.outs } = s) ∧
      (∀ k, blockRefused s (fcaBlock a) = false → 0 < k → k < n → (∀ i, i < k → dataSt.getD i .good = .good) →
        dataSt.getD k .good = .poisoned →
        ∃ t, exec (.jobProgram f e .good data dataSt) s = .next t ∧
          look t.flash.jobs f = some { j with work := .updates, after := 1, cut := true } ∧
          (∀ i, i < k → ∃ m, ⟨m, .program (fcaPage a + i), .update, 0, slice data (i * sz) sz⟩ ∈
            lunQueue t ((fcaPage a + i) / 2 ^ 28))) ∧
      (blockRefused s (fcaBlock a) = true → updatesFly s f = false → j.after = 0 → j.entry < j.count →
        ∃ t, exec (.jobProgram f e .good data dataSt) s = .next t ∧ look t.flash.jobs f = none ∧
          regGet t (fKey f 0x30110) = BitVec.ofNat 32 (3 * 2 ^ 28 + 3 * 2 ^ 24 + j.entry % 2 ^ 16) ∧ t.flash.pages = s.flash.pages)) ∧
    (∀ marks : List Bool, rdB e 0 = 3 → marks.length = n →
      ∃ t ps, exec (.jobScan f e .good marks) s = .next t ∧
        look t.flash.jobs f = some { j with work := .scan ps marks (rdLe e 16 8) (fcaBlock a) } ∧
        (∀ i, i < n → (fcaBlock a + i) * 4096 ∈ ps ∧ (fcaBlock a + i) * 4096 + (chPages s (fcaChannel a) - 1) ∈ ps) ∧
        (∀ p, p ∈ ps → (queuedRead t (.read p 0 0)).isSome = true) ∧
        { t with flash := s.flash, ports := s.ports, atc := s.atc, outs := s.outs } = s) ∧
    (∀ id, rdB e 0 = 4 → look s.flash.reads id = none →
      ∃ t rd, exec (.jobRead f e .good id) s = .next t ∧ look t.flash.jobs f = some { j with work := .reading (rdLe e 16 8) } ∧
        look t.flash.reads id = some rd ∧ rd.reader = jobReader f ∧ rd.block = fcaBlock a ∧ rd.off = 0 ∧ rd.left = n * sz ∧
        rd.cls = .bulk ∧ rd.fca s = a ∧ queuedRead t (rd.op s) = some rd.waits ∧
        { t with flash := s.flash, ports := s.ports, atc := s.atc, outs := s.outs } = s))

/-- A TOKENIZE whose slot resolves, whose unit is live and whose input tokenizes within its room writes its entries and
completes with the entries, the bytes consumed and the byte tokens in its words; the tokens of an input cover it byte
for byte, and no node that the unit preloaded is read from the slices again. A DETOKENIZE without stop list and state record writes the strings of its tokens and completes with their
length. LOAD of a vocabulary or grammar into an empty slot is under way, and ends with the slot loaded and the blob in
memory, or refused with the check's reason and offset; LOAD and UNLOAD of KIND 2 or 3 are refused with reason 1.
UNLOAD empties an unused slot at once, and is refused with reason 6 while a grammar is bound to it. SLOT_UNLOAD_DONE
empties the slot once nothing uses it. (09_tokens_and_grammar.md R178, 09_tokens_and_grammar.md R179, 09_tokens_and_grammar.md R180, 09_tokens_and_grammar.md
R181, 09_tokens_and_grammar.md R184, 09_tokens_and_grammar.md R187, 09_tokens_and_grammar.md R188,
09_tokens_and_grammar.md R190, 09_tokens_and_grammar.md R193.) -/
def Obligations.TokenCommandsComplete : Prop :=
  (∀ (s s1 s2 : State) (tag f : Nat) (r : Request) (v : VocSlot) (inp : List Byte) (o : TokOut),
    running s tag 0x10 = some r → noService s = false → tokenizeBad r = false → r.ext = none →
    vocOf s r (bodyB r 28 / 16) = some v → engineFor s 3 f = some none →
    readAt s r (nbit (bodyB r 28) 3) (bodyLe r 16 8) (bodyLe r 24 4) = (s1, .ok inp) →
    let offs := nbit (bodyB r 28) 1
    tokenizeCore s1 r.tenant v ⟨offs, nbit (bodyB r 29) 0, nbit (bodyB r 29) 1, false, nbit (bodyB r 44) 0⟩
      (bodyLe r 40 4 / (if offs then 8 else 4)) inp = (s2, .ok o) →
    let d := tokenBytes offs s2.freeCount o.entries
    outCheck { s2 with freeCount := s2.freeCount + o.entries.length } r (nbit (bodyB r 28) 2) (bodyLe r 32 8) d.length = none →
    exec (.tokenize tag f) s = .next (finish
      (countFallback (writeOut { s2 with freeCount := s2.freeCount + o.entries.length } r (nbit (bodyB r 28) 2) (bodyLe r 32 8) d)
        f o.fallback) tag (if o.cut then .truncated else .ok) [o.entries.length, o.bytesIn, o.fallback])) ∧
  (∀ (v : VocSlot) (b : List Byte) (nodes : List Nat) (p : Nat × Nat), p ∈ coldParts v (walkParts b nodes) →
    p ∈ walkParts b nodes ∧ (p.1 < v.hotAt ∨ v.hotAt + v.hot.length < p.1 + p.2)) ∧
  (∀ b l : List Byte, ((tokenizeAll b l.length l 0).1.map (·.len)).sum = l.length) ∧
  (∀ (s s1 : State) (tag f : Nat) (r : Request) (v : VocSlot) (inp : List Byte),
    running s tag 0x11 = some r → noService s = false → detokenizeBad r = false → r.ext = none →
    bodyLe r 48 8 = 0 → bodyLe r 56 8 = 0 → vocOf s r (bodyB r 28 / 16) = some v → engineFor s 3 f = some none →
    readAt s r (nbit (bodyB r 28) 3) (bodyLe r 16 8) (4 * bodyLe r 24 4) = (s1, .ok inp) →
    let b := memRead s1 v.dest v.len
    let ts := (upto (bodyLe r 24 4)).map (fun i => rdLe inp (4 * i) 4)
    let out := (appended b false ts).map (·.1)
    (∀ t, t ∈ ts → t < v.size) →
    let parts := ts.flatMap (fun t => [(strEntry b t, 8), (strOff b + 8 * v.size + rdLe b (strEntry b t) 4, rdB b (strEntry b t + 4))])
    let s2 := blobRead s1 r.tenant v.dest parts
    blobPoison s2 v.dest parts = none →
    out.length ≤ bodyLe r 40 4 → outCheck s2 r (nbit (bodyB r 28) 2) (bodyLe r 32 8) out.length = none →
    exec (.detokenize tag f) s = .next (finish (writeOut s2 r (nbit (bodyB r 28) 2) (bodyLe r 32 8) out) tag .ok
      [out.length, 0xFF000000, 0xFFFFFFFF])) ∧
  (∀ (stops : List (List Byte)) (held : List Byte) (bs : List (Byte × Nat)) (final off : Bool),
    let o := detokCore stops held bs final off
    o.held.length ≤ 63 ∧ (o.stop = none → o.emit ++ o.held = held ++ bs.map (·.1))) ∧
  (∀ (s : State) (w : Word), alive s = true → s.tokLd = none → 2 ≤ fld w 4 2 →
    ∃ t u, exec (.tokLdLoad w) s = .next t ∧ exec (.tokLdUnload w) s = .next u ∧ regGet t tokSt = ldWord 3 1 ∧
      regGet u tokSt = ldWord 3 1 ∧ { t with regs := s.regs } = s ∧ { u with regs := s.regs } = s) ∧
  (∀ (s : State) (w : Word), alive s = true → s.tokLd = none → fld w 4 2 < 2 → (fld w 4 2 = 0 → fld w 8 6 < 16) →
    let dest := pair (regGet s) (aKey 0x8000C)
    let host := pair (regGet s) (aKey 0x80000)
    let len := (regGet s (aKey 0x80008)).toNat
    (fld w 4 2 = 0 → look s.voc (fld w 8 6) = none) → (fld w 4 2 = 1 → look s.grm (fld w 8 6) = none) →
    destOk s dest len = true → loadState s = true → host % 64 = 0 →
    ∃ t, exec (.tokLdLoad w) s = .next t ∧ t.tokLd = some ⟨fld w 4 2, fld w 8 6, fld w 16 4, dest, host, len⟩ ∧
      regGet t tokSt = ldWord 1 0 ∧ { t with tokLd := s.tokLd, regs := s.regs, ports := s.ports, atc := s.atc, outs := s.outs } = s) ∧
  (∀ (s : State) (blob : List Byte) (j : LoadJob), alive s = true → s.tokLd = some j → s.tokUnld = [] → j.kind < 2 →
    destOk s j.dest j.len = true → rangeLive s j.dest (max j.len 1) = true → homeQuiet s j.dest j.len = true →
    memPoison s j.dest j.len = none →
    (∀ x, tokCheck s j (blob.take j.len) = some x →
      ∃ t, exec (.tokLoadDone blob .good) s = .next t ∧ t.tokLd = none ∧ t.voc = s.voc ∧ t.grm = s.grm ∧
        regGet t tokSt = ldWord 3 x.1 ∧ regGet t (tokSt + 4) = BitVec.ofNat 32 x.2) ∧
    (tokCheck s j (blob.take j.len) = none → j.len ≤ blob.length →
      ∃ t, exec (.tokLoadDone blob .good) s = .next t ∧ t.tokLd = none ∧ regGet t tokSt = ldWord 2 0 ∧
        (j.kind = 0 → let b := blob.take j.len
          look t.voc j.slot = some ⟨j.dest, j.len, vocSize b, rdLe b 16 8, false, rootOff b, slice b (rootOff b) (rdLe b 32 4)⟩ ∧
          t.grm = s.grm) ∧
        (j.kind = 1 → look t.grm j.slot = some ⟨j.dest, j.len, j.bind, rdLe (blob.take j.len) 8 4, false⟩ ∧ t.voc = s.voc) ∧
        memRead t j.dest j.len = blob.take j.len ∧
        (∀ a, a < j.dest ∨ j.dest + j.len ≤ a → memByte t a = memByte s a) ∧ t.requests = s.requests)) ∧
  (∀ (s : State) (w : Word), alive s = true → s.tokLd = none → fld w 4 2 < 2 → (fld w 4 2 = 0 → fld w 8 6 < 16) →
    (fld w 4 2 = 0 → s.grm.any (fun g => g.2.bind == fld w 8 6) = true → (look s.voc (fld w 8 6)).isSome = true →
      ∃ t, exec (.tokLdUnload w) s = .next t ∧ regGet t tokSt = ldWord 3 6 ∧ { t with regs := s.regs } = s) ∧
    ((fld w 4 2 = 0 → s.grm.any (fun g => g.2.bind == fld w 8 6) = false) → s.tokUnld = [] → s.requests = [] → s.pools = [] →
      ∃ t, exec (.tokLdUnload w) s = .next t ∧ t.tokUnld = [] ∧ regGet t tokSt = ldWord 2 0 ∧
        (fld w 4 2 = 0 → look t.voc (fld w 8 6) = none ∧ t.grm = s.grm ∧ ∀ n, n ≠ fld w 8 6 → look t.voc n = look s.voc n) ∧
        (fld w 4 2 = 1 → look t.grm (fld w 8 6) = none ∧ t.voc = s.voc ∧ ∀ n, n ≠ fld w 8 6 → look t.grm n = look s.grm n) ∧
        { t with voc := s.voc, grm := s.grm, regs := s.regs } = s)) ∧
  (∀ (s : State) (k slot : Nat), alive s = true → s.tokUnld = [(k, slot)] → nameHeld s (tokName k slot) = false →
    s.tokLd = none → fld (regGet s tokSt) 28 4 = 1 → s.srchUnld = [] → s.tplUnld = [] → s.troy = [] →
    ∃ t, exec .slotUnloadDone s = .next t ∧ t.tokUnld = [] ∧ regGet t tokSt = ldWord 2 0 ∧
      (if k = 0 then look t.voc slot = none ∧ t.grm = s.grm else look t.grm slot = none ∧ t.voc = s.voc))

/-- A GATHER whose inputs and output check issues its row reads, up to 1,024 outstanding and 512 of one HBM stack; with no
indices it completes with OK and zeros, with none valid it writes its slots and completes with DROPPED_INDICES at once.
A row arrival frees its read and keeps the row's bytes as they stand then, an owner's bytes first; the last one writes
the slots and completes with the slots, the dropped indices and the replica reads in its words, or, when a slot
consumes poison, leaves the slots before it and fails with that poison's status. A check of the pooling sums that fails
twice fails the request with COMPUTE_CHECK. A SCATTER of each mode completes with the rows, drops and replicas
it counted; a REFRESH counts no rows. A WRITE of one valid index puts the source row at the row's address and changes
no other byte. INT8 ADD saturates at -128 and 127. (10_gather_and_tables.md R204, 10_gather_and_tables.md R205,
10_gather_and_tables.md R208, 10_gather_and_tables.md R209, 10_gather_and_tables.md R211, 10_gather_and_tables.md
R213, 10_gather_and_tables.md R215, 10_gather_and_tables.md R216.) -/
def Obligations.GatherAndScatterComplete : Prop :=
  (∀ (s s1 : State) (tag : Nat) (r : Request) (g : GatherIn), running s tag 0x12 = some r → look s.gathers tag = none →
    noService s = false → gatherInputs s r (readIdx r) = (s1, .ok g) →
    (g.idx = [] → exec (.gather tag) s = .next (finish s1 tag .ok [0, 0, 0])) ∧
    (let rs := allReads s1 r g
     g.idx ≠ [] → gatherLen r g ≤ bodyLe r 40 4 →
     outCheck s1 r (nbit (bodyB r 28) 4) (bodyLe r 32 8) (gatherLen r g) = none → s1.gathers = [] →
     splitReads rs ≠ [] → (splitReads rs).length ≤ 1024 →
     (∀ k, ((splitReads rs).filter (fun p => stackOf p.1 == some k)).length ≤ 512) →
     ∃ t, exec (.gather tag) s = .next t ∧
       look t.gathers tag = some ⟨g, [], splitReads rs, rs.map (fun p => ⟨p.1, p.2, none⟩)⟩ ∧
       { t with gathers := s1.gathers, regs := s1.regs } = s1) ∧
    (g.idx ≠ [] → g.idx.all (fun i => !g.table.valid i) = true → gatherLen r g ≤ bodyLe r 40 4 →
     outCheck s1 r (nbit (bodyB r 28) 4) (bodyLe r 32 8) (gatherLen r g) = none → noService s1 = false →
     exec (.gather tag) s = .next (finish (gatherFinish s1 r g (fun _ => false) (fun _ _ => [])).1 tag .droppedIndices
       [gatherSlots r g, g.idx.length, 0]))) ∧
  (∀ (s : State) (tag a n : Nat) (r : Request) (j : GatherJob) (rest : List (Nat × Nat)) (w : RowRead) (fab : FabricSeen),
    running s tag 0x12 = some r → look s.gathers tag = some j → j.queue = [] → j.flying = (a, n) :: rest →
    checkAccess s r.tenant a n = none → j.rows.find? (fun w => decide (w.addr ≤ a) && decide (a < w.addr + w.len)) = some w →
    cohBusy s w.addr w.len = false →
    let g := j.input
    let s1 := readArrives (collect s w.addr w.len true) r.tenant g.facet a n fab
    let torn := fab.bad.any (fun k => decide (k ≤ flitOf (n - 1)))
    let rows := (j.rows.map (captureRow s1 a)).map (fun x => if torn then tornRow a x else x)
    let j' := { j with flying := rest, rows := rows }
    let s2 := { s1 with gathers := place s1.gathers tag j' }
    (rest ≠ [] → ∃ t, exec (.gatherRowArrival tag ⟨a, fab, none⟩) s = .next t ∧ look t.gathers tag = some j' ∧
      t.mem = s1.mem ∧ t.outs = s1.outs ∧ t.requests = s1.requests) ∧
    (rest = [] → poisonedSlot s2 r j' = none → noService s2 = false →
     let rep := replicaRead s2 j'
     exec (.gatherRowArrival tag ⟨a, fab, none⟩) s = .next (issueReads (finish
       (gatherFinish { s2 with gathers := remove s2.gathers tag } r g rep (capturedBytes rows)).1 tag
       (if g.idx.all g.table.valid then .ok else .droppedIndices)
       [gatherSlots r g, (g.idx.filter (fun i => !g.table.valid i)).length, hotReads g rep]))) ∧
    (∀ k o, rest = [] → poisonedSlot s2 r j' = some (k, o) →
     exec (.gatherRowArrival tag ⟨a, fab, none⟩) s = .next (gatherFails (writeSlots s2 r g
       ((gatherOut s2 r g (replicaRead s2 j') (capturedBytes rows)).take k)) tag r j' (poisonStatus o))) ∧
    (bodyB r 28 / 64 ≠ 0 →
     exec (.gatherRowArrival tag ⟨a, fab, some ⟨.gather g.facet, true⟩⟩) s =
       .next (gatherFails (unitCheck s2 10 (8 * g.facet + 2) 2) tag r j' .computeCheck))) ∧
  (∀ (s s1 : State) (tag : Nat) (r : Request) (res : List Nat) (st : Status), running s tag 0x13 = some r → noService s = false →
    (scatterRun 0 s r = (s1, .ok (res, st)) → exec (.scatterWrite tag) s = .next (finish s1 tag st res)) ∧
    (scatterRun 1 s r = (s1, .ok (res, st)) → exec (.scatterAdd tag) s = .next (finish s1 tag st res)) ∧
    (scatterRun 2 s r = (s1, .ok (res, st)) →
      exec (.scatterRefresh tag) s = .next (finish s1 tag st res) ∧ st = .ok ∧ res.take 2 = [0, 0])) ∧
  (∀ (s : State) (t : Table) (r : Request) (i n m : Nat) (d : List Byte), t.valid i = true → d.length = t.rowBytes →
    let a := t.base + t.mainRow i * t.stride
    checkAccess s r.tenant a t.rowBytes = none → homeQuiet s a t.rowBytes = true → writesClean s a t.rowBytes = true →
    ∃ s1, scatterOne t r [] false ⟨s, n, m, 0, none⟩ i (.ok d) = ⟨s1, n + 1, m, 0, none⟩ ∧ memRead s1 a t.rowBytes = d ∧
      (∀ b, b < a ∨ a + t.rowBytes ≤ b → memByte s1 b = memByte s b) ∧ { s1 with mem := s.mem } = s) ∧
  (∀ (a b : List Byte) (i : Nat),
    sInt 8 (rdB (addElem 4 a b i) 0) = max (-128) (min 127 (sInt 8 (rdB a i) + sInt 8 (rdB b i))))

/-- An EMBED whose run succeeds ends its request with the vectors and the matrix counts in its words, and with BF16_FLUSH
exactly when terms were flushed. A RERANK ends its request with four words. A pass of an operation that the request's
image does not hold changes nothing. A tile pass of the tile its array holds, poisoned or with vector checks that failed
twice, fails the request with the poison's status or COMPUTE_CHECK; else it adds its contribution to the tile's sums and its cycles to the array's count: a clean one changes no other count; an
unchecked one adds its flushed terms and one unchecked pass; one whose first check failed and whose recompute held
counts the mismatch, the cleared fault and the recompute, and is recorded with its array. One whose recompute failed
too adds nothing, counts the recompute, and fences the array. A finished tile joins the other ranges of K of its
output tile; when all of K is there, the sums are rounded once, and its out-of-range elements are added to the
request. (11_matrix_arrays.md R226, 11_matrix_arrays.md R228, 11_matrix_arrays.md R229, 11_matrix_arrays.md R230,
11_matrix_arrays.md R231, 11_matrix_arrays.md R232, 11_matrix_arrays.md R236, 11_matrix_arrays.md R239,
11_matrix_arrays.md R244.) -/
def Obligations.MatrixCommandsComplete : Prop :=
  (∀ (s s1 : State) (tag : Nat) (r : Request) (res : List Nat) (st : Status), noService s = false →
    (running s tag 0x14 = some r → embedRun tag s r = (s1, .ok (res, st)) →
      exec (.embed tag) s = .next (finish s1 tag st res) ∧
      res = bodyLe r 28 2 :: mtxWords (mtxOf s tag) ∧ st = if (mtxOf s tag).flushed = 0 then .ok else .bf16Flush) ∧
    (running s tag 0x17 = some r → rerankRun tag s r = (s1, .ok (res, st)) →
      exec (.rerank tag) s = .next (finish s1 tag st res) ∧ res.length = 4)) ∧
  (∀ (s : State) (tag p : Nat) (x : TilePass) (im : ImageRun), (matrixRunning s tag).bind (imageRun s tag) = some im →
    opOfImage im x.op = false → exec (.tilePassDone tag p x) s = .next s) ∧
  (∀ (s : State) (tag p n : Nat) (x : TilePass) (im : ImageRun) (w : TileWork) (d : MatrixRun) (y : List (List Machine.Num)),
    (matrixRunning s tag).bind (imageRun s tag) = some im → p < 64 → opOk x.op = true → opOfImage im x.op = true →
    let s0 := redispatch (withOperation s tag im x.op)
    let k := fKey (p / 8)
    let busy := k (0x40020 + 4 * (p % 8))
    let cycles := rowCycles x.op.fmt * x.a.length
    let j := mtxOf s0 tag
    let added := some { d with busy := place d.busy p { w with next := w.next + 1, acc := addMatrix w.acc y } }
    let gives := fun (e : PassEnd) => passResult x (sliceCols x.op w.tile.slice) (tileDepth x.op w.next) = (e, y, n)
    j.run = some d → d.op = x.op → look d.busy p = some w → passShaped x w = true →
    (∀ o, x.poison = some o → exec (.tilePassDone tag p x) s = .next (matrixFails s0 tag (poisonStatus o))) ∧
    (x.poison = none → x.vector = 2 →
      exec (.tilePassDone tag p x) s = .next (matrixFails (unitCheck s0 1 p 2) tag .computeCheck)) ∧
    (x.poison = none → x.vector = 0 →
    (gives .clean → ∃ s1, exec (.tilePassDone tag p x) s = .next (arraysLeft (redispatch s1) tag) ∧
      mtxOf s1 tag = { j with run := added } ∧ n = 0 ∧
      regFld s1 busy 0 32 = min (regFld s busy 0 32 + cycles) (2 ^ 32 - 1) ∧
      regGet s1 (k 0x40000) = regGet s (k 0x40000) ∧ { s1 with mtx := s0.mtx, regs := s.regs } = s0) ∧
    (gives .unchecked → ∃ s1, exec (.tilePassDone tag p x) s = .next (arraysLeft (redispatch s1) tag) ∧
      mtxOf s1 tag = { j with flushed := j.flushed + n, unchecked := j.unchecked + 1, run := added } ∧
      regFld s1 (k 0x40008) 0 32 = min (regFld s (k 0x40008) 0 32 + n) (2 ^ 32 - 1) ∧
      regFld s1 (k 0x4000C) 0 32 = min (regFld s (k 0x4000C) 0 32 + 1) (2 ^ 32 - 1) ∧
      { s1 with mtx := s0.mtx, regs := s.regs } = s0) ∧
    (gives .cleared → regFld s (k 0x40100) 0 8 = 0 →
      ∃ s1, exec (.tilePassDone tag p x) s = .next (arraysLeft (redispatch s1) tag) ∧
        mtxOf s1 tag = { j with recomputes := j.recomputes + 1, run := added } ∧
        regFld s1 (k 0x40000) 16 16 = min (regFld s (k 0x40000) 16 16 + 1) (2 ^ 16 - 1) ∧
        regFld s1 (k 0x40000) 0 16 = min (regFld s (k 0x40000) 0 16 + 1) (2 ^ 16 - 1) ∧
        regGet s1 (k 0x40004) = BitVec.ofNat 32 (2 ^ 31 + p % 8) ∧
        { s1 with mtx := s0.mtx, regs := s.regs, mtxCleared := s.mtxCleared } = s0) ∧
    (gives .failed → ∃ s1, exec (.tilePassDone tag p x) s = .next (arraysLeft (redispatch (fenceUnit s1 2 p 1)) tag) ∧
      mtxOf s1 tag = { j with recomputes := j.recomputes + 1 } ∧
      regGet s1 (k 0x40004) = BitVec.ofNat 32 (2 ^ 31 + 8 + p % 8) ∧ { s1 with mtx := s0.mtx, regs := s.regs } = s0))) ∧
  (∀ (s : State) (tag p : Nat) (w : TileWork) (d : MatrixRun), (matrixRunning s tag).isSome = true → p < 64 →
    let s0 := redispatch s
    let j := mtxOf s0 tag
    let key := (w.tile.chunk, w.tile.slice)
    let sums := joinPart d w
    let out := sums.2.map (fun r => r.map (roundOut d.op.out))
    let others := d.parts.filter (fun q => q.1 != key)
    j.run = some d → look d.busy p = some w → w.next = w.tile.kTo →
    (sums.1 < tilesK d.op → ∃ s1, exec (.outputTileDone tag p) s = .next (redispatch s1) ∧
      mtxOf s1 tag = { j with run := some { d with busy := remove d.busy p, parts := others ++ [(key, sums)] } } ∧
      { s1 with mtx := s0.mtx } = s0) ∧
    (tilesK d.op ≤ sums.1 → ∃ s1, exec (.outputTileDone tag p) s = .next (redispatch s1) ∧
      mtxOf s1 tag = { j with
        range := j.range + (out.map (fun r => (r.filter (·.2)).length)).sum
        run := some { d with busy := remove d.busy p, parts := others, outs := d.outs ++ [(key, out.map (fun r => r.map (·.1)))] } } ∧
      { s1 with mtx := s0.mtx } = s0))

/-- A SEARCH without shards whose inputs check is under way with the query, lists to probe and K of its body. The centroid
exchange chooses the lists, once per search, and knows the copies then in flight; a check of the centroid pass that
fails twice fails the search. The scan's end of a search without shards, no copy being awaited and no check having met
a mismatch, ends it with the entries found. A prefetch copy of the stripe whose turn it is joins the list buffer with
its bytes. The shard deadline of a search that
still scans marks it expired. An index LOAD into an empty slot is under way and ends with the slot loaded, or refused
with the check's reason and place; UNLOAD empties an unused slot at once. (12_similarity_search.md R246,
12_similarity_search.md R250, 12_similarity_search.md R254, 12_similarity_search.md R258, 12_similarity_search.md
R262, 12_similarity_search.md R273, 12_similarity_search.md R274, 12_similarity_search.md R275.) -/
def Obligations.SearchCommandsComplete : Prop :=
  (∀ (s s1 : State) (tag : Nat) (r : Request) (q : SearchQ) (b : List Byte) (fn : FnId) (ring cq lg : Nat) (i : Word),
    running s tag 0x15 = some r → r.source = .ring fn ring i cq lg → look s.searches tag = none → searchBad r = false →
    16 * bodyLe r 32 4 ≤ bodyLe r 48 4 → outCheck s r (nbit (bodyB r 36) 4) (bodyLe r 40 8) (16 * bodyLe r 32 4) = none →
    bodyB r 37 % 16 = 0 → noService s = false → searchInputs s r (ownQuery r) = (s1, .ok (q, b)) →
    exec (.search tag) s = .next { s1 with
      searches := place s1.searches tag ⟨q, none, [], [], s1.freeCount, none, false, [], false⟩, freeCount := s1.freeCount + 1 } ∧
    q.k = bodyLe r 32 4 ∧ q.nprobe = bodyLe r 28 2 ∧ q.slot = bodyLe r 24 4 ∧ q.fmt = bodyB r 36 / 4 % 4 ∧
    q.query.length = ixDim b * fmtSize q.fmt) ∧
  (∀ (s s1 s2 : State) (tag : Nat) (r : Request) (j : SearchJob) (d : List Byte), searching s tag = some (r, j) →
    j.lists = none → someEngine s 0 = true →
    let b := searchBlob s j
    let ls := chooseLists s2 b j.q
    let fl := (ixFacets b).filterMap (fun f => (nextCopy s2 tag r j b f).map (fun c => (f, c.1)))
    centroidReads s r.tenant b = (s1, .ok ()) → handleRead s1 r.tenant (ixDir b) (16 * ixNlist b) = (s2, .ok d) →
    rowLength s2 b ls ≤ 16777216 →
    exec (.centroidExchange ⟨tag, none⟩) s = .next (withPipe
      { s2 with searches := place s2.searches tag { j with lists := some ls, flying := fl } } tag
      (fun p => { p with streams := some s2.clk.grains.toNat })) ∧
    ls.length = min j.q.nprobe (ixNlist b) ∧ ∀ l, l ∈ ls → l < ixNlist b) ∧
  (∀ (s : State) (tag f : Nat) (r : Request) (j : SearchJob), searching s tag = some (r, j) → j.lists = none →
    scans s j (.similarity f) = true →
    exec (.centroidExchange ⟨tag, some ⟨.similarity f, true⟩⟩) s = .next (searchFails (unitCheck s 10 (8 * f) 2) tag .computeCheck)) ∧
  (∀ (s s1 : State) (tag : Nat) (r : Request) (j : SearchJob) (ls : List Nat) (es : List Entry) (wide : Bool),
    searching s tag = some (r, j) → j.lists = some ls → j.entries = none → j.shards = [] → copyAwaited s tag r j = false →
    let b := searchBlob s j
    let j' := { j with entries := some es, widened := wide }
    let s2 := withPipe s1 tag (fun p => { p with scanned := some s1.clk.grains.toNat, leads := some (finalLeads s1 tag r j b) })
    scanRun s r.tenant b j.q j.copies ls = (s1, .ok (es, wide)) →
    exec (.scanDone tag none) s = .next (searchEnds { s2 with searches := place s2.searches tag j' } tag j' b) ∧ es.length ≤ j.q.k) ∧
  (∀ (s : State) (tag f l at_ : Nat) (r : Request) (j : SearchJob), searching s tag = some (r, j) →
    let b := searchBlob s j
    let i := (ixFacets b).findIdx (· == f)
    let a := stripeAddr b (listOf s b l) i
    let n := stripeBytes s b l i
    nextCopy s tag r j b f = some (l, at_) → j.entries = none → rangeLive s a n = true → rangeLive s at_ n = true →
    cohBusy s a n = false →
    ∃ t, exec (.nbPrefetchCopyDone tag f l) s = .next t ∧
      look t.searches tag = some { j with copies := j.copies ++ [⟨f, l, at_⟩] } ∧
      memRead t at_ n = memRead (collect s a n true) a n ∧
      (∀ x, x < at_ ∨ at_ + n ≤ x → memByte t x = memByte (collect s a n true) x) ∧
      t.requests = s.requests ∧ t.idx = s.idx ∧ t.flash = s.flash) ∧
  (∀ (s : State) (tag : Nat) (r : Request) (j : SearchJob) (fn : FnId) (ring cq lg : Nat) (i : Word),
    searching s tag = some (r, j) → r.source = .ring fn ring i cq lg → extField r 4 (rdLe (extOf r) 4 4) 0 ≠ 0 → j.shards ≠ [] →
    j.expired = false → j.entries = none →
    exec (.shardDeadlineX tag) s = .next { s with searches := place s.searches tag { j with expired := true } }) ∧
  (∀ (s : State) (w : Word), alive s = true → s.srchLd = none →
    let host := pair (regGet s) (aKey 0x50000)
    let len := (regGet s (aKey 0x50008)).toNat
    (look s.idx (fld w 8 6) = none → loadState s = true → host % 64 = 0 →
      ∃ t, exec (.srchLdLoad w) s = .next t ∧ t.srchLd = some ⟨0, fld w 8 6, 0, 0, host, len⟩ ∧ regGet t srchSt = ldWord 1 0 ∧
        { t with srchLd := s.srchLd, regs := s.regs, ports := s.ports, atc := s.atc, outs := s.outs } = s) ∧
    ((look s.idx (fld w 8 6)).isSome = true →
      ∃ t, exec (.srchLdLoad w) s = .next t ∧ regGet t srchSt = ldWord 3 3 ∧ { t with regs := s.regs } = s) ∧
    (s.srchUnld = [] → s.requests = [] → s.pools = [] →
      ∃ t, exec (.srchLdUnload w) s = .next t ∧ look t.idx (fld w 8 6) = none ∧ regGet t srchSt = ldWord 2 0 ∧
        (∀ n, n ≠ fld w 8 6 → look t.idx n = look s.idx n) ∧ { t with idx := s.idx, regs := s.regs } = s)) ∧
  (∀ (s : State) (blob : List Byte) (j : LoadJob), alive s = true → s.srchLd = some j →
    let b := blob.take j.len
    let s0 := backOwner { s with srchLd := none } j.host j.len
    let s1 := if dirReadable s0 b j.len then engRead s0 0 (ixDir b) (16 * ixNlist b) else s0
    (dirReadable s b j.len = true → cohBusy s (ixDir blob) (16 * ixNlist blob) = false) →
    (∀ x, indexCheck s1 b j.len = some x →
      ∃ t, exec (.srchLoadDone blob .good) s = .next t ∧ t.srchLd = none ∧ regGet t srchSt = ldWord 3 x.1 ∧
        regGet t (srchSt + 4) = BitVec.ofNat 32 x.2 ∧ { t with regs := s1.regs } = s1) ∧
    (s.srchUnld = [] → indexCheck s1 b j.len = none →
      ∃ t, exec (.srchLoadDone blob .good) s = .next t ∧ t.srchLd = none ∧ look t.idx j.slot = some ⟨b, false⟩ ∧
        regGet t srchSt = ldWord 2 0 ∧ { t with idx := s1.idx, regs := s1.regs } = s1))

/-- A SELECT whose inputs check, with no mismatch met, ends at once on one unit, writing the best K entries of its row
with their number, the shortfall, the compactions and the units in its words; on several units it waits for its merge,
which ends it the same way while they are live. A check that fails twice, of a share or of the merge, on a unit of the
request, fails it with COMPUTE_CHECK. The best K entries are min(K, N) of the row's entries, each ranked
before none that follows it out of order. (13_selection.md R278, 13_selection.md R279, 13_selection.md R281,
13_selection.md R285, 13_selection.md R287, 13_selection.md R291.) -/
def Obligations.SelectCommandsComplete : Prop :=
  (∀ (s : State) (tag : Nat) (r : Request), running s tag 0x16 = some r → noService s = false →
    let k := bodyLe r 28 4
    let asc := nbit (bodyB r 32) 3
    let words := fun (us : List Nat) (row : List Entry) (comp : Nat) =>
      [(bestK asc k row).length, k - (bestK asc k row).length, comp,
        us.length * 2 ^ 16 + min ((bestK asc k row).filter (fun e => decide (e.num = .nan))).length 0xFFFF]
    let ends := fun (s : State) (us : List Nat) (row : List Entry) (comp : Nat) =>
      finish (writeOut s r (nbit (bodyB r 32) 6) (bodyLe r 40 8) (entriesBytes (bestK asc k row))) tag
        (if (bestK asc k row).length < k then .shortfall else .ok) (words us row comp)
    (∀ (s1 : State) (us : List Nat) (row : List Entry), look s.selects tag = none → selectInputs s r = (s1, .ok (us, row)) →
      let comp := allCompactions asc k row us.length
      let s2 := spoilScratch (selectCounts s1 us row asc k) r us.length
      (us.eraseDups.length = 1 → noService s2 = false → exec (.selectRow tag none) s = .next (ends s2 us.eraseDups row comp)) ∧
      (us.eraseDups.length ≠ 1 → ∃ t, exec (.selectRow tag none) s = .next t ∧ look t.selects tag = some ⟨us, row, comp⟩ ∧
        { t with selects := s2.selects } = s2) ∧
      (∀ f, us.contains f = true → exec (.selectRow tag (some ⟨.selection f, true⟩)) s =
        .next (finish (unitCheck s1 10 (8 * f + 1) 2) tag .computeCheck []))) ∧
    (∀ j, look s.selects tag = some j → j.units.all (fun f => engineLive s f 1 && fabricLive s f) = true →
      exec (.selectMerge ⟨tag, none⟩) s =
        .next (ends { s with selects := remove s.selects tag } j.units.eraseDups j.row j.compactions) ∧
      (∀ f, j.units.contains f = true → exec (.selectMerge ⟨tag, some ⟨.selection f, true⟩⟩) s =
        .next (let u := unitCheck s 10 (8 * f + 1) 2
          finish { u with selects := remove u.selects tag } tag .computeCheck [])))) ∧
  (∀ (asc : Bool) (k : Nat) (row : List Entry), (bestK asc k row).length = min k row.length ∧
    (∀ e, e ∈ bestK asc k row → e ∈ row) ∧
    (bestK asc k row).Pairwise (fun a b => ranksBefore asc b a = false))

/-- A PIPELINE whose body, plan, names and input check starts its first stage with the plan and input as read. A stage
other than search and prefill that completes without a failure records its status, its bit and the grains since its
first input, and the next stage begins; the last stage ends the pipeline with the status its stages give. A stage that
fails, or takes a flit that the fabric spoiled, is recorded with its status and ends the pipeline. (01_request_path.md R16, 01_request_path.md
R18, 01_request_path.md R20, 01_request_path.md R22, 01_request_path.md R25, 01_request_path.md R27.) -/
def Obligations.PipelineCommandsComplete : Prop :=
  (∀ (s s1 : State) (tag : Nat) (r : Request) (plan input : List Byte), running s tag 0x20 = some r → r.pipe = none →
    pipeBad r = false → hostRead r (bodyLe r 32 8) (64 * bodyLe r 40 2) = .ok plan →
    readAt s r (nbit (bodyB r 29) 0) (bodyLe r 16 8) (bodyLe r 24 4) = (s1, .ok input) →
    let p := pipeNew (pipeFirst r) (pipeLast r) plan input
    let s2 := notePlan s1 r plan
    let s3 := setRequest s2 tag { r with pipe := some { pipeInput p with began := s2.clk.grains.toNat } }
    planShape plan p.first p.last = true → planRules p (bodyLe r 24 4) = true → planResolves s2 r p = true → noService s2 = false →
    (1 ≤ p.first → p.first ≤ 6 → blockShape input p.first p.last = true ∧ blockMain s2 r p input = true) →
    exec (.pipeline tag) s = .next (stageBegin s3 tag) ∧
    (p.first ≠ 1 → p.first ≠ 3 → p.first ≠ 7 → exec (.pipeline tag) s = .next s3)) ∧
  (∀ (s : State) (tag unit n : Nat) (fab : Nat × FabricSeen) (r : Request) (p : Pipeline), running s tag 0x20 = some r →
    r.pipe = some p → p.next = n → n < 7 → n ≠ 3 → noService s = false →
    let ended := fun (u : State) (q : Pipeline) (st : Status) =>
      { markStage q n st (grainsSince u q.began) with
        done := none, next := n + 1, began := u.clk.grains.toNat, slots := if n = 5 ∧ isFailure st = false then [] else q.slots }
    let put := fun (u : State) (q : Pipeline) => { setRequest u tag { r with pipe := some q } with mtx := remove u.mtx tag }
    (∀ s1 q st, stageRun s tag r p unit = (s1, .ok (q, st)) → isFailure st = false →
      let x := stageFabric s1 r p fab
      let q' := ended x.1 q st
      (x.2 = false → n < q.last →
        exec (.stageComplete tag none unit fab) s = .next (stageBegin (put x.1 q') tag) ∧
        (n ≠ 0 → n ≠ 2 → n ≠ 6 → exec (.stageComplete tag none unit fab) s = .next (put x.1 q'))) ∧
      (x.2 = false → n = q.last →
        exec (.stageComplete tag none unit fab) s = .next (pipeClose (put x.1 q') tag r q' (pipeStatus q'))) ∧
      (x.2 = true → let q2 := ended x.1 p .poisonFabric
        exec (.stageComplete tag none unit fab) s = .next (pipeClose (put x.1 q2) tag r q2 (pipeStatus q2))) ∧
      (n < q.grains.length → q'.grains.getD n 0 = x.1.clk.grains.toNat - q.began) ∧ q'.run.testBit n = true) ∧
    (∀ s1 st, stageRun s tag r p unit = (s1, .fail st) → isFailure st = true →
      let q' := ended s1 p st
      exec (.stageComplete tag none unit fab) s = .next (pipeClose (put s1 q') tag r q' (pipeStatus q'))))

/-- TEN_GROUP_WRITE keeps only the partitions that the tenant holds and changes no other register. A template LOAD into an
empty slot copies the blob to its destination and marks the slot loaded when the blob checks, or refuses it with the
check's reason and offset; UNLOAD empties an unused slot at once. A PACK whose run succeeds completes with four words
and places at most MAX_PASSAGES passages. A PREFILL to device memory whose checks hold is under way with its tokens;
each layer but the last writes its blocks, one per 16 positions, behind the ones before. (14_packing_and_generation.md
R292, 14_packing_and_generation.md R295, 14_packing_and_generation.md R296, 14_packing_and_generation.md R297,
14_packing_and_generation.md R299, 14_packing_and_generation.md R303, 14_packing_and_generation.md R307,
14_packing_and_generation.md R309, 01_request_path.md R30.) -/
def Obligations.PromptCommandsComplete : Prop :=
  (∀ (s : State) (tn g : Nat) (high : Bool) (w : Word), alive s = true → tn ≤ 64 → g < 16 →
    let key := 0x48000 + 128 * tn + 8 * g + (if high then 4 else 0)
    ∃ t, exec (.tenGroupWrite tn g high w) s = .next t ∧
      regGet t key = w &&& BitVec.ofNat 32 (if high then partsOf s tn / 2 ^ 32 else partsOf s tn) ∧
      (∀ k, k ≠ key → regGet t k = regGet s k) ∧ { t with regs := s.regs } = s) ∧
  (∀ (s : State) (w : Word) (blob : List Byte), alive s = true → s.tplUnld = [] →
    let dest := pair (regGet s) (aKey 0x9000C)
    let len := (regGet s (aKey 0x90008)).toNat
    (look s.tpl (fld w 8 6) = none → destOk s dest len = true → loadState s = true →
      pair (regGet s) (aKey 0x90000) % 64 = 0 → rangeLive s dest (max len 1) = true → len ≤ blob.length →
      homeQuiet s dest len = true → memPoison s dest len = none →
      (tplCheck (blob.take len) len = none →
        ∃ t, exec (.clpLdLoad w blob .good) s = .next t ∧ look t.tpl (fld w 8 6) = some ⟨dest, len, false⟩ ∧
          regGet t clpSt = ldWord 2 0 ∧ memRead t dest len = blob.take len ∧
          (∀ a, a < dest ∨ dest + len ≤ a → memByte t a = memByte s a) ∧
          { t with tpl := s.tpl, regs := s.regs, mem := s.mem, ports := s.ports, atc := s.atc, outs := s.outs } = s) ∧
      (∀ x, tplCheck (blob.take len) len = some x →
        ∃ t, exec (.clpLdLoad w blob .good) s = .next t ∧ regGet t clpSt = ldWord 3 x.1 ∧ regGet t (clpSt + 4) = BitVec.ofNat 32 x.2 ∧
          { t with regs := s.regs, mem := s.mem, ports := s.ports, atc := s.atc, outs := s.outs } = s)) ∧
    (s.requests = [] → s.pools = [] →
      ∃ t, exec (.clpLdUnload w) s = .next t ∧ look t.tpl (fld w 8 6) = none ∧ regGet t clpSt = ldWord 2 0 ∧
        (∀ n, n ≠ fld w 8 6 → look t.tpl n = look s.tpl n) ∧ { t with tpl := s.tpl, regs := s.regs } = s)) ∧
  (∀ (s s1 : State) (tag : Nat) (r : Request) (res : List Nat) (st : Status), running s tag 0x18 = some r → noService s = false →
    packRun tag s r = (s1, .ok (res, st)) →
    exec (.packPrompt tag) s = .next (finish s1 tag st res) ∧ res.length = 4 ∧ res.getD 1 0 ≤ bodyLe r 26 2 ∧
    (st = .ok ∨ st = .truncated ∨ st = .packDropped)) ∧
  (∀ (s s1 s2 : State) (tag : Nat) (r : Request) (im : Image) (b ps : List Byte), running s tag 0x19 = some r →
    look s.prefills tag = none → prefillBad r false = false → poolValid r = false → prefillImage s r (bodyB r 44 % 16) = .ok im →
    promptOk im (bodyLe r 24 4) = true → readAt s r (nbit (bodyB r 44) 7) (bodyLe r 16 8) (4 * bodyLe r 24 4) = (s1, .ok b) →
    noService s1 = false → (∀ t, t ∈ idsOf b → t < tyVocab im.md) → prefillTarget s1 r im (bodyLe r 24 4) = (s2, .ok ps) →
    exec (.prefill tag) s = .next (setPrefill s2 tag ⟨idsOf b, im, seqIdOf s2 r, .memory, false, [], 0, 0, false⟩) ∧
    (idsOf b).length = bodyLe r 24 4) ∧
  (∀ (s : State) (tag : Nat) (j : PrefillJob), alive s = true → look s.prefills tag = some j → j.target = .memory → j.ended = false →
    layerCopied s tag j.image = true →
    let m := mtxOf s tag
    let tn := match look s.requests tag with | some r => r.tenant | none => 0
    let s0 := segsRead s tn j.image (layerSegs j.image m.layers)
    prefillGroupFault s0 tag = none → layerBad s0 tag j.image m.layers = none →
    let bs := layerBlocks s0 j m.layers
    m.layers + 1 < tyLayers j.image.md →
    let s1 := setMtx s0 tag { m with layers := m.layers + 1, unitAt := max m.unitAt ((m.layers + 1) * tyUnits j.image.md) }
    let w := writeBlocks s1 tn (kvAddr s1 tag) j.written bs
    exec (.prefillLayerDone tag) s =
      .next (setPrefill w.1 tag { j with blocks := j.blocks + bs.length, ended := false, written := w.2 }) ∧
    bs.length = (j.tokens.length + 15) / 16 ∧
    (homeQuiet s1 (kvAddr s1 tag + j.written) (w.2 - j.written) = true →
      ∀ a, a < kvAddr s1 tag + j.written ∨ kvAddr s1 tag + w.2 ≤ a → memByte w.1 a = memByte s1 a))

/-- A DECODE_ATTACH whose checks hold stays open as an empty pool with its image and limits. A DETACH of an empty pool
that no other detach was fetched for ends the pool with its last text offset and then the detach; one that names no
pool is NOT_FOUND, and under register-only service one ends NO_PARTITION. A waiting sequence
whose admission time passes is refused. A decode step of an image that is not streamed gives a running sequence one
more token and counts it, and changes no memory but the cache region (its first step none); a step of a streamed image
waits for its last unit. A mask that comes before its sample is kept and its time is the new peak if larger. A due
chunk that fits, on a live port, is written to the text ring, is posted, and empties the pending bytes. CONSUMED
within the bytes written is taken. (14_packing_and_generation.md R310, 14_packing_and_generation.md R312,
14_packing_and_generation.md R313, 14_packing_and_generation.md R315, 14_packing_and_generation.md R316,
14_packing_and_generation.md R317, 09_tokens_and_grammar.md R197, 09_tokens_and_grammar.md R198.) -/
def Obligations.DecodePoolCommandsComplete : Prop :=
  (∀ (s : State) (tag : Nat) (r : Request) (im : Image), running s tag 0x1A = some r → nbit (bodyB r 62) 7 = false →
    look s.pools tag = none → attachCheck s r = .ok im → r.ext = none → s.hmk.draining = false →
    r.fence = none → (∀ p, p ∈ s.requests → p.2.started = true ∧ p.2.fence = none) →
    ∃ t p, exec (.decodeAttach tag) s = .next t ∧ look t.pools tag = some p ∧ p.image = im ∧ p.tenant = r.tenant ∧
      p.id = bodyB r 62 % 16 ∧ p.kvAddr = bodyLe r 32 8 ∧ p.maxSeq = bodyLe r 56 2 ∧ p.admitMs = 10 ∧ p.seqs = [] ∧ p.closing = false ∧
      look t.requests tag = some { r with attached := true } ∧ { t with pools := s.pools, requests := s.requests } = s) ∧
  (∀ (s : State) (tag : Nat) (r : Request), running s tag 0x1A = some r → nbit (bodyB r 62) 7 = true →
    (noService s = true → exec (.detach tag) s = .next (finish s tag .noPartition [])) ∧
    (noService s = false → poolNamed s r.tenant (bodyB r 62 % 16) = none → exec (.detach tag) s = .next (finish s tag .notFound [])) ∧
    (∀ pt p, noService s = false → poolNamed s r.tenant (bodyB r 62 % 16) = some (pt, p) → p.closing = false → leavesFirst p tag = false →
      p.seqs = [] →
      exec (.detach tag) s = .next (finish (finish (setPool s pt { p with closing := true, detach := some tag }) pt .ok
        [0, p.written % ringBytes p, 2 ^ 30, 0]) tag .ok []))) ∧
  (∀ (s : State) (tag n : Nat) (p : Pool) (q : Seq), look s.pools tag = some p → look p.seqs n = some q →
    (alive s = true → q.state = .waiting →
      exec (.admitMsX tag n) s = .next (poolSettle (refuseSeq s tag n .poolFull) tag) ∧
      (q.flow = none → q.local_ = none → p.closing = false → (∀ x, x ∈ p.seqs → x.2.state = .waiting → x.1 = n) →
        ∃ t, exec (.admitMsX tag n) s = .next t ∧ look t.pools tag = some { p with seqs := remove p.seqs n } ∧
          { t with pools := s.pools } = s)) ∧
    ((running s tag 0x1A).isSome = true → p.seqs = [(n, q)] → q.state = .running → q.stop = none → q.stalled = false →
      q.maskWaits = false → parGrm q.params = none → poolFault s p = none → p.closing = false → tyExec p.image.md ≠ 1 →
      let s1 := segsRead s p.tenant p.image (if q.chosen = [] then outerSegs p.image else segsOf p.image.md)
      (q.chosen = [] ∨ (rangeLive s p.kvAddr (kvBytes p) = true ∧ layersLost s1 tag p = [])) →
      let s2 := sampleReads (if q.chosen = [] then s1 else spoilBytes s1 p.kvAddr (kvBytes p)) p q
      ∃ t, exec (.decodeStep tag []) s = .next t ∧
        (match nextToken s2 p q with
        | .error st => t = poolSettle (afterStep s2 tag n p (stopSeq q 7 st)) tag
        | .ok tk => (takeToken s2 p q tk).chosen = q.chosen ++ [tk] ∧
          (chunkDue p (takeToken s2 p q tk) = false → look t.pools tag = some { p with seqs := [(n, takeToken s2 p q tk)] } ∧
            regFld t (fKey (poolFacet p) 0x9080C) 0 32 = min (regFld s2 (fKey (poolFacet p) 0x9080C) 0 32 + 1) (2 ^ 32 - 1) ∧
            { t with pools := s.pools, regs := s2.regs } = s2))) ∧
    (windowWaits s tag p = true → exec (.decodeStep tag []) s = .next s) ∧
    (∀ g, (running s tag 0x1A).isSome = true → (parGrm q.params).isSome = true → q.stop = none → q.maskWaits = false →
      ∃ t, exec (.maskReady tag n g) s = .next t ∧
        (look t.pools tag).bind (fun p => look p.seqs n) = some { q with maskReady := true } ∧
        regFld t (fKey (poolFacet p) 0x80808) 0 32 = min (max (regFld s (fKey (poolFacet p) 0x80808) 0 32) g) (2 ^ 32 - 1) ∧
        { t with pools := s.pools, regs := s.regs } = s) ∧
    (∀ r fn ring cq lg i, running s tag 0x1A = some r → r.source = .ring fn ring i cq lg → p.chunkUs ≠ 0 → q.pend ≠ [] →
      q.stalled = false → q.stop = none → chunkFits p q.pend.length = true → entryRoom s r = true → p.closing = false →
      (∀ x, x ∈ p.seqs → x.2.state ≠ .waiting) → p.written % ringBytes p + q.pend.length ≤ ringBytes p →
      hostLive s (portFacet fn.port) = true →
      ∃ t, exec (.chunkUs tag n) s = .next t ∧
        (let a := p.textAddr + p.written % ringBytes p
         ∀ x, x ∈ hostParts (maxPayload s fn.port) a q.pend.length →
           .hostWrite fn (pasidOf s fn) x.1 (slice q.pend (x.1 - a) x.2) ∈ t.outs) ∧
        look t.pools tag = some { p with written := p.written + q.pend.length, seqs := place p.seqs n { q with pend := [] } } ∧
        (cqOf t (ringNo fn cq)).posted = (cqOf s (ringNo fn cq)).posted + 1) ∧
    (∀ r v, running s tag 0x1A = some r → q.stalled = true → p.consumed ≤ v → v ≤ p.written → p.closing = false →
      p.seqs = [(n, q)] → q.state ≠ .waiting → chunkFits { p with consumed := v } q.pend.length = false → dmaOpen s (requestFn r) = true →
      ∃ t, exec (.textConsumedReread tag v .good) s = .next t ∧ look t.pools tag = some { p with consumed := v } ∧
        { t with pools := s.pools, ports := s.ports, atc := s.atc, outs := s.outs } = s))

/-- LOAD into an empty slot whose checks hold makes the slot LOADING with the load block as read; SWAP beside leaves the
slot READY with its image while it loads, and SWAP in place makes it LOADING and waits. UNLOAD of an image that
nothing uses empties the slot and completes. Metadata of the first source that checks is kept; of a later source it is
compared, and other bytes fail that source. A segment under way goes to the segment's place and nowhere else; poison
there fails the load; the last segment makes the slot READY and completes the load with its pages, source and need. An
in-place swap starts to write once its old image is unused. A copied window unit counts for its prefill, and nothing
outside its half of each window changes; one whose reads fail is kept with that status. (15_weights.md R319,
15_weights.md R324, 15_weights.md R325, 15_weights.md R326, 15_weights.md R331, 15_weights.md R334, 15_weights.md R337,
15_weights.md R339.) -/
def Obligations.WeightCommandsComplete : Prop :=
  (∀ (s : State) (tag : Nat) (r : Request), running s tag 0x1B = some r → loadUnderWay s tag = false → noService s = false →
    startRefusal s tag r = none →
    let n := lwSlot r
    (∀ s1 block, lwOp r ≤ 1 → someEngine s 5 = true → checkAccess s r.tenant (bodyLe r 24 8) 384 = none →
      anySlice (bodyLe r 24 8) = true → devRead s r.tenant (bodyLe r 24 8) 384 = (s1, .ok block) → blockBad s1 r.tenant block = none →
      (srcOf block 0).kind ≠ 3 →
      (lwOp r = 0 →
        ∃ t, exec (.loadWeightsLoad tag) s = .next t ∧ (troyOf t n).state = .loading ∧
          (troyOf t n).load = some ⟨tag, .load, block, 0, 0, 0, none, false, [], [], 0, false, none, []⟩ ∧
          (∀ k, k ≠ n → troyOf t k = troyOf s1 k) ∧ { t with troy := s1.troy } = s1) ∧
      (lwOp r = 1 → nbit (bodyB r 20) 5 = false →
        (∀ im, (troyOf s1 n).image = some im → placesMeet im.block block = false) →
        ∃ t, exec (.loadWeightsSwap tag) s = .next t ∧
          troyOf t n = { troyOf s1 n with
            load := some ⟨tag, .swap, block, 0, 0, 0, none, false, [], [], 0, false, none, []⟩, claim := none } ∧
          { t with troy := s1.troy } = s1) ∧
      (lwOp r = 1 → nbit (bodyB r 20) 5 = true →
        ∃ t, exec (.loadWeightsSwap tag) s = .next t ∧ (troyOf t n).state = .loading ∧ (troyOf t n).image = (troyOf s1 n).image ∧
          (troyOf t n).load = some ⟨tag, .inPlace, block, 0, 0, 0, none, false, [], [], 0, true, none, []⟩ ∧
          { t with troy := s1.troy, requests := s1.requests } = s1)) ∧
    (lwOp r = 2 → s.requests = [(tag, r)] → r.names = [] → s.pools = [] → s.strand.flows = [] → (troyOf s n).olds = [] →
      (troyOf s n).load = none → (troyOf s n).claim = none → (troyOf s n).swapWait = none →
      exec (.loadWeightsUnload tag) s = .next (finish (setTroy (setRequest s tag { r with judged := some .ok }) n
        { troyOf s n with state := .empty, image := none, unload := none, gen := (troyOf s n).gen + 1 }) tag .ok
        [0, 0xFF000000, 0, 0]))) ∧
  (∀ (s : State) (n : Nat) (l : TroyLoad) (r : Request), alive s = true → (troyOf s n).load = some l →
    look s.requests l.tag = some r →
    (∀ s1 s2 h m, l.metaOk = none → l.flow = none → srcRead s r l 0 4096 = (s1, .ok h) → 4096 ≤ rdLe h 28 4 →
      rdLe h 28 4 ≤ 1048576 → rdLe h 28 4 % 4096 = 0 → srcRead s r l 0 (rdLe h 28 4) = (s2, .ok m) → troyCheck s2 m l.block = none →
      tyExec m ≠ 1 → entryMismatch m l.block = false → bodyLe r 32 4 = 0 →
      ∃ t, exec (.troyMetadataArrival n) s = .next t ∧
        troyOf t n = { troyOf s2 n with load := some { l with metaOk := some m, compared := true } } ∧ { t with troy := s2.troy } = s2) ∧
    (∀ s1 s2 h m m', l.metaOk = some m → l.flow = none → srcRead s r l 0 4096 = (s1, .ok h) → srcRead s r l 0 m.length = (s2, .ok m') →
      (m' = m → ∃ t, exec (.troyMetadataArrival n) s = .next t ∧
        troyOf t n = { troyOf s2 n with load := some { l with compared := true } } ∧ { t with troy := s2.troy } = s2) ∧
      (m' ≠ m → exec (.troyMetadataArrival n) s = .next (sourceFails s2 n .badImage))) ∧
    (∀ i m b y fab, l.metaOk = some m → l.waiting = false → l.compared = true → (inFlight m l.done).contains i = true →
      let g := segOf m i
      let a := segAddr ⟨m, l.block⟩ g
      checkAccess s r.tenant a g.len = none → srcRead s r l g.off g.len = (y, .ok b) → b.length = g.len →
      let s1 := segmentWrite y r.tenant a g b fab
      let s2 := countBytes s1 m l.done g
      (homeQuiet y a g.len = true → memRead s1 a g.len = b ∧ ∀ x, x < a ∨ a + g.len ≤ x → memByte s1 x = memByte y x) ∧
      (∀ o, memPoison s1 a g.len = some o →
        exec (.segmentComplete n ⟨i, fab⟩) s = .next (loadFail s1 n (poisonStatus o) 0)) ∧
      (memPoison s1 a g.len = none → l.done.length + 1 ≠ tySegs m → l.flow = none →
        ∃ t, exec (.segmentComplete n ⟨i, fab⟩) s = .next t ∧
          troyOf t n = { troyOf s2 n with load := some { l with done := l.done ++ [i] } } ∧ { t with troy := s2.troy } = s2) ∧
      (memPoison s1 a g.len = none → l.done.length + 1 = tySegs m → l.mode = .load → l.flow = none →
        exec (.segmentComplete n ⟨i, fab⟩) s = .next (finish (setTroy s2 n
          { troyOf s2 n with state := .ready, image := some ⟨m, l.block⟩, gen := (troyOf s2 n).gen + 1, load := none }) l.tag .ok
          [(((l.done ++ [i]).map (fun k => (segOf m k).len)).sum + 4095) / 4096,
            l.src * 2 ^ 24 + l.failed * 2 ^ 20 + l.firstStatus, l.need, 0]))) ∧
    (l.waiting = true → nameHeld s (.troy n (troyOf s n).gen) = false →
      ∃ t, exec (.inPlaceSwapStart n) s = .next t ∧ troyOf t n = { troyOf s n with load := some { l with waiting := false } } ∧
        { t with troy := s.troy } = s)) ∧
  (∀ (s s1 : State) (tag : Nat) (j : PrefillJob) (r : Request), alive s = true → look s.prefills tag = some j →
    look s.requests tag = some r →
    let m := j.image.md
    let x := mtxOf s tag
    tyExec m = 1 → x.units < tyLayers m * tyUnits m → x.units ≤ unitNow m x.unitAt + 1 →
    (x.units < 2 ∨ windowFault s j.image (x.units - 2) (memPoison s) = none) →
    let reads := readEach (fun s g => handleRead s r.tenant (segAddr j.image g) g.len) s (unitSegs j.image x.units)
    (∀ ds, reads = (s1, .ok ds) → windowFault s j.image x.units (fun _ _ => none) = none →
      ∃ t, exec (.windowUnitCopyDone tag) s = .next t ∧ mtxOf t tag = { x with units := x.units + 1 } ∧
        (∀ a, (∀ f, f < 8 → let w := windowRange j.image x.units f; a < w.1 ∨ w.1 + w.2 ≤ a) → memByte t a = memByte s1 a) ∧
        { t with mtx := s1.mtx, mem := s1.mem, freeCount := s1.freeCount } = s1) ∧
    (∀ st, reads = (s1, .fail st) →
      ∃ t, exec (.windowUnitCopyDone tag) s = .next t ∧
        mtxOf t tag = { x with units := x.units + 1, windowBad := x.windowBad ++ [(x.units, st)] } ∧ { t with mtx := s1.mtx } = s1))

/-- START in TEN_CLEAR_CTRL that no condition refuses starts the clear of the tenant's region that the word names; a
refused one ends in REFUSED with its reason and starts nothing. When the clear is done, every byte of the region that
lies on a live unit reads 0, its homes hold none of its lines for a cache, every byte outside the region is as the
homes collected it, and SKIPPED tells whether part of the region was not live. (18_tenants.md R406.) -/
def Obligations.TenantClearCompletes : Prop :=
  (∀ (s : State) (w : Word), alive s = true →
    (clearRefusal s (fld w 8 7) (fld w 1 4) = none →
      ∃ t, exec (.tenClearStart w) s = .next t ∧ t.clear = some ⟨fld w 8 7, fld w 1 4⟩ ∧ regFld t 0x4F404 28 4 = 1 ∧
        regFld t 0x4F404 24 4 = 0 ∧ regFld t 0x4F404 0 1 = 0 ∧ { t with clear := s.clear, regs := s.regs } = s) ∧
    (∀ why, clearRefusal s (fld w 8 7) (fld w 1 4) = some why → why ≠ 3 →
      ∃ t, exec (.tenClearStart w) s = .next t ∧ regFld t 0x4F404 28 4 = 3 ∧ regFld t 0x4F404 24 4 = why ∧
        { t with regs := s.regs } = s)) ∧
  (∀ (s : State) (c : Clear), alive s = true → s.clear = some c →
    let g := regionOf s c.tenant c.region
    let s0 := collect { s with clear := none } g.base g.len false
    cohBusy s g.base g.len = false →
    ∃ t, exec .tenClearDone s = .next t ∧ t.clear = none ∧ regFld t 0x4F404 28 4 = 2 ∧
      regFld t 0x4F404 0 1 = (if rangeLive s g.base g.len then 0 else 1) ∧
      (∀ a, g.base ≤ a → a < g.base + g.len → rangeLive s a 1 = true → memByte t a = 0#8) ∧
      (∀ l, lineIn g.base g.len l = true → dirOf t l = .invalid) ∧
      (∀ a, a < g.base ∨ g.base + g.len ≤ a → memByte t a = memByte s0 a) ∧ { t with mem := s0.mem, regs := s0.regs } = s0)

/-- FEC lock of a usable lane that is DOWN takes it to IDENTIFYING, or to UNPLANNED where the sealed plan names no far
end, records the rate and sends an LLDPDU. A usable lane that is DOWN trains again at a retry; a lane that is not DOWN
sends LLDPDUs. A received identity is recorded; on an identifying lane the planned one brings it UP, and another
quarantines it with the first difference. TTL expiry returns an UP lane to IDENTIFYING unless it was acknowledged. ACK
brings a quarantined lane UP and sets ACKED, and is ignored in any other state. RETRAIN takes a lane DOWN and trains it.
A lane that goes DOWN counts it, loses its acknowledgement, and sends an LLDPDU of TTL 0 where the link still holds. Loss
of the strand reference takes every lane DOWN. A discarded frame counts on its lane by FEC, FCS or CRC, and as foreign
otherwise or outside SEALED. A cable plan that checks is staged with its CRC; another is refused with its reason and
entry and leaves the staged plan. (19_strand_links.md R407, 19_strand_links.md
R409, 19_strand_links.md R411, 19_strand_links.md R412, 19_strand_links.md R413, 19_strand_links.md R414,
19_strand_links.md R415, 22_rack_and_power.md R479, 26_pins_and_electrical.md R561.) -/
def Obligations.StrandLaneCommandsComplete : Prop :=
  (∀ (s : State) (l : Nat), alive s = true → l < 16 →
    let k := laneKey l 0xB0008 4
    let only100 := bitOf (regGet s (laneKey l 0xB0000 4)) 1
    (∀ fast, laneUsable s l = true → laneState s l = 0 →
      ∃ t, exec (.fecLock l fast) s = .next t ∧ laneState t l = (if isSealedNow s && (laneExpects s l).isNone then 4 else 1) ∧
        regFld t k 4 2 = (if fast then 2 else 1) ∧ t.supply = { s.supply with strandRef := true } ∧
        t.outs = s.outs ++ [.lldp l (lldpdu s l 4)] ∧ { t with supply := s.supply, regs := s.regs, outs := s.outs } = s) ∧
    (laneUsable s l = true → laneState s l = 0 →
      exec (.laneTrainingRetry l) s = .next { s with outs := s.outs ++ [.train l only100] }) ∧
    (laneState s l ≠ 0 → exec (.lldpTransmit l) s = .next { s with outs := s.outs ++ [.lldp l (lldpdu s l 4)] }) ∧
    (∀ csub chassis psub port ttl want, isSealedNow s = true → laneState s l = 1 → laneExpects s l = some want → ttl ≠ 0 →
      (∀ p, p ∈ s.strand.flows → p.2.queue = []) →
      let bad := identityBad s want csub chassis psub port
      ∃ t, exec (.lldpduReceived l csub chassis psub port ttl) s = .next t ∧ laneState t l = (if bad = 0 then 2 else 3) ∧
        (bad ≠ 0 → regFld t k 6 2 = bad) ∧ t.strand = s.strand ∧ t.plan = s.plan ∧
        ∀ w, w < 32 → regGet t (laneKey l 0xB0100 128 + 4 * w) = rxWord (rxBytes csub chassis ++ rxBytes psub port) w) ∧
    (laneState s l = 2 → isAcked s l = false →
      ∃ t, exec (.lldpTtlExpiry l) s = .next t ∧ laneState t l = 1 ∧ { t with regs := s.regs } = s) ∧
    (laneState s l = 2 → isAcked s l = true → exec (.lldpTtlExpiry l) s = .next s) ∧
    (laneState s l ≠ 3 → exec (.strLaneAck l) s = .next s) ∧
    (laneState s l = 3 → (∀ p, p ∈ s.strand.flows → p.2.queue = []) →
      ∃ t, exec (.strLaneAck l) s = .next t ∧ laneState t l = 2 ∧ isAcked t l = true ∧ { t with regs := s.regs } = s) ∧
    (laneState s l ≠ 0 →
      (laneUsable s l = true → ∃ t, exec (.strLaneRetrain l) s = .next t ∧ laneState t l = 0 ∧
        t.outs = s.outs ++ [.lldp l (lldpdu s l 0), .train l only100] ∧ { t with regs := s.regs, outs := s.outs } = s) ∧
      (∃ t, exec (.strandLaneDown l false) s = .next t ∧ laneState t l = 0 ∧ isAcked t l = false ∧
        regFld t k 16 16 = min (regFld s k 16 16 + 1) (2 ^ 16 - 1) ∧ { t with regs := s.regs } = s) ∧
      (∃ t, exec (.strandLaneDown l true) s = .next t ∧ laneState t l = 0 ∧ isAcked t l = false ∧
        regFld t k 16 16 = min (regFld s k 16 16 + 1) (2 ^ 16 - 1) ∧ t.outs = s.outs ++ [.lldp l (lldpdu s l 0)] ∧
        { t with regs := s.regs, outs := s.outs } = s) ∧
      (∀ why n, ∃ t, exec (.strandFrameDiscard l why n) s = .next t ∧ { t with regs := s.regs } = s ∧
        (let key := match why with
          | .fec => laneKey l 0xB0024 16
          | .fcs => laneKey l 0xB0028 16
          | .crc => if isSealedNow s then laneKey l 0xB002C 16 else fKey (l / 2) 0xB0044
          | .foreign => fKey (l / 2) 0xB0044
         regFld t key 0 32 = min (regFld s key 0 32 + 1) (2 ^ 32 - 1)) ∧
        regFld t (laneKey l 0xB0020 16) 0 32 = min (regFld s (laneKey l 0xB0020 16) 0 32 + n) (2 ^ 32 - 1)))) ∧
  (∀ s : State, s.supply.powerGood = true →
    ∃ t, exec .strandRefclkLoss s = .next t ∧ (∀ l, l < 16 → laneState t l = 0) ∧ t.supply = { s.supply with strandRef := false } ∧
      { t with supply := s.supply, regs := s.regs } = s) ∧
  (∀ (s : State) (w : Word) (blob : List Byte) (st : ReadStatus), alive s = true →
    (bitOf w 0 = false → exec (.strPlanLoad w blob st) s = .next s) ∧
    (bitOf w 0 = true → s.hmk.state ≠ .empty → s.hmk.state ≠ .opened →
      exec (.strPlanLoad w blob st) s = .next (planStatus s 3 6 0)) ∧
    (bitOf w 0 = true → s.hmk.state = .empty ∨ s.hmk.state = .opened → pair (regGet s) 0x70000 % 64 ≠ 0 →
      exec (.strPlanLoad w blob st) s = .next (planStatus s 3 1 0))) ∧
  (∀ (s : State) (w : Word) (blob : List Byte), alive s = true → bitOf w 0 = true → s.hmk.state = .empty ∨ s.hmk.state = .opened →
    pair (regGet s) 0x70000 % 64 = 0 →
    let len := (regGet s 0x70008).toNat
    let s0 := planRead s
    s0.regs = s.regs ∧ s0.plan = s.plan ∧ ({ s0 with ports := s.ports, atc := s.atc, outs := s.outs } : State) = s ∧
    (planCheck (blob.take len) len = none →
      ∃ t, exec (.strPlanLoad w blob .good) s = .next t ∧ t.plan = { s.plan with staged := some (blob.take len) } ∧
        regGet t 0x70010 = BitVec.ofNat 32 (2 * 2 ^ 28) ∧ regGet t 0x70014 = BitVec.ofNat 32 (rdLe blob 12 4) ∧
        { t with plan := s.plan, regs := s.regs } = s0) ∧
    (∀ x, planCheck (blob.take len) len = some x →
      exec (.strPlanLoad w blob .good) s =
        .next (regSet s0 0x70010 (BitVec.ofNat 32 (3 * 2 ^ 28 + x.1 * 2 ^ 24 + x.2 % 2 ^ 11)))))

/-- On an UP lane while SEALED, a good frame of a flow acts by its TYPE: DATA in turn extends the message, FIN in turn is
kept, ACK frees what it acknowledges, ACCEPT opens the flow, REFUSE and RESET end it, KEEPALIVE starts its timeouts
anew, OPEN makes a flow at its acceptor. A whole message in turn, in a DATA or an OPEN frame, is delivered to the unit
that uses the flow, whichever of the message commands names it. (19_strand_links.md R416, 19_strand_links.md R417,
19_strand_links.md R419, 19_strand_links.md R420, 19_strand_links.md R421, 19_strand_links.md R422, 19_strand_links.md
R427.) -/
def Obligations.StrandFrameCommandsComplete : Prop :=
  ∀ (s : State) (l : Nat) (b : List Byte), alive s = true → l < 16 → laneState s l = 2 → isSealedNow s = true →
    frameForeign s b = false → frameCrcOk b = true → s.strand.waiting = [] → s.strand.heldOpens = [] → s.strand.tagWaits = [] →
    let h := hdrOf b
    let k := hdrKey h
    let m := payloadOf b
    (∀ f, s.strand.flows = [(k, f)] → f.key = k → f.queue = [] → f.finSent = false → f.early = [] → f.use = .fresh → s.requests = [] →
      (h.typ = 4 → h.ackValid = false → h.seq = f.expect → h.first = !f.inMsg → h.last = false → m.length = 8960 →
        ∃ t f', exec (.dataFrame l b) s = .next t ∧ look t.strand.flows k = some f' ∧ f'.expect = f.expect + 1 ∧
          f'.part = f.part ++ m ∧ f'.inMsg = true ∧ f'.ackOwed = true ∧ { t with strand := s.strand } = s) ∧
      (h.typ = 6 → h.ackValid = false → h.seq = f.expect → f.inMsg = false → f.mine = true →
        ∃ t f', exec (.finFrame l b) s = .next t ∧ look t.strand.flows k = some f' ∧ f'.finGot = true ∧
          f'.expect = f.expect + 1 ∧ { t with strand := s.strand } = s) ∧
      (h.typ = 5 → h.ackValid = true → h.ack ≤ f.next →
        ∃ t f', exec (.ackFrame l b) s = .next t ∧ look t.strand.flows k = some f' ∧ f'.una = max f.una h.ack ∧
          (∀ q, (look f'.sent q).isSome = true → h.ack ≤ q) ∧ { t with strand := s.strand } = s) ∧
      (h.typ = 2 → h.ackValid = false → f.mine = true →
        ∃ t f', exec (.acceptFrame l b) s = .next t ∧ look t.strand.flows k = some f' ∧ f'.accepted = true ∧
          { t with strand := s.strand, regs := s.regs } = s) ∧
      (h.typ = 3 → f.mine = true →
        ∃ t, exec (.refuseFrame l b) s = .next t ∧ t.strand = { s.strand with flows := [] } ∧ { t with strand := s.strand } = s) ∧
      (h.typ = 8 → f.accepted = true →
        ∃ t, exec (.resetFrame l b) s = .next t ∧ t.strand = { s.strand with flows := [] } ∧ { t with strand := s.strand } = s) ∧
      (h.typ = 7 →
        ∃ t f', exec (.keepaliveFrame l b) s = .next t ∧ look t.strand.flows k = some f' ∧
          (∀ q x, look f'.sent q = some x → x.timeouts = 0) ∧ { t with strand := s.strand } = s)) ∧
    (s.strand.flows = [] → h.typ = 1 → h.opener = true → h.seq = 0 → h.first = true → h.last = false → m.length = 8960 →
      flowBar s = none →
      ∃ t f', exec (.flowOpen l b) s = .next t ∧ look t.strand.flows k = some f' ∧ f'.mine = false ∧ f'.peer = h.src ∧
        f'.kind = h.kind ∧ f'.expect = 1 ∧ f'.part = m ∧ f'.use = .fresh ∧ { t with strand := s.strand } = s) ∧
    ((∀ p, p ∈ s.strand.flows → p.2.queue = [] ∧ p.2.finSent = false ∧ p.2.key = p.1) → rising s.strand.flows = true →
      h.first = true → h.last = true → h.ackValid = false → rdLe m 4 4 = m.length → zeroAt m 1 3 = true →
      ∀ c, (rdB m 0 = 0x01 ∧ c = .seqOpen l b ∨ rdB m 0 = 0x02 ∧ c = .kvBlock l b ∨ rdB m 0 = 0x10 ∧ c = .shardQuery l b ∨
          rdB m 0 = 0x11 ∧ c = .shardResult l b ∨ rdB m 0 = 0x20 ∧ c = .weightReq l b ∨ rdB m 0 = 0x21 ∧ c = .weightData l b ∨
          rdB m 0 = 0x30 ∧ c = .statusMsg l b) →
        (∀ f, look s.strand.flows k = some f → h.typ = 4 → h.seq = f.expect → f.inMsg = false → f.part = [] → f.early = [] →
          typeAllowed f.kind (!f.mine) (rdB m 0) = true →
          ∃ s1 f1, exec c s = .next (settle (strandSettle (deliver s1 k m))) ∧ look s1.strand.flows k = some f1 ∧
            f1.expect = f.expect + 1 ∧ f1.use = f.use ∧ f1.kind = f.kind ∧ { s1 with strand := s.strand } = s) ∧
        (look s.strand.flows k = none → h.typ = 1 → h.opener = true → h.seq = 0 → acceptedCount s < 4096 → flowBar s = none →
          typeAllowed h.kind true (rdB m 0) = true →
          ∃ s1 f1, exec c s = .next (settle (strandSettle (deliver s1 k m))) ∧ look s1.strand.flows k = some f1 ∧
            f1.expect = 1 ∧ f1.use = .fresh ∧ f1.kind = h.kind ∧ f1.peer = h.src ∧ { s1 with strand := s.strand } = s))

/-- A SEQ_OPEN that its pool takes binds the flow to the new sequence; a KV_BLOCK of the pool's cache shape is kept by its
sequence, one of another shape discards the sequence; a good SHARD_QUERY that is served starts a search under a tag of its tenant; a SHARD_RESULT with good entries answers its
shard; a WEIGHT_REQ of an image's bytes is answered with them; WEIGHT_DATA is kept by its load; a STATUS failure of a
search is its shard's answer. A retransmission sends the frame again and counts it, and after the second timeout the
flow moves to the next pair. An owed acknowledgement, an OPEN to be sent again and a KEEPALIVE go out on an UP lane. A
peer that is lost loses its flows and its bit is set. (19_strand_links.md R419, 19_strand_links.md R420,
19_strand_links.md R422, 19_strand_links.md R424, 19_strand_links.md R426, 19_strand_links.md R427,
14_packing_and_generation.md R308, 14_packing_and_generation.md R311, 12_similarity_search.md R271,
12_similarity_search.md R272, 15_weights.md R326, 15_weights.md R340.) -/
def Obligations.StrandMessagesAndTimers : Prop :=
  (∀ (s : State) (k : Nat) (f : Flow) (m : List Byte), look s.strand.flows k = some f →
    (∀ s1 pt n f1, rdB m 0 = 0x01 → f.use = .fresh → seqOpenOk m = true →
      openSeq s f.peer (rdB m 36) (rdB m 37) (rdLe m 16 8) (rdLe m 24 8) (rdLe m 32 4) (m.drop 40) (some k) none none = (s1, .ok (pt, n)) →
      look s1.strand.flows k = some f1 → f1.accepted = false →
      deliver s k m = setFlow s1 { f1 with use := .pool pt n, works := true }) ∧
    (∀ pt n p q, rdB m 0 = 0x02 → f.use = .pool pt n → (m.drop 16).length = 32 + rdLe m 40 4 → rdLe m 16 2 ≠ 0xFFFF →
      look s.pools pt = some p → look p.seqs n = some q → q.state = .receiving →
      (blockFits p.image.md (m.drop 16) = true →
        deliver s k m = setSeq (spoilCache s pt) pt n { q with blocks := q.blocks ++ [m.drop 16] }) ∧
      (blockFits p.image.md (m.drop 16) = false → deliver s k m = discardSeq (abandonFlow s k 0x21) pt n)) ∧
    (∀ t b tag, rdB m 0 = 0x10 → shardQueryOk m = true → f.use = .shardIn 0 → shardServed s f.peer m = some (t, b) →
      tagFree s t = some tag → rdLe m 20 2 ≤ ixNlist b → nbit (rdB m 19) 0 = false → noService s = false →
      ∃ s1 j, deliver s k m = s1 ∧ look s1.searches tag = some j ∧ j.q.k = rdLe m 24 4 ∧ j.q.query = m.drop 160 ∧
        (∃ r, look s1.requests tag = some r ∧ r.tenant = t ∧ r.source = .peer k)) ∧
    (∀ tag num j es, rdB m 0 = 0x11 → f.use = .shardOut tag num → look s.searches tag = some j →
      rdLe m 8 8 = (if j.widened then 1 else 0) → shardResult m (if j.widened then wideK j.q else j.q.k) = some es →
      deliver s k m = shardGives s tag num (some es) none) ∧
    (∀ slot gen im, rdB m 0 = 0x20 → weightReqOk m = true → f.use = .serve slot gen → gen = (troyOf s slot).gen →
      (troyOf s slot).image = some im → rdB m 16 = slot → rdLe m 24 8 + rdLe m 32 4 ≤ tyLen im.md →
      let ps := servedParts im (rdLe m 24 8) (rdLe m 32 4)
      let s1 := partsRead s (servedTenant s k) ps
      ps.all (fun p => rangeLive s1 p.1 p.2 && (memPoison s1 p.1 p.2).isNone) = true →
      deliver s k m = sendMessage s1 k (message 0x21 (rdLe m 8 8)
        (leBytes 8 (rdLe m 24 8) ++ leBytes 8 0 ++ slice (imageBytes s1 im) (rdLe m 24 8) (rdLe m 32 4)))) ∧
    (∀ n ld, rdB m 0 = 0x21 → f.use = .load n → (troyOf s n).load = some ld → ld.flow = some k → ld.pieces ≠ [] →
      deliver s k m = setLoad s n { ld with pieces := ld.pieces ++ [⟨rdLe m 16 8, m.drop 32, .good⟩] }) ∧
    (∀ tag num j, rdB m 0 = 0x30 → f.use = .shardOut tag num → look s.searches tag = some j →
      rdLe m 8 8 = (if j.widened then 1 else 0) → 0x20 ≤ statusOf m →
      deliver s k m = shardGives s tag num none (some (statusOf m)))) ∧
  (∀ (s : State) (mine : Bool) (peer num self : Nat) (f : Flow), alive s = true → isSealedNow s = true →
    let k := flowKey mine peer num
    look s.strand.flows k = some f → f.key = k → pkgNo s = some self →
    (∀ seq x, look f.sent seq = some x → x.sacked = false → upLanes s f.pair ≠ [] → x.timeouts = 0 →
      ∃ t f' lane, exec (.retransmitTimeout mine peer num seq) s = .next t ∧ look t.strand.flows k = some f' ∧
        look f'.sent seq = some { x with timeouts := 1 } ∧ laneState s lane = 2 ∧
        t.outs = s.outs ++ [.strand lane (onLane self f.peer lane (sealFrame (rawFrame self f x.frame seq)))] ∧
        regFld t (fKey f.pair 0xB0040) 0 32 = min (regFld s (fKey f.pair 0xB0040) 0 32 + 1) (2 ^ 32 - 1) ∧
        { t with strand := s.strand, outs := s.outs, regs := s.regs } = s) ∧
    (∀ seq x, look f.sent seq = some x → x.sacked = false → x.timeouts = 1 →
      ∃ t f', exec (.retransmitTimeout mine peer num seq) s = .next t ∧ look t.strand.flows k = some f' ∧
        f'.pair = nextPair s ((f.pair + 1) % 8) ∧ look f'.sent seq = some { x with timeouts := 0 }) ∧
    (f.ackOwed = true → f.accepted = true ∨ f.mine = false → upLanes s f.pair ≠ [] →
      ∃ t f' lane, exec (.ackDelay mine peer num) s = .next t ∧ look t.strand.flows k = some f' ∧ f'.ackOwed = false ∧
        t.outs = s.outs ++ [.strand lane (onLane self f.peer lane (sealFrame (rawFrame self f ⟨5, false, false, []⟩ 0)))] ∧
        { t with strand := s.strand, outs := s.outs } = s) ∧
    (∀ x, f.mine = true → mine = true → f.retry = true → look f.sent 0 = some x → upLanes s f.pair ≠ [] →
      ∃ t f' lane, exec (.openRetry num) s = .next t ∧ look t.strand.flows k = some f' ∧ f'.retry = false ∧
        t.outs = s.outs ++ [.strand lane (onLane self f.peer lane (sealFrame (rawFrame self f x.frame 0)))] ∧
        { t with strand := s.strand, outs := s.outs } = s) ∧
    (s.strand = ⟨[(k, f)], [], [], [], []⟩ → s.requests = [] → f.use = .fresh → f.queue = [] →
      (f.works = true → f.mine = false → upLanes s f.pair ≠ [] →
        ∃ t lane, exec .keepaliveTimer s = .next t ∧
          t.outs = s.outs ++ [.strand lane (onLane self f.peer lane (sealFrame (rawFrame self f ⟨7, false, false, []⟩ 0)))] ∧
          { t with strand := s.strand, outs := s.outs } = s) ∧
      (f.peer < 64 → f.sent ≠ [] →
        ∃ t, exec (.peerLossTimeout f.peer) s = .next t ∧ t.strand = ⟨[], [], [], [], []⟩ ∧
          regFld t (aKey (0xB0200 + 4 * (f.peer / 32))) (f.peer % 32) 1 = 1 ∧ t.mem = s.mem ∧ t.requests = [])))

/-- A waiting gain code takes effect at CHN_RXGAIN_APPLY, is kept in the SPI NOR if it was written with SAVE, and clears
VALID and COUNT of every level entry. A noise measurement is stored; a stale one keeps its value and sets STALE. A
sync miss counts and waits for the 24-bit idle; bus idle gives the footing back and clears BUS_STUCK. A received
character enters the receive FIFO with FE as the stop-bit samples give it, and is discarded and counted inside a
frame, with the FIFO full, or silently when its start bit was noise. A character sent leaves the transmit FIFO, and
one that collides stays at its head and counts. A write adds a character unless the FIFO is full, ABORT empties it,
and a read of the receive register over a port that is up and live returns and removes the head. Bits keyed 16 ticks
each read back as sent from a first dominant bit on; an edge within 2 ticks of a tick 0 becomes tick 0, and any other
moves it by 2 ticks toward the edge. Data bits read back from the offsets that carry them, in both modes.
(20_chain_bus_signal.md R433, 20_chain_bus_signal.md R437, 20_chain_bus_signal.md R441, 20_chain_bus_signal.md R442, 20_chain_bus_signal.md R444, 20_chain_bus_signal.md R445,
20_chain_bus_signal.md R446, 20_chain_bus_signal.md R447, 20_chain_bus_signal.md R449, 20_chain_bus_signal.md R450,
21_chain_bus_messages.md R464.) -/
def Obligations.ChainSignalCommandsComplete : Prop :=
  (∀ s : State, alive s = true →
    (∀ g save, s.chain.gain = some (g, save) → g < 32 →
      ∃ t, exec .chnRxgainApply s = .next t ∧ regFld t (cKey 4) 0 5 = g ∧
        t.chain = { s.chain with gain := none, follows := false } ∧
        (∀ a, a < 128 → bitOf (regGet t (cKey (0x400 + 4 * a))) 31 = false ∧ regFld t (cKey (0x400 + 4 * a)) 0 8 = 0) ∧
        t.nor = (if save then { s.nor with gain := some g } else s.nor) ∧
        t.outs = s.outs ++ (if save then [.nor norWriteCmds norKept.1 norKept.2] else []) ∧
        { t with regs := s.regs, chain := s.chain, nor := s.nor, outs := s.outs } = s) ∧
    (∀ n, exec (.noiseMeasurement n) s = .next (regSet s (cKey 8) (n.setWidth 32))) ∧
    (∃ t, exec .noiseStale s = .next t ∧ bitOf (regGet t (cKey 8)) 31 = true ∧ regFld t (cKey 8) 0 8 = regFld s (cKey 8) 0 8 ∧
      { t with regs := s.regs } = s) ∧
    (s.chain.lost = false →
      ∃ t, exec .syncMiss s = .next t ∧ regFld t (cKey 0xC) 16 16 = min (regFld s (cKey 0xC) 16 16 + 1) (2 ^ 16 - 1) ∧
        t.chain = { s.chain with follows := false, lost := true, idle := false } ∧ { t with regs := s.regs, chain := s.chain } = s) ∧
    (∃ t, exec .busIdle s = .next t ∧ bitOf (regGet t (cKey 0x24)) 30 = false ∧
      t.chain = { s.chain with follows := true, lost := false, idle := true } ∧
      (∀ k, k ≠ cKey 0x24 → regGet t k = regGet s k) ∧ { t with regs := s.regs, chain := s.chain } = s) ∧
    (∀ b, s.chain.tx.length < 64 →
      exec (.chnCharTxData b) s = .next { s with chain := { s.chain with tx := s.chain.tx ++ [b] } }) ∧
    (∀ b, 64 ≤ s.chain.tx.length → exec (.chnCharTxData b) s = .next s) ∧
    exec .chnCharTxAbort s = .next { s with chain := { s.chain with tx := [] } } ∧
    (∀ port, port < 2 → (portOf s port).up = true → hostLive s (portFacet port) = true →
      exec (.chnCharRxRead port) s = .next { s with
        chain := { s.chain with rx := s.chain.rx.drop 1 },
        outs := s.outs ++ [.regValue ⟨port, 0⟩ 0 (fKey (activeFacet s) 0xD0014) (charHead s)] }) ∧
    (s.chain.rx = [] → charHead s = 0#32) ∧
    (∀ fe b r, s.chain.rx = (fe, b) :: r →
      bitOf (charHead s) 31 = true ∧ bitOf (charHead s) 8 = fe ∧ fld (charHead s) 0 8 = b.toNat)) ∧
  (∀ (s : State) (c : CharSeen), alive s = true → charOn s = true →
    ∃ t, exec (.characterReceived c) s = .next t ∧ t.chain.idle = false ∧ { t with regs := s.regs, chain := s.chain } = s ∧
      (startZero c = false → t.chain.rx = s.chain.rx ∧ t.regs = s.regs) ∧
      (startZero c = true → c.inFrame = true →
        t.chain.rx = s.chain.rx ∧ regFld t (cKey 0x1C) 0 8 = min (regFld s (cKey 0x1C) 0 8 + 1) (2 ^ 8 - 1)) ∧
      (startZero c = true → c.inFrame = false → 64 ≤ s.chain.rx.length →
        t.chain.rx = s.chain.rx ∧ regFld t (cKey 0x1C) 8 8 = min (regFld s (cKey 0x1C) 8 8 + 1) (2 ^ 8 - 1)) ∧
      (startZero c = true → c.inFrame = false → s.chain.rx.length < 64 →
        t.chain.rx = s.chain.rx ++ [(stopFails c, charData c)] ∧
        regFld t (cKey 0x1C) 24 8 =
          if stopFails c then min (regFld s (cKey 0x1C) 24 8 + 1) (2 ^ 8 - 1) else regFld s (cKey 0x1C) 24 8)) ∧
  (∀ (c : CharSeen) (k : Nat), charOnset c = some k →
    (k < 8 → stopFails c = true) ∧ (8 ≤ k → k ≤ 9 → stopFails c = !(stopOne c 7 && stopOne c 8)) ∧
    (10 ≤ k → stopFails c = !(stopOne c 7 && stopOne c 8 && stopOne c 9))) ∧
  (∀ c : CharSeen, charOnset c = none → stopFails c = !(stopOne c 7 && stopOne c 8 && stopOne c 9)) ∧
  (∀ (s : State) (b : Byte) (rest : List Byte), alive s = true → charOn s = true → s.chain.idle = true →
    s.chain.sending = none → txCut s = false → s.chain.tx = b :: rest →
    exec (.characterSend false) s = .next { s with
      chain := { s.chain with tx := rest, idle := !rest.isEmpty }, outs := s.outs ++ [.character b] } ∧
    (∃ t, exec (.characterSend true) s = .next t ∧ t.chain = { s.chain with idle := false } ∧
      regFld t (cKey 0x1C) 16 8 = min (regFld s (cKey 0x1C) 16 8 + 1) (2 ^ 8 - 1) ∧
      { t with regs := s.regs, chain := s.chain } = s)) ∧
  (∀ bits, ookBits (ookTicks (false :: bits)) = false :: bits) ∧
  (∀ (r : OokRx), r.started = true → r.carrier = false → r.tick < 16 →
    (r.tick ≤ 2 → (ookTick r true).tick = 1) ∧ (14 ≤ r.tick → (ookTick r true).tick = 1) ∧
    (2 < r.tick → r.tick < 8 → (ookTick r true).tick = r.tick - 1) ∧
    (8 < r.tick → r.tick < 13 → (ookTick r true).tick = r.tick + 3)) ∧
  (∀ bits, readSymbols false (symbols false bits) = some bits) ∧
  (∀ bits, bits.length % 2 = 0 → readSymbols true (symbols true bits) = some bits) ∧
  (∀ b : Bool, symbols false [b] = [if b then 250 else -250]) ∧
  symbols true [false, true, false, false, true, false, true, true] = [375, 125, -125, -375]

/-- The frame offered has the lowest identifier of those pending. An attempt puts it under way, and each after its first
counts. An attempt that loses arbitration counts and leaves its frame pending; one that is acknowledged sends the
frame and ends it; one that is not acknowledged sends the frame and leaves it pending, and the sixteenth in a row
sends CHAIN_TX_STALL once. A cut transmitter keeps its pending frames; CLEAR_CUT ends the cut. Foreign carrier sets
BUS_STUCK once. GO refuses the frame in the cases of the rule and otherwise makes it pending with no tries; WITHDRAW
removes a pending frame at once and marks one that is being sent. (21_chain_bus_messages.md R456,
21_chain_bus_messages.md R457, 21_chain_bus_messages.md R459, 21_chain_bus_messages.md R460, 21_chain_bus_messages.md
R461, 21_chain_bus_messages.md R462, 21_chain_bus_messages.md R463, 21_chain_bus_messages.md R464,
21_chain_bus_messages.md R472.) -/
def Obligations.ChainSendingCommandsComplete : Prop :=
  (∀ (s : State) (p : ChainPending), bestPending s = some p →
    p ∈ s.chain.queue ∧ offered s p.use = true ∧
    ∀ q, q ∈ s.chain.queue → offered s q.use = true → identOf s p.use ≤ identOf s q.use) ∧
  (∀ (s : State) (p : ChainPending), alive s = true → s.chain.sending = none → s.chain.follows = true → txCut s = false →
    bestPending s = some p →
    ∃ t, exec (.chainTxAttempt .start) s = .next t ∧
      t.chain = { s.chain with
        queue := s.chain.queue.map (fun q => if q.use = p.use then { p with tries := p.tries + 1 } else q),
        sending := some p.use, idle := false } ∧
      regFld t (cKey 0x38) 16 16 =
        (if p.tries = 0 then regFld s (cKey 0x38) 16 16 else min (regFld s (cKey 0x38) 16 16 + 1) (2 ^ 16 - 1)) ∧
      (∀ b, p.use = .owner b → regFld t (txbKey b) 8 4 = 2 ∧
        regGet t (txbKey b + 4) = BitVec.ofNat 32 (min (p.tries + 1) 0xFFFFFFFF)) ∧
      { t with regs := s.regs, chain := s.chain } = s) ∧
  (∀ (s : State) (u : ChainUse) (p : ChainPending), alive s = true → s.chain.sending = some u →
    s.chain.queue.find? (fun q => q.use == u) = some p →
    (∀ heard slot, p.drop = false → lostArb (pendingHead s u) (ookBits heard) = true →
      ∃ t, exec (.chainTxAttempt (.run heard slot)) s = .next t ∧
        t.chain = { s.chain with queue := s.chain.queue.map (fun q => if q.use = u then { p with unacked := 0 } else q), sending := none } ∧
        regFld t (cKey 0x38) 0 16 = min (regFld s (cKey 0x38) 0 16 + 1) (2 ^ 16 - 1) ∧
        { t with regs := s.regs, chain := s.chain } = s) ∧
    (∀ heard slot, lostArb (pendingHead s u) (ookBits heard) = false → bitAt slot 0 = false →
      ∃ t, exec (.chainTxAttempt (.run heard slot)) s = .next t ∧
      t.outs = s.outs ++ [wireFrame s u] ∧
      t.chain = { s.chain with queue := s.chain.queue.filter (fun q => q.use != u), sending := none,
                               claimWait := s.chain.claimWait || u == .claim } ∧
      (∀ b, u = .owner b → regFld t (txbKey b) 8 4 = 3) ∧ { t with regs := s.regs, chain := s.chain, outs := s.outs } = s) ∧
    (∀ heard slot, lostArb (pendingHead s u) (ookBits heard) = false → bitAt slot 0 = true →
      p.drop = false → p.stalled = true ∨ p.unacked < 15 →
      ∃ t, exec (.chainTxAttempt (.run heard slot)) s = .next t ∧
        t.outs = s.outs ++ [wireFrame s u] ∧
        t.chain = { s.chain with
          queue := s.chain.queue.map (fun q => if q.use = u then { p with unacked := p.unacked + 1 } else q), sending := none } ∧
        (∀ b, u = .owner b → regFld t (txbKey b) 8 4 = 1) ∧ { t with regs := s.regs, chain := s.chain, outs := s.outs } = s) ∧
    (∀ heard slot, lostArb (pendingHead s u) (ookBits heard) = false → bitAt slot 0 = true →
      p.drop = false → p.stalled = false → 15 ≤ p.unacked →
      ∃ t, exec (.chainTxAttempt (.run heard slot)) s = .next t ∧
        t.chain = { s.chain with
          queue := s.chain.queue.map (fun q => if q.use = u then { p with unacked := p.unacked + 1, stalled := true } else q),
          sending := none } ∧
        t.rings = (chainEvent (setChain (sendFrame s u) { s.chain with sending := none }) .chainTxStall (identOf s u)).rings ∧
        ({ t with regs := s.regs, chain := s.chain } : State).sansEvents = s.sansEvents)) ∧
  (∀ s : State, alive s = true →
    (txCut s = false → s.chain.sending = none →
      ∃ t, exec .chainTxCut s = .next t ∧ txCut t = true ∧ t.chain = s.chain ∧
        t.rings = (chainEvent (regSetFld s (cKey 0x24) 31 1 1) .chainTxCut 0).rings ∧
        ({ t with regs := s.regs } : State).sansEvents = s.sansEvents) ∧
    (∀ u p, txCut s = false → s.chain.sending = some u → s.chain.queue.find? (fun q => q.use == u) = some p → p.drop = false →
      ∃ t, exec .chainTxCut s = .next t ∧ txCut t = true ∧ t.chain = { s.chain with
        queue := s.chain.queue.map (fun q => if q.use = u then { p with unacked := 0 } else q), sending := none }) ∧
    (∃ t, exec .clearCut s = .next t ∧ txCut t = false ∧ (∀ k, k ≠ cKey 0x24 → regGet t k = regGet s k) ∧
      { t with regs := s.regs } = s) ∧
    (bitOf (regGet s (cKey 0x24)) 30 = false → s.chain.sending = none →
      ∃ t, exec .chainBusStuck s = .next t ∧ bitOf (regGet t (cKey 0x24)) 30 = true ∧ t.chain = { s.chain with idle := false } ∧
        ({ t with regs := s.regs, chain := s.chain } : State).sansEvents = s.sansEvents) ∧
    (bitOf (regGet s (cKey 0x24)) 30 = true ∨ s.chain.sending.isSome = true → exec .chainBusStuck s = .next s)) ∧
  (∀ (s : State) (buf : Nat) (w : Word), alive s = true → buf < 4 →
    let dest := regFld s (txbKey buf + 0x40) 0 8
    let bad := fld w 24 3 < 4 ∨ fld w 16 6 < 0x20 ∨ lenOk (fld w 0 7) = false ∨ chainAddr s = 0 ∨
      (0x30 ≤ fld w 16 6 ∧ (fld w 0 7 = 0 ∨ dest % 128 = 0 ∨ 128 ≤ dest))
    (bitOf w 30 = false → regFld s (txbKey buf) 8 4 ≠ 1 → regFld s (txbKey buf) 8 4 ≠ 2 →
      (bad → ∃ t, exec (.chnTxbGo buf w) s = .next t ∧ regFld t (txbKey buf) 8 4 = 5 ∧ { t with regs := s.regs } = s) ∧
      (¬ bad → s.chain.queue.any (fun q => q.use == .owner buf) = false →
        ∃ t, exec (.chnTxbGo buf w) s = .next t ∧ regFld t (txbKey buf) 8 4 = 1 ∧ regGet t (txbKey buf + 4) = 0#32 ∧
          t.chain = { s.chain with queue := s.chain.queue ++ [⟨.owner buf, 0, 0, false, false⟩] } ∧
          { t with regs := s.regs, chain := s.chain } = s)) ∧
    (∀ p, bitOf w 31 = false → s.chain.queue.find? (fun q => q.use == .owner buf) = some p →
      (s.chain.sending ≠ some (.owner buf) →
        ∃ t, exec (.chnTxbWithdraw buf w) s = .next t ∧ regFld t (txbKey buf) 8 4 = 4 ∧
          t.chain = { s.chain with queue := s.chain.queue.filter (fun q => q.use != .owner buf) } ∧
          { t with regs := s.regs, chain := s.chain } = s) ∧
      (s.chain.sending = some (.owner buf) →
        ∃ t, exec (.chnTxbWithdraw buf w) s = .next t ∧ regFld t (txbKey buf) 8 4 = regFld s (txbKey buf) 8 4 ∧
          t.chain = { s.chain with queue := s.chain.queue.map (fun q => if q.use = .owner buf then { p with drop := true } else q) } ∧
          { t with regs := s.regs, chain := s.chain } = s)))

/-- A frame that is taken is acknowledged unless the transmitter is cut. An ENUM_START that is taken sets the mode, drops
the address on RESET and makes an unassigned package claim. An ASSIGN of the package serial gives the address; one of
another serial is ignored. A CAP with a good tag, a new counter and a code from 60 to 240 sets the cap; a bad tag, an
old counter, a repeat and a code out of range each count and leave the cap. A DEPART's levels are recorded. An
application frame goes to its buffer with the next SEQ, or counts as unbound. A foreign frame counts, is never
acknowledged, and goes to the foreign buffer when that is enabled. A frame not taken counts its error. ENUM_OUT of an
assigned package follows ENUM_IN, and a claim waits for ENUM_IN in chain mode. (20_chain_bus_signal.md R441,
21_chain_bus_messages.md R452, 21_chain_bus_messages.md R458, 21_chain_bus_messages.md R465, 21_chain_bus_messages.md
R466, 21_chain_bus_messages.md R467, 21_chain_bus_messages.md R468, 21_chain_bus_messages.md R469,
21_chain_bus_messages.md R470, 21_chain_bus_messages.md R473, 21_chain_bus_messages.md R474, 22_rack_and_power.md
R486.) -/
def Obligations.ChainFramesComplete : Prop :=
  (∀ (s : State) (h : FrameHeard) (lv : Level), hears s = true →
    (∀ b : Byte, b.toNat < 4 → readFrame h = some ⟨1, 1, [b], lv⟩ →
      ∃ t, exec (.enumStart h) s = .next t ∧ contention t = b.getLsbD 0 ∧
        chainAddr t = (if b.getLsbD 1 then 0 else chainAddr s) ∧ t.chain.claiming = true ∧ (txCut s = false → Out.chainAck ∈ t.outs) ∧
        (chainAddr t = 0 → (contention t || enumIn t) = true → t.chain.queue.any (fun q => q.use == .claim) = true) ∧
        { t with regs := s.regs, chain := s.chain, outs := s.outs } = s) ∧
    (∀ p : List Byte, readFrame h = some ⟨3, 1, p, lv⟩ → p.length = 12 → rdB p 8 < 128 → zeroAt p 9 3 = true →
      (beNat (slice p 0 8) = s.mfg.serial.toNat → 2 ≤ rdB p 8 →
        ∃ t, exec (.assignFrame h) s = .next t ∧ chainAddr t = rdB p 8 ∧ bitOf (regGet t (cKey 0x20)) 31 = true ∧
          t.chain.claiming = false ∧ ({ t with regs := s.regs, chain := s.chain } : State).sansEvents = s.sansEvents) ∧
      (beNat (slice p 0 8) ≠ s.mfg.serial.toNat →
        ∃ t, exec (.assignFrame h) s = .next t ∧ t.outs = s.outs ++ (if txCut s then [] else [.chainAck]) ∧ chainAddr t = chainAddr s ∧
          t.chain = { s.chain with follows := true, idle := false } ∧
          { t with regs := s.regs, chain := s.chain, outs := s.outs } = s)) ∧
    (∀ p : List Byte, readFrame h = some ⟨4, 1, p, lv⟩ → p.length = 16 → isSealedNow s = true → chainAddr s ≠ 0 → rdB p 0 % 128 = chainAddr s →
      let ctr := beNat (slice p 4 4)
      let code := beNat (slice p 2 2)
      let last := (regGet s (aKey 0xE010C)).toNat
      let good := beNat (slice p 8 8) = (capTag s p).toNat
      let inRange := 60 ≤ code ∧ code ≤ 240 ∧ rdB p 0 < 128 ∧ rdB p 1 = 0
      ∃ t, exec (.capFrame h) s = .next t ∧
        (good → last < ctr → inRange →
          capCode t = code ∧ regFld t capKey 28 2 = 1 ∧ regGet t (aKey 0xE010C) = BitVec.ofNat 32 ctr ∧ t.chain.lastCap = some p) ∧
        (¬ good → capCode t = capCode s ∧ regFld t (aKey 0xE0110) 24 8 = min (regFld s (aKey 0xE0110) 24 8 + 1) (2 ^ 8 - 1)) ∧
        (good → ctr ≤ last → ¬ (ctr = last ∧ s.chain.lastCap = some p) →
          capCode t = capCode s ∧ regFld t (aKey 0xE0110) 16 8 = min (regFld s (aKey 0xE0110) 16 8 + 1) (2 ^ 8 - 1)) ∧
        (good → last < ctr → ¬ inRange →
          capCode t = capCode s ∧ regFld t (aKey 0xE0110) 8 8 = min (regFld s (aKey 0xE0110) 8 8 + 1) (2 ^ 8 - 1) ∧
          regGet t (aKey 0xE010C) = BitVec.ofNat 32 ctr) ∧
        (good → ctr = last → s.chain.lastCap = some p →
          capCode t = capCode s ∧ regFld t (aKey 0xE0110) 0 8 = min (regFld s (aKey 0xE0110) 0 8 + 1) (2 ^ 8 - 1)))) ∧
  (∀ (s : State) (h : FrameHeard) (lv : Level) (src : Nat) (p : List Byte), hears s = true → isSealedNow s = true → chainAddr s ≠ 0 →
    src ≠ 0 → src < 128 → inRoster s src = true → lenOk p.length = true →
    (p.length = 8 → readFrame h = some ⟨5, src, p, lv⟩ →
      ∃ t, exec (.departFrame h) s = .next t ∧ t.outs = s.outs ++ (if txCut s then [] else [.chainAck]) ∧
        t.chain = { s.chain with follows := true, idle := false } ∧
        bitOf (regGet t (cKey (0x400 + 4 * src))) 31 = true ∧ bitOf (regGet t (cKey (0x400 + 4 * src))) 30 = lv.clip ∧
        regFld t (cKey (0x400 + 4 * src)) 16 8 = lv.rssi.toNat ∧ regFld t (cKey (0x400 + 4 * src)) 8 8 = min lv.snr 160 ∧
        regFld t (cKey (0x400 + 4 * src)) 0 8 = min (regFld s (cKey (0x400 + 4 * src)) 0 8 + 1) (2 ^ 8 - 1) ∧
        { t with regs := s.regs, chain := s.chain, outs := s.outs } = s) ∧
    (∀ ty, readFrame h = some ⟨ty, src, p, lv⟩ → 0x20 ≤ ty → ty < 0x40 → (0x30 ≤ ty → p ≠ [] ∧ rdB p 0 % 128 = chainAddr s) →
      (∀ b, boundBuffer s ty = some b →
        ∃ t, exec (.applicationFrame h) s = .next t ∧
          bitOf (regGet t (rxbKey b + 4)) 31 = true ∧
          bitOf (regGet t (rxbKey b + 4)) 30 = (bitOf (regGet s (rxbKey b + 4)) 31 || bitOf (regGet s (rxbKey b + 4)) 30) ∧
          regFld t (rxbKey b + 4) 24 6 = ty ∧ regFld t (rxbKey b + 4) 16 8 = (regFld s (rxbKey b + 4) 16 8 + 1) % 256 ∧
          regFld t (rxbKey b + 4) 8 7 = src ∧ regFld t (rxbKey b + 4) 0 7 = p.length ∧
          payloadAt t (rxbKey b + 0x40) p.length = p ∧
          ({ t with regs := s.regs, chain := s.chain } : State).sansEvents = s.sansEvents) ∧
      (boundBuffer s ty = none →
        ∃ t, exec (.applicationFrame h) s = .next t ∧ t.outs = s.outs ++ (if txCut s then [] else [.chainAck]) ∧
          regFld t (cKey 0x34) 0 8 = min (regFld s (cKey 0x34) 0 8 + 1) (2 ^ 8 - 1) ∧
          { t with regs := s.regs, chain := s.chain, outs := s.outs } = s))) ∧
  (∀ (s : State) (h : FrameHeard) (fr : ChainFrame), hears s = true → readFrame h = some fr → isForeign s fr = true → lenOk fr.payload.length = true →
    fr.src < 128 → fr.typ < 64 →
    ∃ t, exec (.foreignFrame h) s = .next t ∧
      regFld t (cKey 0x30) 0 32 = min (regFld s (cKey 0x30) 0 32 + 1) (2 ^ 32 - 1) ∧
      (bitOf (regGet s (cKey 0x2C)) 0 = false →
        t.outs = s.outs ∧ t.chain = { s.chain with follows := true, idle := false } ∧
        { t with regs := s.regs, chain := s.chain } = s) ∧
      (bitOf (regGet s (cKey 0x2C)) 0 = true →
        bitOf (regGet t (rxbKey 16 + 4)) 31 = true ∧
        regFld t (rxbKey 16 + 4) 16 8 = (regFld s (rxbKey 16 + 4) 16 8 + 1) % 256 ∧ payloadAt t (rxbKey 16 + 0x40) fr.payload.length = fr.payload)) ∧
  (∀ (s : State) (src : Nat) (lv : Level) (why : NotTaken), hears s = true →
    ∃ t, exec (.chainFrameNotTaken src lv why) s = .next t ∧ t.chain = { s.chain with follows := true, idle := false } ∧
      regFld t (cKey 0x34) 16 16 =
        (if why = .crc then min (regFld s (cKey 0x34) 16 16 + 1) (2 ^ 16 - 1) else regFld s (cKey 0x34) 16 16) ∧
      regFld t (cKey 0x34) 8 8 =
        (if why = .form then min (regFld s (cKey 0x34) 8 8 + 1) (2 ^ 8 - 1) else regFld s (cKey 0x34) 8 8) ∧
      { t with regs := s.regs, chain := s.chain } = s) ∧
  (∀ s : State, alive s = true → s.chain.claimWait = true → claims s = true →
    ∃ t, exec .claimResend s = .next t ∧ t.chain.claimWait = false ∧ t.chain.queue.any (fun q => q.use == .claim) = true ∧
      { t with chain := s.chain } = s) ∧
  (∀ (s : State) (v : Bool), alive s = true →
    ∃ t, exec (.enumInChange v) s = .next t ∧ enumIn t = v ∧ chainAddr t = chainAddr s ∧
      bitOf (regGet t (cKey 0x20)) 16 = (decide (chainAddr s ≠ 0) && v) ∧
      (s.chain.claiming = true → chainAddr s = 0 → contention s = false → s.chain.claimWait = false →
        s.chain.sending ≠ some .claim → t.chain.queue.any (fun q => q.use == .claim) = v) ∧
      { t with regs := s.regs, chain := s.chain, outs := s.outs } = s)

/-- A write whose bits [23:16] equal the current SEQ clears NEW if its bit 31 is 1 and OVERWRITE if its bit 30 is 1, and
nothing else; any other write changes nothing. A frame that arrives before the clear makes its SEQ old, so that NEW
stays set. Every frame written to a buffer ends with CHAIN_RX to the owner, naming the buffer and the SEQ. (R475.) -/
def Obligations.ReceiveBufferClearsNeedTheCurrentSeq : Prop :=
  (∀ (s : State) (b : Nat) (w : Word), alive s = true → b ≤ 16 →
    (fld w 16 8 = regFld s (rxbKey b + 4) 16 8 →
      ∃ t, exec (.chnRxbStatusClear b w) s = .next t ∧
        bitOf (regGet t (rxbKey b + 4)) 31 = (bitOf (regGet s (rxbKey b + 4)) 31 && !bitOf w 31) ∧
        bitOf (regGet t (rxbKey b + 4)) 30 = (bitOf (regGet s (rxbKey b + 4)) 30 && !bitOf w 30) ∧
        (∀ i, i < 30 → bitOf (regGet t (rxbKey b + 4)) i = bitOf (regGet s (rxbKey b + 4)) i) ∧
        (∀ k, k ≠ rxbKey b + 4 → regGet t k = regGet s k) ∧ { t with regs := s.regs } = s) ∧
    (fld w 16 8 ≠ regFld s (rxbKey b + 4) 16 8 → exec (.chnRxbStatusClear b w) s = .next s)) ∧
  (∀ (s : State) (b : Nat) (fr : ChainFrame) (w : Word), alive s = true → b ≤ 16 → fr.src < 128 → fr.typ < 64 →
    bitOf (regGet (bufferFrame s b fr) (rxbKey b + 4)) 31 = true ∧
    (fld w 16 8 = regFld s (rxbKey b + 4) 16 8 →
      exec (.chnRxbStatusClear b w) (bufferFrame s b fr) = .next (bufferFrame s b fr)) ∧
    (∃ s1, bufferFrame s b fr = chainEvent s1 .chainRx (b + regFld (bufferFrame s b fr) (rxbKey b + 4) 16 8 * 2 ^ 8) ∧
      s1.sansEvents = (bufferFrame s b fr).sansEvents))

/-- In the reset state device memory, registers, values in force and the request table are in canonical form, no command
waits, and no register of the sealed set is in force with a value other than its reset value. (That memory, registers
and tables have one canonical form is the model's own device, log entry 5.) (23_bring_up_and_hallmark.md R506,
25_register_map.md R540.) -/
def Obligations.ResetIsCanonical : Prop :=
  State.reset.wf = true ∧ State.reset.pending = [] ∧ ∀ k, forceGet State.reset k = resetWord k

/-- From any state whose device memory, registers, values in force and request table are in canonical form, whatever
command stands in front, the next state is in canonical form too, so that equal memories and equal register files are
equal data. The step takes exactly the front command off the queue: no command adds to the queue or reads another.
What manufacture fixed (serial, fuses, bin and least version) is the same after as before. (The canonical form and the
queue are the model's own; that manufacture's values are fixed is the spec's.) (02_package_and_grades.md R40,
08_integrity_chain.md R169, 23_bring_up_and_hallmark.md R506, 25_register_map.md R540.) -/
def Obligations.EveryStepKeepsTheCanonicalForm : Prop :=
  ∀ s t : State, s.wf = true → step s = .next t → t.wf = true ∧ t.pending = s.pending.tail ∧ t.mfg = s.mfg
end

