-- ==== Sys2Proof/Laws/Balls.lean ====
section
/-! SUPPORT. Laws of the ball map (26 R547 to R551): the ball of a coordinate is the one that the tables put there. -/
namespace Sys2Proof.Machine

/-- The block that starts at a facet's origin is that facet's. -/
theorem blockFrom_origin (f : Nat) (hf : f < 8) :
    blockFrom (blockOrigin f) = some f ∧ (blockOrigin f).1 % 32 = 1 ∧ (blockOrigin f).2 % 32 = 1 ∧
      (blockOrigin f).1 ≤ 65 ∧ (blockOrigin f).2 ≤ 65 := by
  match f, hf with
  | 0, _ | 1, _ | 2, _ | 3, _ | 4, _ | 5, _ | 6, _ | 7, _ => decide

/-- Local index i of facet f is the ball at its coordinate (R548, R549). -/
theorem ballAt_facet (f i : Nat) (hf : f < 8) (hi : i < 1024) :
    ballAt (facetCoord f i).1 (facetCoord f i).2 = some (facetBall f i) := by
  obtain ⟨hb, h1, h2, h3, h4⟩ := blockFrom_origin f hf
  have c1 : (facetCoord f i).1 = (blockOrigin f).1 + i % 32 := rfl
  have c2 : (facetCoord f i).2 = (blockOrigin f).2 + i / 32 := rfl
  have e1 : ((facetCoord f i).1 - 1) / 32 * 32 + 1 = (blockOrigin f).1 := by omega
  have e2 : ((facetCoord f i).2 - 1) / 32 * 32 + 1 = (blockOrigin f).2 := by omega
  have ha : blockAt (facetCoord f i).1 (facetCoord f i).2 = some f := by unfold blockAt; rw [e1, e2]; exact hb
  unfold ballAt
  rw [if_neg (by omega), ha]
  have : ((facetCoord f i).2 - (blockOrigin f).2) * 32 + ((facetCoord f i).1 - (blockOrigin f).1) = i := by omega
  simp only [this]

/-- Central index j is the ball at its coordinate (R551). -/
theorem ballAt_central (j : Nat) (hj : j < 256) : ballAt (centralCoord j).1 (centralCoord j).2 = some (centralBall j) := by
  have c1 : (centralCoord j).1 = 41 + j % 16 := rfl
  have c2 : (centralCoord j).2 = 41 + j / 16 := rfl
  have e1 : ((centralCoord j).1 - 1) / 32 * 32 + 1 = 33 := by omega
  have e2 : ((centralCoord j).2 - 1) / 32 * 32 + 1 = 33 := by omega
  have ha : blockAt (centralCoord j).1 (centralCoord j).2 = none := by unfold blockAt; rw [e1, e2]; decide
  unfold ballAt
  rw [if_neg (by omega), ha]
  simp only []
  rw [if_pos (by omega)]
  have : ((centralCoord j).2 - 41) * 16 + ((centralCoord j).1 - 41) = j := by omega
  rw [this]

end Sys2Proof.Machine
end

