-- ==== Sys2Proof/Laws/Bits.lean ====
section
/-! SUPPORT. Bits: what a field reads after a field is written, and little-endian byte strings read back. -/
namespace Sys2Proof.Machine

theorem fld_testBit {k : Nat} (w : BitVec k) (lo n i : Nat) :
    (fld w lo n).testBit i = (decide (i < n) && w.getLsbD (lo + i)) := by
  simp only [fld, Nat.testBit_mod_two_pow, Nat.testBit_div_two_pow, BitVec.getLsbD]
  rw [Nat.add_comm]

theorem nat_mul_testBit (v n lo j : Nat) :
    (v % 2 ^ n * 2 ^ lo).testBit j = (decide (lo ≤ j) && decide (j < lo + n) && v.testBit (j - lo)) := by
  rw [Nat.testBit_mul_two_pow, Nat.testBit_mod_two_pow]
  by_cases h : lo ≤ j
  · have : decide (j - lo < n) = decide (j < lo + n) := by simp; omega
    simp [h, this]
  · simp [h]

theorem maskW_getLsbD (lo n j : Nat) (hj : j < 32) : (maskW lo n).getLsbD j = (decide (lo ≤ j) && decide (j < lo + n)) := by
  simp only [maskW, BitVec.getLsbD_ofNat, hj, decide_true, Bool.true_and]
  rw [Nat.testBit_mul_two_pow, Nat.testBit_two_pow_sub_one]
  by_cases h : lo ≤ j
  · have : decide (j - lo < n) = decide (j < lo + n) := by simp; omega
    simp [h, this]
  · simp [h]

/-- Each bit of a word after one field of it is written. -/
theorem setFld_getLsbD (w : Word) (lo n v j : Nat) (hj : j < 32) :
    (setFld w lo n v).getLsbD j = if lo ≤ j ∧ j < lo + n then v.testBit (j - lo) else w.getLsbD j := by
  simp only [setFld, BitVec.getLsbD_or, BitVec.getLsbD_and, BitVec.getLsbD_not, hj, decide_true, Bool.true_and,
    maskW_getLsbD lo n j hj, BitVec.getLsbD_ofNat, nat_mul_testBit]
  by_cases h1 : lo ≤ j <;> by_cases h2 : j < lo + n <;> simp [h1, h2]

/-- A field reads what was last written to it, cut to its width. -/
theorem fld_setFld_same (w : Word) (lo n v : Nat) (h : lo + n ≤ 32) : fld (setFld w lo n v) lo n = v % 2 ^ n := by
  apply Nat.eq_of_testBit_eq
  intro i
  rw [fld_testBit, Nat.testBit_mod_two_pow]
  by_cases hi : i < n
  · rw [setFld_getLsbD _ _ _ _ _ (by omega)]
    have : lo ≤ lo + i ∧ lo + i < lo + n := by omega
    simp [hi, this]
  · simp [hi]

/-- Writing one field leaves a field that does not overlap it. -/
theorem fld_setFld_ne (w : Word) (lo n v lo' n' : Nat) (h : lo' + n' ≤ lo ∨ lo + n ≤ lo') :
    fld (setFld w lo n v) lo' n' = fld w lo' n' := by
  apply Nat.eq_of_testBit_eq
  intro i
  rw [fld_testBit, fld_testBit]
  by_cases hi : i < n'
  · by_cases hj : lo' + i < 32
    · rw [setFld_getLsbD _ _ _ _ _ hj]
      have : ¬ (lo ≤ lo' + i ∧ lo' + i < lo + n) := by omega
      simp [hi, this]
    · rw [BitVec.getLsbD_of_ge _ _ (by omega), BitVec.getLsbD_of_ge _ _ (by omega)]
  · simp [hi]

theorem fld_lt {k : Nat} (w : BitVec k) (lo n : Nat) : fld w lo n < 2 ^ n := Nat.mod_lt _ (by positivity)

/-- A saturating count of `n` bits after it is raised. -/
theorem fld_bumpFld (w : Word) (lo n k : Nat) (h : lo + n ≤ 32) :
    fld (bumpFld w lo n k) lo n = min (fld w lo n + k) (2 ^ n - 1) := by
  unfold bumpFld satAdd
  rw [fld_setFld_same _ _ _ _ h]
  exact Nat.mod_eq_of_lt (by have : 0 < 2 ^ n := by positivity
                             omega)

/-- A peak of `n` bits after a value is offered to it. -/
theorem fld_peakFld (w : Word) (lo n v : Nat) (h : lo + n ≤ 32) :
    fld (peakFld w lo n v) lo n = min (max (fld w lo n) v) (2 ^ n - 1) := by
  unfold peakFld
  rw [fld_setFld_same _ _ _ _ h]
  exact Nat.mod_eq_of_lt (by have : 0 < 2 ^ n := by positivity
                             omega)

theorem setBit_getLsbD {k : Nat} (w : BitVec k) (i j : Nat) (b : Bool) (hj : j < k) :
    (setBit w i b).getLsbD j = if j = i then b else w.getLsbD j := by
  unfold setBit
  cases b
  · simp only [Bool.false_eq_true, if_false, BitVec.getLsbD_and, BitVec.getLsbD_not, hj, decide_true, Bool.true_and,
      BitVec.getLsbD_ofNat, Nat.testBit_two_pow]
    by_cases h : i = j
    · simp [h]
    · have : ¬ j = i := fun e => h e.symm
      simp [h, this]
  · simp only [if_true, BitVec.getLsbD_or, hj, decide_true, Bool.true_and,
      BitVec.getLsbD_ofNat, Nat.testBit_two_pow]
    by_cases h : i = j
    · simp [h]
    · have : ¬ j = i := fun e => h e.symm
      simp [h, this]

@[simp] theorem bitOf_setBit_same {k : Nat} (w : BitVec k) (i : Nat) (b : Bool) (h : i < k) : bitOf (setBit w i b) i = b := by
  simp [bitOf, setBit_getLsbD w i i b h]

theorem leBytes_length (n v : Nat) : (leBytes n v).length = n := by
  induction n generalizing v with
  | zero => rfl
  | succ n ih => simp [leBytes, ih]

/-- A number laid out in `n` little-endian bytes reads back, cut to `n` bytes. -/
theorem leNat_leBytes (n v : Nat) : leNat (leBytes n v) = v % 256 ^ n := by
  induction n generalizing v with
  | zero => simp [leBytes, leNat, Nat.mod_one]
  | succ n ih =>
    have h : v % (256 * 256 ^ n) = v % 256 + 256 * (v / 256 % 256 ^ n) := Nat.mod_mul
    simp only [leBytes, leNat, ih, BitVec.toNat_ofNat, Nat.pow_succ', h]

theorem mem_upto (n i : Nat) : i ∈ upto n ↔ i < n := by
  have h : ∀ m lo, i ∈ rangeFrom lo m ↔ lo ≤ i ∧ i < lo + m := by
    intro m
    induction m with
    | zero => intro lo; simp only [rangeFrom, List.not_mem_nil, false_iff]; omega
    | succ m ih => intro lo; simp only [rangeFrom, List.mem_cons, ih]; omega
  simpa [upto] using h n 0

end Sys2Proof.Machine
end

