-- ==== Sys2Proof/Laws/Crc.lean ====
section
/-! SUPPORT. Crc: CRC-32C as arithmetic on numbers, in pieces. -/
namespace Sys2Proof.Machine

/-- One bit of the reflected register as a number. -/
def crcNatBit (c : Nat) : Nat := if c % 2 = 1 then c / 2 ^^^ 0x82F63B78 else c / 2

/-- One byte of the reflected register as a number. -/
def crcNatByte (c : Nat) (b : Byte) : Nat :=
  crcNatBit (crcNatBit (crcNatBit (crcNatBit (crcNatBit (crcNatBit (crcNatBit (crcNatBit (c ^^^ b.toNat))))))))

/-- The register after a byte string. -/
def crcFrom (c : Nat) (l : List Byte) : Nat := l.foldl crcNatByte c

theorem crcFrom_append (c : Nat) (a b : List Byte) : crcFrom c (a ++ b) = crcFrom (crcFrom c a) b := List.foldl_append

theorem crcBit32_toNat (c : BitVec 32) : (crcBit32 c).toNat = crcNatBit c.toNat := by
  have h : c.getLsbD 0 = decide (c.toNat % 2 = 1) := by
    rw [BitVec.getLsbD, Nat.testBit_zero]
  unfold crcBit32 crcNatBit
  rw [h]
  by_cases hc : c.toNat % 2 = 1
  · rw [if_pos (decide_eq_true hc), if_pos hc, BitVec.toNat_xor, BitVec.toNat_ushiftRight, Nat.shiftRight_eq_div_pow]; rfl
  · rw [if_neg (fun e => hc (of_decide_eq_true e)), if_neg hc, BitVec.toNat_ushiftRight, Nat.shiftRight_eq_div_pow]

theorem crc32cByte_toNat (c : BitVec 32) (b : Byte) : (crc32cByte c b).toNat = crcNatByte c.toNat b := by
  have hb : (BitVec.setWidth 32 b).toNat = b.toNat := by
    rw [BitVec.toNat_setWidth]; exact Nat.mod_eq_of_lt (by have := b.isLt; omega)
  simp only [crc32cByte, crcBits32, crcNatByte, crcBit32_toNat, BitVec.toNat_xor, hb]

/-- CRC-32C of a byte string, by the register as a number. -/
theorem crc32c_toNat (l : List Byte) : (crc32c l).toNat = crcFrom 0xFFFFFFFF l ^^^ 0xFFFFFFFF := by
  have h : ∀ (c : BitVec 32), (l.foldl crc32cByte c).toNat = crcFrom c.toNat l := by
    induction l with
    | nil => intro c; rfl
    | cons b l ih => intro c; rw [List.foldl_cons, ih, crc32cByte_toNat]; rfl
  rw [crc32c, BitVec.toNat_xor, h]; rfl

end Sys2Proof.Machine
end

