-- ==== Sys2Proof/Laws/State.lean ====
section
/-! SUPPORT. State: each named update of one field leaves every other field, and the updated field holds the update. -/
namespace Sys2Proof.Machine

@[simp] theorem regSet_pending (s : State) (k : Nat) (w : Word) : (regSet s k w).pending = s.pending := rfl
@[simp] theorem regSet_mfg (s : State) (k : Nat) (w : Word) : (regSet s k w).mfg = s.mfg := rfl
@[simp] theorem regSet_supply (s : State) (k : Nat) (w : Word) : (regSet s k w).supply = s.supply := rfl
@[simp] theorem regSet_nor (s : State) (k : Nat) (w : Word) : (regSet s k w).nor = s.nor := rfl
@[simp] theorem regSet_assay (s : State) (k : Nat) (w : Word) : (regSet s k w).assay = s.assay := rfl
@[simp] theorem regSet_hmk (s : State) (k : Nat) (w : Word) : (regSet s k w).hmk = s.hmk := rfl
@[simp] theorem regSet_force (s : State) (k : Nat) (w : Word) : (regSet s k w).force = s.force := rfl
@[simp] theorem regSet_xign (s : State) (k : Nat) (w : Word) : (regSet s k w).xign = s.xign := rfl
@[simp] theorem regSet_clk (s : State) (k : Nat) (w : Word) : (regSet s k w).clk = s.clk := rfl
@[simp] theorem regSet_fabric (s : State) (k : Nat) (w : Word) : (regSet s k w).fabric = s.fabric := rfl
@[simp] theorem regSet_coh (s : State) (k : Nat) (w : Word) : (regSet s k w).coh = s.coh := rfl
@[simp] theorem regSet_mem (s : State) (k : Nat) (w : Word) : (regSet s k w).mem = s.mem := rfl
@[simp] theorem regSet_flash (s : State) (k : Nat) (w : Word) : (regSet s k w).flash = s.flash := rfl
@[simp] theorem regSet_ports (s : State) (k : Nat) (w : Word) : (regSet s k w).ports = s.ports := rfl
@[simp] theorem regSet_atc (s : State) (k : Nat) (w : Word) : (regSet s k w).atc = s.atc := rfl
@[simp] theorem regSet_funcs (s : State) (k : Nat) (w : Word) : (regSet s k w).funcs = s.funcs := rfl
@[simp] theorem regSet_rings (s : State) (k : Nat) (w : Word) : (regSet s k w).rings = s.rings := rfl
@[simp] theorem regSet_requests (s : State) (k : Nat) (w : Word) : (regSet s k w).requests = s.requests := rfl
@[simp] theorem regSet_parked (s : State) (k : Nat) (w : Word) : (regSet s k w).parked = s.parked := rfl
@[simp] theorem regSet_clear (s : State) (k : Nat) (w : Word) : (regSet s k w).clear = s.clear := rfl
@[simp] theorem regSet_outs (s : State) (k : Nat) (w : Word) : (regSet s k w).outs = s.outs := rfl
@[simp] theorem regSet_freeCount (s : State) (k : Nat) (w : Word) : (regSet s k w).freeCount = s.freeCount := rfl
@[simp] theorem regSet_power (s : State) (k : Nat) (w : Word) : (regSet s k w).power = s.power := rfl
@[simp] theorem regSet_voc (s : State) (k : Nat) (w : Word) : (regSet s k w).voc = s.voc := rfl
@[simp] theorem regSet_grm (s : State) (k : Nat) (w : Word) : (regSet s k w).grm = s.grm := rfl
@[simp] theorem regSet_tokLd (s : State) (k : Nat) (w : Word) : (regSet s k w).tokLd = s.tokLd := rfl
@[simp] theorem regSet_tokUnld (s : State) (k : Nat) (w : Word) : (regSet s k w).tokUnld = s.tokUnld := rfl
@[simp] theorem regSet_gathers (s : State) (k : Nat) (w : Word) : (regSet s k w).gathers = s.gathers := rfl
@[simp] theorem regSet_selects (s : State) (k : Nat) (w : Word) : (regSet s k w).selects = s.selects := rfl
@[simp] theorem regSet_idx (s : State) (k : Nat) (w : Word) : (regSet s k w).idx = s.idx := rfl
@[simp] theorem regSet_srchLd (s : State) (k : Nat) (w : Word) : (regSet s k w).srchLd = s.srchLd := rfl
@[simp] theorem regSet_srchUnld (s : State) (k : Nat) (w : Word) : (regSet s k w).srchUnld = s.srchUnld := rfl
@[simp] theorem regSet_searches (s : State) (k : Nat) (w : Word) : (regSet s k w).searches = s.searches := rfl
@[simp] theorem regSet_plan (s : State) (k : Nat) (w : Word) : (regSet s k w).plan = s.plan := rfl
@[simp] theorem regSet_strand (s : State) (k : Nat) (w : Word) : (regSet s k w).strand = s.strand := rfl
@[simp] theorem regSet_troy (s : State) (k : Nat) (w : Word) : (regSet s k w).troy = s.troy := rfl
@[simp] theorem regSet_tpl (s : State) (k : Nat) (w : Word) : (regSet s k w).tpl = s.tpl := rfl
@[simp] theorem regSet_tplUnld (s : State) (k : Nat) (w : Word) : (regSet s k w).tplUnld = s.tplUnld := rfl
@[simp] theorem regSet_mtx (s : State) (k : Nat) (w : Word) : (regSet s k w).mtx = s.mtx := rfl
@[simp] theorem regSet_prefills (s : State) (k : Nat) (w : Word) : (regSet s k w).prefills = s.prefills := rfl
@[simp] theorem regSet_pools (s : State) (k : Nat) (w : Word) : (regSet s k w).pools = s.pools := rfl
@[simp] theorem regSet_mtxCleared (s : State) (k : Nat) (w : Word) : (regSet s k w).mtxCleared = s.mtxCleared := rfl
@[simp] theorem regSet_chain (s : State) (k : Nat) (w : Word) : (regSet s k w).chain = s.chain := rfl

@[simp] theorem regSetFld_pending (s : State) (k lo n v : Nat) : (regSetFld s k lo n v).pending = s.pending := rfl
@[simp] theorem regSetFld_mfg (s : State) (k lo n v : Nat) : (regSetFld s k lo n v).mfg = s.mfg := rfl
@[simp] theorem regSetFld_supply (s : State) (k lo n v : Nat) : (regSetFld s k lo n v).supply = s.supply := rfl
@[simp] theorem regSetFld_nor (s : State) (k lo n v : Nat) : (regSetFld s k lo n v).nor = s.nor := rfl
@[simp] theorem regSetFld_assay (s : State) (k lo n v : Nat) : (regSetFld s k lo n v).assay = s.assay := rfl
@[simp] theorem regSetFld_hmk (s : State) (k lo n v : Nat) : (regSetFld s k lo n v).hmk = s.hmk := rfl
@[simp] theorem regSetFld_force (s : State) (k lo n v : Nat) : (regSetFld s k lo n v).force = s.force := rfl
@[simp] theorem regSetFld_xign (s : State) (k lo n v : Nat) : (regSetFld s k lo n v).xign = s.xign := rfl
@[simp] theorem regSetFld_clk (s : State) (k lo n v : Nat) : (regSetFld s k lo n v).clk = s.clk := rfl
@[simp] theorem regSetFld_fabric (s : State) (k lo n v : Nat) : (regSetFld s k lo n v).fabric = s.fabric := rfl
@[simp] theorem regSetFld_coh (s : State) (k lo n v : Nat) : (regSetFld s k lo n v).coh = s.coh := rfl
@[simp] theorem regSetFld_mem (s : State) (k lo n v : Nat) : (regSetFld s k lo n v).mem = s.mem := rfl
@[simp] theorem regSetFld_flash (s : State) (k lo n v : Nat) : (regSetFld s k lo n v).flash = s.flash := rfl
@[simp] theorem regSetFld_ports (s : State) (k lo n v : Nat) : (regSetFld s k lo n v).ports = s.ports := rfl
@[simp] theorem regSetFld_atc (s : State) (k lo n v : Nat) : (regSetFld s k lo n v).atc = s.atc := rfl
@[simp] theorem regSetFld_funcs (s : State) (k lo n v : Nat) : (regSetFld s k lo n v).funcs = s.funcs := rfl
@[simp] theorem regSetFld_rings (s : State) (k lo n v : Nat) : (regSetFld s k lo n v).rings = s.rings := rfl
@[simp] theorem regSetFld_requests (s : State) (k lo n v : Nat) : (regSetFld s k lo n v).requests = s.requests := rfl
@[simp] theorem regSetFld_parked (s : State) (k lo n v : Nat) : (regSetFld s k lo n v).parked = s.parked := rfl
@[simp] theorem regSetFld_clear (s : State) (k lo n v : Nat) : (regSetFld s k lo n v).clear = s.clear := rfl
@[simp] theorem regSetFld_outs (s : State) (k lo n v : Nat) : (regSetFld s k lo n v).outs = s.outs := rfl
@[simp] theorem regSetFld_freeCount (s : State) (k lo n v : Nat) : (regSetFld s k lo n v).freeCount = s.freeCount := rfl
@[simp] theorem regSetFld_power (s : State) (k lo n v : Nat) : (regSetFld s k lo n v).power = s.power := rfl
@[simp] theorem regSetFld_voc (s : State) (k lo n v : Nat) : (regSetFld s k lo n v).voc = s.voc := rfl
@[simp] theorem regSetFld_grm (s : State) (k lo n v : Nat) : (regSetFld s k lo n v).grm = s.grm := rfl
@[simp] theorem regSetFld_tokLd (s : State) (k lo n v : Nat) : (regSetFld s k lo n v).tokLd = s.tokLd := rfl
@[simp] theorem regSetFld_tokUnld (s : State) (k lo n v : Nat) : (regSetFld s k lo n v).tokUnld = s.tokUnld := rfl
@[simp] theorem regSetFld_gathers (s : State) (k lo n v : Nat) : (regSetFld s k lo n v).gathers = s.gathers := rfl
@[simp] theorem regSetFld_selects (s : State) (k lo n v : Nat) : (regSetFld s k lo n v).selects = s.selects := rfl
@[simp] theorem regSetFld_idx (s : State) (k lo n v : Nat) : (regSetFld s k lo n v).idx = s.idx := rfl
@[simp] theorem regSetFld_srchLd (s : State) (k lo n v : Nat) : (regSetFld s k lo n v).srchLd = s.srchLd := rfl
@[simp] theorem regSetFld_srchUnld (s : State) (k lo n v : Nat) : (regSetFld s k lo n v).srchUnld = s.srchUnld := rfl
@[simp] theorem regSetFld_searches (s : State) (k lo n v : Nat) : (regSetFld s k lo n v).searches = s.searches := rfl
@[simp] theorem regSetFld_plan (s : State) (k lo n v : Nat) : (regSetFld s k lo n v).plan = s.plan := rfl
@[simp] theorem regSetFld_strand (s : State) (k lo n v : Nat) : (regSetFld s k lo n v).strand = s.strand := rfl
@[simp] theorem regSetFld_troy (s : State) (k lo n v : Nat) : (regSetFld s k lo n v).troy = s.troy := rfl
@[simp] theorem regSetFld_tpl (s : State) (k lo n v : Nat) : (regSetFld s k lo n v).tpl = s.tpl := rfl
@[simp] theorem regSetFld_tplUnld (s : State) (k lo n v : Nat) : (regSetFld s k lo n v).tplUnld = s.tplUnld := rfl
@[simp] theorem regSetFld_mtx (s : State) (k lo n v : Nat) : (regSetFld s k lo n v).mtx = s.mtx := rfl
@[simp] theorem regSetFld_prefills (s : State) (k lo n v : Nat) : (regSetFld s k lo n v).prefills = s.prefills := rfl
@[simp] theorem regSetFld_pools (s : State) (k lo n v : Nat) : (regSetFld s k lo n v).pools = s.pools := rfl
@[simp] theorem regSetFld_mtxCleared (s : State) (k lo n v : Nat) : (regSetFld s k lo n v).mtxCleared = s.mtxCleared := rfl
@[simp] theorem regSetFld_chain (s : State) (k lo n v : Nat) : (regSetFld s k lo n v).chain = s.chain := rfl

@[simp] theorem bump_pending (s : State) (k lo n d : Nat) : (bump s k lo n d).pending = s.pending := rfl
@[simp] theorem bump_mfg (s : State) (k lo n d : Nat) : (bump s k lo n d).mfg = s.mfg := rfl
@[simp] theorem bump_supply (s : State) (k lo n d : Nat) : (bump s k lo n d).supply = s.supply := rfl
@[simp] theorem bump_nor (s : State) (k lo n d : Nat) : (bump s k lo n d).nor = s.nor := rfl
@[simp] theorem bump_assay (s : State) (k lo n d : Nat) : (bump s k lo n d).assay = s.assay := rfl
@[simp] theorem bump_hmk (s : State) (k lo n d : Nat) : (bump s k lo n d).hmk = s.hmk := rfl
@[simp] theorem bump_force (s : State) (k lo n d : Nat) : (bump s k lo n d).force = s.force := rfl
@[simp] theorem bump_xign (s : State) (k lo n d : Nat) : (bump s k lo n d).xign = s.xign := rfl
@[simp] theorem bump_clk (s : State) (k lo n d : Nat) : (bump s k lo n d).clk = s.clk := rfl
@[simp] theorem bump_fabric (s : State) (k lo n d : Nat) : (bump s k lo n d).fabric = s.fabric := rfl
@[simp] theorem bump_coh (s : State) (k lo n d : Nat) : (bump s k lo n d).coh = s.coh := rfl
@[simp] theorem bump_mem (s : State) (k lo n d : Nat) : (bump s k lo n d).mem = s.mem := rfl
@[simp] theorem bump_flash (s : State) (k lo n d : Nat) : (bump s k lo n d).flash = s.flash := rfl
@[simp] theorem bump_ports (s : State) (k lo n d : Nat) : (bump s k lo n d).ports = s.ports := rfl
@[simp] theorem bump_atc (s : State) (k lo n d : Nat) : (bump s k lo n d).atc = s.atc := rfl
@[simp] theorem bump_funcs (s : State) (k lo n d : Nat) : (bump s k lo n d).funcs = s.funcs := rfl
@[simp] theorem bump_rings (s : State) (k lo n d : Nat) : (bump s k lo n d).rings = s.rings := rfl
@[simp] theorem bump_requests (s : State) (k lo n d : Nat) : (bump s k lo n d).requests = s.requests := rfl
@[simp] theorem bump_parked (s : State) (k lo n d : Nat) : (bump s k lo n d).parked = s.parked := rfl
@[simp] theorem bump_clear (s : State) (k lo n d : Nat) : (bump s k lo n d).clear = s.clear := rfl
@[simp] theorem bump_outs (s : State) (k lo n d : Nat) : (bump s k lo n d).outs = s.outs := rfl
@[simp] theorem bump_freeCount (s : State) (k lo n d : Nat) : (bump s k lo n d).freeCount = s.freeCount := rfl
@[simp] theorem bump_power (s : State) (k lo n d : Nat) : (bump s k lo n d).power = s.power := rfl
@[simp] theorem bump_voc (s : State) (k lo n d : Nat) : (bump s k lo n d).voc = s.voc := rfl
@[simp] theorem bump_grm (s : State) (k lo n d : Nat) : (bump s k lo n d).grm = s.grm := rfl
@[simp] theorem bump_tokLd (s : State) (k lo n d : Nat) : (bump s k lo n d).tokLd = s.tokLd := rfl
@[simp] theorem bump_tokUnld (s : State) (k lo n d : Nat) : (bump s k lo n d).tokUnld = s.tokUnld := rfl
@[simp] theorem bump_gathers (s : State) (k lo n d : Nat) : (bump s k lo n d).gathers = s.gathers := rfl
@[simp] theorem bump_selects (s : State) (k lo n d : Nat) : (bump s k lo n d).selects = s.selects := rfl
@[simp] theorem bump_idx (s : State) (k lo n d : Nat) : (bump s k lo n d).idx = s.idx := rfl
@[simp] theorem bump_srchLd (s : State) (k lo n d : Nat) : (bump s k lo n d).srchLd = s.srchLd := rfl
@[simp] theorem bump_srchUnld (s : State) (k lo n d : Nat) : (bump s k lo n d).srchUnld = s.srchUnld := rfl
@[simp] theorem bump_searches (s : State) (k lo n d : Nat) : (bump s k lo n d).searches = s.searches := rfl
@[simp] theorem bump_plan (s : State) (k lo n d : Nat) : (bump s k lo n d).plan = s.plan := rfl
@[simp] theorem bump_strand (s : State) (k lo n d : Nat) : (bump s k lo n d).strand = s.strand := rfl
@[simp] theorem bump_troy (s : State) (k lo n d : Nat) : (bump s k lo n d).troy = s.troy := rfl
@[simp] theorem bump_tpl (s : State) (k lo n d : Nat) : (bump s k lo n d).tpl = s.tpl := rfl
@[simp] theorem bump_tplUnld (s : State) (k lo n d : Nat) : (bump s k lo n d).tplUnld = s.tplUnld := rfl
@[simp] theorem bump_mtx (s : State) (k lo n d : Nat) : (bump s k lo n d).mtx = s.mtx := rfl
@[simp] theorem bump_prefills (s : State) (k lo n d : Nat) : (bump s k lo n d).prefills = s.prefills := rfl
@[simp] theorem bump_pools (s : State) (k lo n d : Nat) : (bump s k lo n d).pools = s.pools := rfl
@[simp] theorem bump_mtxCleared (s : State) (k lo n d : Nat) : (bump s k lo n d).mtxCleared = s.mtxCleared := rfl
@[simp] theorem bump_chain (s : State) (k lo n d : Nat) : (bump s k lo n d).chain = s.chain := rfl

@[simp] theorem peak_pending (s : State) (k lo n v : Nat) : (peak s k lo n v).pending = s.pending := rfl
@[simp] theorem peak_mfg (s : State) (k lo n v : Nat) : (peak s k lo n v).mfg = s.mfg := rfl
@[simp] theorem peak_supply (s : State) (k lo n v : Nat) : (peak s k lo n v).supply = s.supply := rfl
@[simp] theorem peak_nor (s : State) (k lo n v : Nat) : (peak s k lo n v).nor = s.nor := rfl
@[simp] theorem peak_assay (s : State) (k lo n v : Nat) : (peak s k lo n v).assay = s.assay := rfl
@[simp] theorem peak_hmk (s : State) (k lo n v : Nat) : (peak s k lo n v).hmk = s.hmk := rfl
@[simp] theorem peak_force (s : State) (k lo n v : Nat) : (peak s k lo n v).force = s.force := rfl
@[simp] theorem peak_xign (s : State) (k lo n v : Nat) : (peak s k lo n v).xign = s.xign := rfl
@[simp] theorem peak_clk (s : State) (k lo n v : Nat) : (peak s k lo n v).clk = s.clk := rfl
@[simp] theorem peak_fabric (s : State) (k lo n v : Nat) : (peak s k lo n v).fabric = s.fabric := rfl
@[simp] theorem peak_coh (s : State) (k lo n v : Nat) : (peak s k lo n v).coh = s.coh := rfl
@[simp] theorem peak_mem (s : State) (k lo n v : Nat) : (peak s k lo n v).mem = s.mem := rfl
@[simp] theorem peak_flash (s : State) (k lo n v : Nat) : (peak s k lo n v).flash = s.flash := rfl
@[simp] theorem peak_ports (s : State) (k lo n v : Nat) : (peak s k lo n v).ports = s.ports := rfl
@[simp] theorem peak_atc (s : State) (k lo n v : Nat) : (peak s k lo n v).atc = s.atc := rfl
@[simp] theorem peak_funcs (s : State) (k lo n v : Nat) : (peak s k lo n v).funcs = s.funcs := rfl
@[simp] theorem peak_rings (s : State) (k lo n v : Nat) : (peak s k lo n v).rings = s.rings := rfl
@[simp] theorem peak_requests (s : State) (k lo n v : Nat) : (peak s k lo n v).requests = s.requests := rfl
@[simp] theorem peak_parked (s : State) (k lo n v : Nat) : (peak s k lo n v).parked = s.parked := rfl
@[simp] theorem peak_clear (s : State) (k lo n v : Nat) : (peak s k lo n v).clear = s.clear := rfl
@[simp] theorem peak_outs (s : State) (k lo n v : Nat) : (peak s k lo n v).outs = s.outs := rfl
@[simp] theorem peak_freeCount (s : State) (k lo n v : Nat) : (peak s k lo n v).freeCount = s.freeCount := rfl
@[simp] theorem peak_power (s : State) (k lo n v : Nat) : (peak s k lo n v).power = s.power := rfl
@[simp] theorem peak_voc (s : State) (k lo n v : Nat) : (peak s k lo n v).voc = s.voc := rfl
@[simp] theorem peak_grm (s : State) (k lo n v : Nat) : (peak s k lo n v).grm = s.grm := rfl
@[simp] theorem peak_tokLd (s : State) (k lo n v : Nat) : (peak s k lo n v).tokLd = s.tokLd := rfl
@[simp] theorem peak_tokUnld (s : State) (k lo n v : Nat) : (peak s k lo n v).tokUnld = s.tokUnld := rfl
@[simp] theorem peak_gathers (s : State) (k lo n v : Nat) : (peak s k lo n v).gathers = s.gathers := rfl
@[simp] theorem peak_selects (s : State) (k lo n v : Nat) : (peak s k lo n v).selects = s.selects := rfl
@[simp] theorem peak_idx (s : State) (k lo n v : Nat) : (peak s k lo n v).idx = s.idx := rfl
@[simp] theorem peak_srchLd (s : State) (k lo n v : Nat) : (peak s k lo n v).srchLd = s.srchLd := rfl
@[simp] theorem peak_srchUnld (s : State) (k lo n v : Nat) : (peak s k lo n v).srchUnld = s.srchUnld := rfl
@[simp] theorem peak_searches (s : State) (k lo n v : Nat) : (peak s k lo n v).searches = s.searches := rfl
@[simp] theorem peak_plan (s : State) (k lo n v : Nat) : (peak s k lo n v).plan = s.plan := rfl
@[simp] theorem peak_strand (s : State) (k lo n v : Nat) : (peak s k lo n v).strand = s.strand := rfl
@[simp] theorem peak_troy (s : State) (k lo n v : Nat) : (peak s k lo n v).troy = s.troy := rfl
@[simp] theorem peak_tpl (s : State) (k lo n v : Nat) : (peak s k lo n v).tpl = s.tpl := rfl
@[simp] theorem peak_tplUnld (s : State) (k lo n v : Nat) : (peak s k lo n v).tplUnld = s.tplUnld := rfl
@[simp] theorem peak_mtx (s : State) (k lo n v : Nat) : (peak s k lo n v).mtx = s.mtx := rfl
@[simp] theorem peak_prefills (s : State) (k lo n v : Nat) : (peak s k lo n v).prefills = s.prefills := rfl
@[simp] theorem peak_pools (s : State) (k lo n v : Nat) : (peak s k lo n v).pools = s.pools := rfl
@[simp] theorem peak_mtxCleared (s : State) (k lo n v : Nat) : (peak s k lo n v).mtxCleared = s.mtxCleared := rfl
@[simp] theorem peak_chain (s : State) (k lo n v : Nat) : (peak s k lo n v).chain = s.chain := rfl

@[simp] theorem emit_pending (s : State) (o : Out) : (emit s o).pending = s.pending := rfl
@[simp] theorem emit_mfg (s : State) (o : Out) : (emit s o).mfg = s.mfg := rfl
@[simp] theorem emit_supply (s : State) (o : Out) : (emit s o).supply = s.supply := rfl
@[simp] theorem emit_nor (s : State) (o : Out) : (emit s o).nor = s.nor := rfl
@[simp] theorem emit_assay (s : State) (o : Out) : (emit s o).assay = s.assay := rfl
@[simp] theorem emit_hmk (s : State) (o : Out) : (emit s o).hmk = s.hmk := rfl
@[simp] theorem emit_regs (s : State) (o : Out) : (emit s o).regs = s.regs := rfl
@[simp] theorem emit_force (s : State) (o : Out) : (emit s o).force = s.force := rfl
@[simp] theorem emit_xign (s : State) (o : Out) : (emit s o).xign = s.xign := rfl
@[simp] theorem emit_clk (s : State) (o : Out) : (emit s o).clk = s.clk := rfl
@[simp] theorem emit_fabric (s : State) (o : Out) : (emit s o).fabric = s.fabric := rfl
@[simp] theorem emit_coh (s : State) (o : Out) : (emit s o).coh = s.coh := rfl
@[simp] theorem emit_mem (s : State) (o : Out) : (emit s o).mem = s.mem := rfl
@[simp] theorem emit_flash (s : State) (o : Out) : (emit s o).flash = s.flash := rfl
@[simp] theorem emit_ports (s : State) (o : Out) : (emit s o).ports = s.ports := rfl
@[simp] theorem emit_atc (s : State) (o : Out) : (emit s o).atc = s.atc := rfl
@[simp] theorem emit_funcs (s : State) (o : Out) : (emit s o).funcs = s.funcs := rfl
@[simp] theorem emit_rings (s : State) (o : Out) : (emit s o).rings = s.rings := rfl
@[simp] theorem emit_requests (s : State) (o : Out) : (emit s o).requests = s.requests := rfl
@[simp] theorem emit_parked (s : State) (o : Out) : (emit s o).parked = s.parked := rfl
@[simp] theorem emit_clear (s : State) (o : Out) : (emit s o).clear = s.clear := rfl
@[simp] theorem emit_freeCount (s : State) (o : Out) : (emit s o).freeCount = s.freeCount := rfl
@[simp] theorem emit_power (s : State) (o : Out) : (emit s o).power = s.power := rfl
@[simp] theorem emit_voc (s : State) (o : Out) : (emit s o).voc = s.voc := rfl
@[simp] theorem emit_grm (s : State) (o : Out) : (emit s o).grm = s.grm := rfl
@[simp] theorem emit_tokLd (s : State) (o : Out) : (emit s o).tokLd = s.tokLd := rfl
@[simp] theorem emit_tokUnld (s : State) (o : Out) : (emit s o).tokUnld = s.tokUnld := rfl
@[simp] theorem emit_gathers (s : State) (o : Out) : (emit s o).gathers = s.gathers := rfl
@[simp] theorem emit_selects (s : State) (o : Out) : (emit s o).selects = s.selects := rfl
@[simp] theorem emit_idx (s : State) (o : Out) : (emit s o).idx = s.idx := rfl
@[simp] theorem emit_srchLd (s : State) (o : Out) : (emit s o).srchLd = s.srchLd := rfl
@[simp] theorem emit_srchUnld (s : State) (o : Out) : (emit s o).srchUnld = s.srchUnld := rfl
@[simp] theorem emit_searches (s : State) (o : Out) : (emit s o).searches = s.searches := rfl
@[simp] theorem emit_plan (s : State) (o : Out) : (emit s o).plan = s.plan := rfl
@[simp] theorem emit_strand (s : State) (o : Out) : (emit s o).strand = s.strand := rfl
@[simp] theorem emit_troy (s : State) (o : Out) : (emit s o).troy = s.troy := rfl
@[simp] theorem emit_tpl (s : State) (o : Out) : (emit s o).tpl = s.tpl := rfl
@[simp] theorem emit_tplUnld (s : State) (o : Out) : (emit s o).tplUnld = s.tplUnld := rfl
@[simp] theorem emit_mtx (s : State) (o : Out) : (emit s o).mtx = s.mtx := rfl
@[simp] theorem emit_prefills (s : State) (o : Out) : (emit s o).prefills = s.prefills := rfl
@[simp] theorem emit_pools (s : State) (o : Out) : (emit s o).pools = s.pools := rfl
@[simp] theorem emit_mtxCleared (s : State) (o : Out) : (emit s o).mtxCleared = s.mtxCleared := rfl
@[simp] theorem emit_chain (s : State) (o : Out) : (emit s o).chain = s.chain := rfl

@[simp] theorem setAtc_pending (s : State) (p : Nat) (v : List Cached) : (setAtc s p v).pending = s.pending := rfl
@[simp] theorem setAtc_mfg (s : State) (p : Nat) (v : List Cached) : (setAtc s p v).mfg = s.mfg := rfl
@[simp] theorem setAtc_supply (s : State) (p : Nat) (v : List Cached) : (setAtc s p v).supply = s.supply := rfl
@[simp] theorem setAtc_nor (s : State) (p : Nat) (v : List Cached) : (setAtc s p v).nor = s.nor := rfl
@[simp] theorem setAtc_assay (s : State) (p : Nat) (v : List Cached) : (setAtc s p v).assay = s.assay := rfl
@[simp] theorem setAtc_hmk (s : State) (p : Nat) (v : List Cached) : (setAtc s p v).hmk = s.hmk := rfl
@[simp] theorem setAtc_regs (s : State) (p : Nat) (v : List Cached) : (setAtc s p v).regs = s.regs := rfl
@[simp] theorem setAtc_force (s : State) (p : Nat) (v : List Cached) : (setAtc s p v).force = s.force := rfl
@[simp] theorem setAtc_xign (s : State) (p : Nat) (v : List Cached) : (setAtc s p v).xign = s.xign := rfl
@[simp] theorem setAtc_clk (s : State) (p : Nat) (v : List Cached) : (setAtc s p v).clk = s.clk := rfl
@[simp] theorem setAtc_fabric (s : State) (p : Nat) (v : List Cached) : (setAtc s p v).fabric = s.fabric := rfl
@[simp] theorem setAtc_coh (s : State) (p : Nat) (v : List Cached) : (setAtc s p v).coh = s.coh := rfl
@[simp] theorem setAtc_mem (s : State) (p : Nat) (v : List Cached) : (setAtc s p v).mem = s.mem := rfl
@[simp] theorem setAtc_flash (s : State) (p : Nat) (v : List Cached) : (setAtc s p v).flash = s.flash := rfl
@[simp] theorem setAtc_funcs (s : State) (p : Nat) (v : List Cached) : (setAtc s p v).funcs = s.funcs := rfl
@[simp] theorem setAtc_rings (s : State) (p : Nat) (v : List Cached) : (setAtc s p v).rings = s.rings := rfl
@[simp] theorem setAtc_requests (s : State) (p : Nat) (v : List Cached) : (setAtc s p v).requests = s.requests := rfl
@[simp] theorem setAtc_parked (s : State) (p : Nat) (v : List Cached) : (setAtc s p v).parked = s.parked := rfl
@[simp] theorem setAtc_clear (s : State) (p : Nat) (v : List Cached) : (setAtc s p v).clear = s.clear := rfl
@[simp] theorem setAtc_outs (s : State) (p : Nat) (v : List Cached) : (setAtc s p v).outs = s.outs := rfl
@[simp] theorem setAtc_freeCount (s : State) (p : Nat) (v : List Cached) : (setAtc s p v).freeCount = s.freeCount := rfl
@[simp] theorem setAtc_power (s : State) (p : Nat) (v : List Cached) : (setAtc s p v).power = s.power := rfl
@[simp] theorem setAtc_voc (s : State) (p : Nat) (v : List Cached) : (setAtc s p v).voc = s.voc := rfl
@[simp] theorem setAtc_grm (s : State) (p : Nat) (v : List Cached) : (setAtc s p v).grm = s.grm := rfl
@[simp] theorem setAtc_tokLd (s : State) (p : Nat) (v : List Cached) : (setAtc s p v).tokLd = s.tokLd := rfl
@[simp] theorem setAtc_tokUnld (s : State) (p : Nat) (v : List Cached) : (setAtc s p v).tokUnld = s.tokUnld := rfl
@[simp] theorem setAtc_gathers (s : State) (p : Nat) (v : List Cached) : (setAtc s p v).gathers = s.gathers := rfl
@[simp] theorem setAtc_selects (s : State) (p : Nat) (v : List Cached) : (setAtc s p v).selects = s.selects := rfl
@[simp] theorem setAtc_idx (s : State) (p : Nat) (v : List Cached) : (setAtc s p v).idx = s.idx := rfl
@[simp] theorem setAtc_srchLd (s : State) (p : Nat) (v : List Cached) : (setAtc s p v).srchLd = s.srchLd := rfl
@[simp] theorem setAtc_srchUnld (s : State) (p : Nat) (v : List Cached) : (setAtc s p v).srchUnld = s.srchUnld := rfl
@[simp] theorem setAtc_searches (s : State) (p : Nat) (v : List Cached) : (setAtc s p v).searches = s.searches := rfl
@[simp] theorem setAtc_plan (s : State) (p : Nat) (v : List Cached) : (setAtc s p v).plan = s.plan := rfl
@[simp] theorem setAtc_strand (s : State) (p : Nat) (v : List Cached) : (setAtc s p v).strand = s.strand := rfl
@[simp] theorem setAtc_troy (s : State) (p : Nat) (v : List Cached) : (setAtc s p v).troy = s.troy := rfl
@[simp] theorem setAtc_tpl (s : State) (p : Nat) (v : List Cached) : (setAtc s p v).tpl = s.tpl := rfl
@[simp] theorem setAtc_tplUnld (s : State) (p : Nat) (v : List Cached) : (setAtc s p v).tplUnld = s.tplUnld := rfl
@[simp] theorem setAtc_mtx (s : State) (p : Nat) (v : List Cached) : (setAtc s p v).mtx = s.mtx := rfl
@[simp] theorem setAtc_prefills (s : State) (p : Nat) (v : List Cached) : (setAtc s p v).prefills = s.prefills := rfl
@[simp] theorem setAtc_pools (s : State) (p : Nat) (v : List Cached) : (setAtc s p v).pools = s.pools := rfl
@[simp] theorem setAtc_mtxCleared (s : State) (p : Nat) (v : List Cached) : (setAtc s p v).mtxCleared = s.mtxCleared := rfl
@[simp] theorem setAtc_chain (s : State) (p : Nat) (v : List Cached) : (setAtc s p v).chain = s.chain := rfl
@[simp] theorem setAtc_ports (s : State) (p : Nat) (v : List Cached) : (setAtc s p v).ports = s.ports := rfl

@[simp] theorem setPort_pending (s : State) (p : Nat) (v : Port) : (setPort s p v).pending = s.pending := rfl
@[simp] theorem setPort_mfg (s : State) (p : Nat) (v : Port) : (setPort s p v).mfg = s.mfg := rfl
@[simp] theorem setPort_supply (s : State) (p : Nat) (v : Port) : (setPort s p v).supply = s.supply := rfl
@[simp] theorem setPort_nor (s : State) (p : Nat) (v : Port) : (setPort s p v).nor = s.nor := rfl
@[simp] theorem setPort_assay (s : State) (p : Nat) (v : Port) : (setPort s p v).assay = s.assay := rfl
@[simp] theorem setPort_hmk (s : State) (p : Nat) (v : Port) : (setPort s p v).hmk = s.hmk := rfl
@[simp] theorem setPort_regs (s : State) (p : Nat) (v : Port) : (setPort s p v).regs = s.regs := rfl
@[simp] theorem setPort_force (s : State) (p : Nat) (v : Port) : (setPort s p v).force = s.force := rfl
@[simp] theorem setPort_xign (s : State) (p : Nat) (v : Port) : (setPort s p v).xign = s.xign := rfl
@[simp] theorem setPort_clk (s : State) (p : Nat) (v : Port) : (setPort s p v).clk = s.clk := rfl
@[simp] theorem setPort_fabric (s : State) (p : Nat) (v : Port) : (setPort s p v).fabric = s.fabric := rfl
@[simp] theorem setPort_coh (s : State) (p : Nat) (v : Port) : (setPort s p v).coh = s.coh := rfl
@[simp] theorem setPort_mem (s : State) (p : Nat) (v : Port) : (setPort s p v).mem = s.mem := rfl
@[simp] theorem setPort_flash (s : State) (p : Nat) (v : Port) : (setPort s p v).flash = s.flash := rfl
@[simp] theorem setPort_funcs (s : State) (p : Nat) (v : Port) : (setPort s p v).funcs = s.funcs := rfl
@[simp] theorem setPort_rings (s : State) (p : Nat) (v : Port) : (setPort s p v).rings = s.rings := rfl
@[simp] theorem setPort_requests (s : State) (p : Nat) (v : Port) : (setPort s p v).requests = s.requests := rfl
@[simp] theorem setPort_parked (s : State) (p : Nat) (v : Port) : (setPort s p v).parked = s.parked := rfl
@[simp] theorem setPort_clear (s : State) (p : Nat) (v : Port) : (setPort s p v).clear = s.clear := rfl
@[simp] theorem setPort_outs (s : State) (p : Nat) (v : Port) : (setPort s p v).outs = s.outs := rfl
@[simp] theorem setPort_freeCount (s : State) (p : Nat) (v : Port) : (setPort s p v).freeCount = s.freeCount := rfl
@[simp] theorem setPort_power (s : State) (p : Nat) (v : Port) : (setPort s p v).power = s.power := rfl
@[simp] theorem setPort_voc (s : State) (p : Nat) (v : Port) : (setPort s p v).voc = s.voc := rfl
@[simp] theorem setPort_grm (s : State) (p : Nat) (v : Port) : (setPort s p v).grm = s.grm := rfl
@[simp] theorem setPort_tokLd (s : State) (p : Nat) (v : Port) : (setPort s p v).tokLd = s.tokLd := rfl
@[simp] theorem setPort_tokUnld (s : State) (p : Nat) (v : Port) : (setPort s p v).tokUnld = s.tokUnld := rfl
@[simp] theorem setPort_gathers (s : State) (p : Nat) (v : Port) : (setPort s p v).gathers = s.gathers := rfl
@[simp] theorem setPort_selects (s : State) (p : Nat) (v : Port) : (setPort s p v).selects = s.selects := rfl
@[simp] theorem setPort_idx (s : State) (p : Nat) (v : Port) : (setPort s p v).idx = s.idx := rfl
@[simp] theorem setPort_srchLd (s : State) (p : Nat) (v : Port) : (setPort s p v).srchLd = s.srchLd := rfl
@[simp] theorem setPort_srchUnld (s : State) (p : Nat) (v : Port) : (setPort s p v).srchUnld = s.srchUnld := rfl
@[simp] theorem setPort_searches (s : State) (p : Nat) (v : Port) : (setPort s p v).searches = s.searches := rfl
@[simp] theorem setPort_plan (s : State) (p : Nat) (v : Port) : (setPort s p v).plan = s.plan := rfl
@[simp] theorem setPort_strand (s : State) (p : Nat) (v : Port) : (setPort s p v).strand = s.strand := rfl
@[simp] theorem setPort_troy (s : State) (p : Nat) (v : Port) : (setPort s p v).troy = s.troy := rfl
@[simp] theorem setPort_tpl (s : State) (p : Nat) (v : Port) : (setPort s p v).tpl = s.tpl := rfl
@[simp] theorem setPort_tplUnld (s : State) (p : Nat) (v : Port) : (setPort s p v).tplUnld = s.tplUnld := rfl
@[simp] theorem setPort_mtx (s : State) (p : Nat) (v : Port) : (setPort s p v).mtx = s.mtx := rfl
@[simp] theorem setPort_prefills (s : State) (p : Nat) (v : Port) : (setPort s p v).prefills = s.prefills := rfl
@[simp] theorem setPort_pools (s : State) (p : Nat) (v : Port) : (setPort s p v).pools = s.pools := rfl
@[simp] theorem setPort_mtxCleared (s : State) (p : Nat) (v : Port) : (setPort s p v).mtxCleared = s.mtxCleared := rfl
@[simp] theorem setPort_chain (s : State) (p : Nat) (v : Port) : (setPort s p v).chain = s.chain := rfl

@[simp] theorem setFunc_pending (s : State) (fn : FnId) (v : Func) : (setFunc s fn v).pending = s.pending := rfl
@[simp] theorem setFunc_mfg (s : State) (fn : FnId) (v : Func) : (setFunc s fn v).mfg = s.mfg := rfl
@[simp] theorem setFunc_supply (s : State) (fn : FnId) (v : Func) : (setFunc s fn v).supply = s.supply := rfl
@[simp] theorem setFunc_nor (s : State) (fn : FnId) (v : Func) : (setFunc s fn v).nor = s.nor := rfl
@[simp] theorem setFunc_assay (s : State) (fn : FnId) (v : Func) : (setFunc s fn v).assay = s.assay := rfl
@[simp] theorem setFunc_hmk (s : State) (fn : FnId) (v : Func) : (setFunc s fn v).hmk = s.hmk := rfl
@[simp] theorem setFunc_regs (s : State) (fn : FnId) (v : Func) : (setFunc s fn v).regs = s.regs := rfl
@[simp] theorem setFunc_force (s : State) (fn : FnId) (v : Func) : (setFunc s fn v).force = s.force := rfl
@[simp] theorem setFunc_xign (s : State) (fn : FnId) (v : Func) : (setFunc s fn v).xign = s.xign := rfl
@[simp] theorem setFunc_clk (s : State) (fn : FnId) (v : Func) : (setFunc s fn v).clk = s.clk := rfl
@[simp] theorem setFunc_fabric (s : State) (fn : FnId) (v : Func) : (setFunc s fn v).fabric = s.fabric := rfl
@[simp] theorem setFunc_coh (s : State) (fn : FnId) (v : Func) : (setFunc s fn v).coh = s.coh := rfl
@[simp] theorem setFunc_mem (s : State) (fn : FnId) (v : Func) : (setFunc s fn v).mem = s.mem := rfl
@[simp] theorem setFunc_flash (s : State) (fn : FnId) (v : Func) : (setFunc s fn v).flash = s.flash := rfl
@[simp] theorem setFunc_ports (s : State) (fn : FnId) (v : Func) : (setFunc s fn v).ports = s.ports := rfl
@[simp] theorem setFunc_atc (s : State) (fn : FnId) (v : Func) : (setFunc s fn v).atc = s.atc := rfl
@[simp] theorem setFunc_rings (s : State) (fn : FnId) (v : Func) : (setFunc s fn v).rings = s.rings := rfl
@[simp] theorem setFunc_requests (s : State) (fn : FnId) (v : Func) : (setFunc s fn v).requests = s.requests := rfl
@[simp] theorem setFunc_parked (s : State) (fn : FnId) (v : Func) : (setFunc s fn v).parked = s.parked := rfl
@[simp] theorem setFunc_clear (s : State) (fn : FnId) (v : Func) : (setFunc s fn v).clear = s.clear := rfl
@[simp] theorem setFunc_outs (s : State) (fn : FnId) (v : Func) : (setFunc s fn v).outs = s.outs := rfl
@[simp] theorem setFunc_freeCount (s : State) (fn : FnId) (v : Func) : (setFunc s fn v).freeCount = s.freeCount := rfl
@[simp] theorem setFunc_power (s : State) (fn : FnId) (v : Func) : (setFunc s fn v).power = s.power := rfl
@[simp] theorem setFunc_voc (s : State) (fn : FnId) (v : Func) : (setFunc s fn v).voc = s.voc := rfl
@[simp] theorem setFunc_grm (s : State) (fn : FnId) (v : Func) : (setFunc s fn v).grm = s.grm := rfl
@[simp] theorem setFunc_tokLd (s : State) (fn : FnId) (v : Func) : (setFunc s fn v).tokLd = s.tokLd := rfl
@[simp] theorem setFunc_tokUnld (s : State) (fn : FnId) (v : Func) : (setFunc s fn v).tokUnld = s.tokUnld := rfl
@[simp] theorem setFunc_gathers (s : State) (fn : FnId) (v : Func) : (setFunc s fn v).gathers = s.gathers := rfl
@[simp] theorem setFunc_selects (s : State) (fn : FnId) (v : Func) : (setFunc s fn v).selects = s.selects := rfl
@[simp] theorem setFunc_idx (s : State) (fn : FnId) (v : Func) : (setFunc s fn v).idx = s.idx := rfl
@[simp] theorem setFunc_srchLd (s : State) (fn : FnId) (v : Func) : (setFunc s fn v).srchLd = s.srchLd := rfl
@[simp] theorem setFunc_srchUnld (s : State) (fn : FnId) (v : Func) : (setFunc s fn v).srchUnld = s.srchUnld := rfl
@[simp] theorem setFunc_searches (s : State) (fn : FnId) (v : Func) : (setFunc s fn v).searches = s.searches := rfl
@[simp] theorem setFunc_plan (s : State) (fn : FnId) (v : Func) : (setFunc s fn v).plan = s.plan := rfl
@[simp] theorem setFunc_strand (s : State) (fn : FnId) (v : Func) : (setFunc s fn v).strand = s.strand := rfl
@[simp] theorem setFunc_troy (s : State) (fn : FnId) (v : Func) : (setFunc s fn v).troy = s.troy := rfl
@[simp] theorem setFunc_tpl (s : State) (fn : FnId) (v : Func) : (setFunc s fn v).tpl = s.tpl := rfl
@[simp] theorem setFunc_tplUnld (s : State) (fn : FnId) (v : Func) : (setFunc s fn v).tplUnld = s.tplUnld := rfl
@[simp] theorem setFunc_mtx (s : State) (fn : FnId) (v : Func) : (setFunc s fn v).mtx = s.mtx := rfl
@[simp] theorem setFunc_prefills (s : State) (fn : FnId) (v : Func) : (setFunc s fn v).prefills = s.prefills := rfl
@[simp] theorem setFunc_pools (s : State) (fn : FnId) (v : Func) : (setFunc s fn v).pools = s.pools := rfl
@[simp] theorem setFunc_mtxCleared (s : State) (fn : FnId) (v : Func) : (setFunc s fn v).mtxCleared = s.mtxCleared := rfl
@[simp] theorem setFunc_chain (s : State) (fn : FnId) (v : Func) : (setFunc s fn v).chain = s.chain := rfl

@[simp] theorem setEvt_pending (s : State) (fn : FnId) (e : EvtRing) : (setEvt s fn e).pending = s.pending := rfl
@[simp] theorem setEvt_mfg (s : State) (fn : FnId) (e : EvtRing) : (setEvt s fn e).mfg = s.mfg := rfl
@[simp] theorem setEvt_supply (s : State) (fn : FnId) (e : EvtRing) : (setEvt s fn e).supply = s.supply := rfl
@[simp] theorem setEvt_nor (s : State) (fn : FnId) (e : EvtRing) : (setEvt s fn e).nor = s.nor := rfl
@[simp] theorem setEvt_assay (s : State) (fn : FnId) (e : EvtRing) : (setEvt s fn e).assay = s.assay := rfl
@[simp] theorem setEvt_hmk (s : State) (fn : FnId) (e : EvtRing) : (setEvt s fn e).hmk = s.hmk := rfl
@[simp] theorem setEvt_regs (s : State) (fn : FnId) (e : EvtRing) : (setEvt s fn e).regs = s.regs := rfl
@[simp] theorem setEvt_force (s : State) (fn : FnId) (e : EvtRing) : (setEvt s fn e).force = s.force := rfl
@[simp] theorem setEvt_xign (s : State) (fn : FnId) (e : EvtRing) : (setEvt s fn e).xign = s.xign := rfl
@[simp] theorem setEvt_clk (s : State) (fn : FnId) (e : EvtRing) : (setEvt s fn e).clk = s.clk := rfl
@[simp] theorem setEvt_fabric (s : State) (fn : FnId) (e : EvtRing) : (setEvt s fn e).fabric = s.fabric := rfl
@[simp] theorem setEvt_coh (s : State) (fn : FnId) (e : EvtRing) : (setEvt s fn e).coh = s.coh := rfl
@[simp] theorem setEvt_mem (s : State) (fn : FnId) (e : EvtRing) : (setEvt s fn e).mem = s.mem := rfl
@[simp] theorem setEvt_flash (s : State) (fn : FnId) (e : EvtRing) : (setEvt s fn e).flash = s.flash := rfl
@[simp] theorem setEvt_ports (s : State) (fn : FnId) (e : EvtRing) : (setEvt s fn e).ports = s.ports := rfl
@[simp] theorem setEvt_atc (s : State) (fn : FnId) (e : EvtRing) : (setEvt s fn e).atc = s.atc := rfl
@[simp] theorem setEvt_funcs (s : State) (fn : FnId) (e : EvtRing) : (setEvt s fn e).funcs = s.funcs := rfl
@[simp] theorem setEvt_requests (s : State) (fn : FnId) (e : EvtRing) : (setEvt s fn e).requests = s.requests := rfl
@[simp] theorem setEvt_parked (s : State) (fn : FnId) (e : EvtRing) : (setEvt s fn e).parked = s.parked := rfl
@[simp] theorem setEvt_clear (s : State) (fn : FnId) (e : EvtRing) : (setEvt s fn e).clear = s.clear := rfl
@[simp] theorem setEvt_outs (s : State) (fn : FnId) (e : EvtRing) : (setEvt s fn e).outs = s.outs := rfl
@[simp] theorem setEvt_freeCount (s : State) (fn : FnId) (e : EvtRing) : (setEvt s fn e).freeCount = s.freeCount := rfl
@[simp] theorem setEvt_power (s : State) (fn : FnId) (e : EvtRing) : (setEvt s fn e).power = s.power := rfl
@[simp] theorem setEvt_voc (s : State) (fn : FnId) (e : EvtRing) : (setEvt s fn e).voc = s.voc := rfl
@[simp] theorem setEvt_grm (s : State) (fn : FnId) (e : EvtRing) : (setEvt s fn e).grm = s.grm := rfl
@[simp] theorem setEvt_tokLd (s : State) (fn : FnId) (e : EvtRing) : (setEvt s fn e).tokLd = s.tokLd := rfl
@[simp] theorem setEvt_tokUnld (s : State) (fn : FnId) (e : EvtRing) : (setEvt s fn e).tokUnld = s.tokUnld := rfl
@[simp] theorem setEvt_gathers (s : State) (fn : FnId) (e : EvtRing) : (setEvt s fn e).gathers = s.gathers := rfl
@[simp] theorem setEvt_selects (s : State) (fn : FnId) (e : EvtRing) : (setEvt s fn e).selects = s.selects := rfl
@[simp] theorem setEvt_idx (s : State) (fn : FnId) (e : EvtRing) : (setEvt s fn e).idx = s.idx := rfl
@[simp] theorem setEvt_srchLd (s : State) (fn : FnId) (e : EvtRing) : (setEvt s fn e).srchLd = s.srchLd := rfl
@[simp] theorem setEvt_srchUnld (s : State) (fn : FnId) (e : EvtRing) : (setEvt s fn e).srchUnld = s.srchUnld := rfl
@[simp] theorem setEvt_searches (s : State) (fn : FnId) (e : EvtRing) : (setEvt s fn e).searches = s.searches := rfl
@[simp] theorem setEvt_plan (s : State) (fn : FnId) (e : EvtRing) : (setEvt s fn e).plan = s.plan := rfl
@[simp] theorem setEvt_strand (s : State) (fn : FnId) (e : EvtRing) : (setEvt s fn e).strand = s.strand := rfl
@[simp] theorem setEvt_troy (s : State) (fn : FnId) (e : EvtRing) : (setEvt s fn e).troy = s.troy := rfl
@[simp] theorem setEvt_tpl (s : State) (fn : FnId) (e : EvtRing) : (setEvt s fn e).tpl = s.tpl := rfl
@[simp] theorem setEvt_tplUnld (s : State) (fn : FnId) (e : EvtRing) : (setEvt s fn e).tplUnld = s.tplUnld := rfl
@[simp] theorem setEvt_mtx (s : State) (fn : FnId) (e : EvtRing) : (setEvt s fn e).mtx = s.mtx := rfl
@[simp] theorem setEvt_prefills (s : State) (fn : FnId) (e : EvtRing) : (setEvt s fn e).prefills = s.prefills := rfl
@[simp] theorem setEvt_pools (s : State) (fn : FnId) (e : EvtRing) : (setEvt s fn e).pools = s.pools := rfl
@[simp] theorem setEvt_mtxCleared (s : State) (fn : FnId) (e : EvtRing) : (setEvt s fn e).mtxCleared = s.mtxCleared := rfl
@[simp] theorem setEvt_chain (s : State) (fn : FnId) (e : EvtRing) : (setEvt s fn e).chain = s.chain := rfl

@[simp] theorem setSq_pending (s : State) (rk : Nat) (v : SubRing) : (setSq s rk v).pending = s.pending := rfl
@[simp] theorem setSq_mfg (s : State) (rk : Nat) (v : SubRing) : (setSq s rk v).mfg = s.mfg := rfl
@[simp] theorem setSq_supply (s : State) (rk : Nat) (v : SubRing) : (setSq s rk v).supply = s.supply := rfl
@[simp] theorem setSq_nor (s : State) (rk : Nat) (v : SubRing) : (setSq s rk v).nor = s.nor := rfl
@[simp] theorem setSq_assay (s : State) (rk : Nat) (v : SubRing) : (setSq s rk v).assay = s.assay := rfl
@[simp] theorem setSq_hmk (s : State) (rk : Nat) (v : SubRing) : (setSq s rk v).hmk = s.hmk := rfl
@[simp] theorem setSq_regs (s : State) (rk : Nat) (v : SubRing) : (setSq s rk v).regs = s.regs := rfl
@[simp] theorem setSq_force (s : State) (rk : Nat) (v : SubRing) : (setSq s rk v).force = s.force := rfl
@[simp] theorem setSq_xign (s : State) (rk : Nat) (v : SubRing) : (setSq s rk v).xign = s.xign := rfl
@[simp] theorem setSq_clk (s : State) (rk : Nat) (v : SubRing) : (setSq s rk v).clk = s.clk := rfl
@[simp] theorem setSq_fabric (s : State) (rk : Nat) (v : SubRing) : (setSq s rk v).fabric = s.fabric := rfl
@[simp] theorem setSq_coh (s : State) (rk : Nat) (v : SubRing) : (setSq s rk v).coh = s.coh := rfl
@[simp] theorem setSq_mem (s : State) (rk : Nat) (v : SubRing) : (setSq s rk v).mem = s.mem := rfl
@[simp] theorem setSq_flash (s : State) (rk : Nat) (v : SubRing) : (setSq s rk v).flash = s.flash := rfl
@[simp] theorem setSq_ports (s : State) (rk : Nat) (v : SubRing) : (setSq s rk v).ports = s.ports := rfl
@[simp] theorem setSq_atc (s : State) (rk : Nat) (v : SubRing) : (setSq s rk v).atc = s.atc := rfl
@[simp] theorem setSq_funcs (s : State) (rk : Nat) (v : SubRing) : (setSq s rk v).funcs = s.funcs := rfl
@[simp] theorem setSq_requests (s : State) (rk : Nat) (v : SubRing) : (setSq s rk v).requests = s.requests := rfl
@[simp] theorem setSq_parked (s : State) (rk : Nat) (v : SubRing) : (setSq s rk v).parked = s.parked := rfl
@[simp] theorem setSq_clear (s : State) (rk : Nat) (v : SubRing) : (setSq s rk v).clear = s.clear := rfl
@[simp] theorem setSq_outs (s : State) (rk : Nat) (v : SubRing) : (setSq s rk v).outs = s.outs := rfl
@[simp] theorem setSq_freeCount (s : State) (rk : Nat) (v : SubRing) : (setSq s rk v).freeCount = s.freeCount := rfl
@[simp] theorem setSq_power (s : State) (rk : Nat) (v : SubRing) : (setSq s rk v).power = s.power := rfl
@[simp] theorem setSq_voc (s : State) (rk : Nat) (v : SubRing) : (setSq s rk v).voc = s.voc := rfl
@[simp] theorem setSq_grm (s : State) (rk : Nat) (v : SubRing) : (setSq s rk v).grm = s.grm := rfl
@[simp] theorem setSq_tokLd (s : State) (rk : Nat) (v : SubRing) : (setSq s rk v).tokLd = s.tokLd := rfl
@[simp] theorem setSq_tokUnld (s : State) (rk : Nat) (v : SubRing) : (setSq s rk v).tokUnld = s.tokUnld := rfl
@[simp] theorem setSq_gathers (s : State) (rk : Nat) (v : SubRing) : (setSq s rk v).gathers = s.gathers := rfl
@[simp] theorem setSq_selects (s : State) (rk : Nat) (v : SubRing) : (setSq s rk v).selects = s.selects := rfl
@[simp] theorem setSq_idx (s : State) (rk : Nat) (v : SubRing) : (setSq s rk v).idx = s.idx := rfl
@[simp] theorem setSq_srchLd (s : State) (rk : Nat) (v : SubRing) : (setSq s rk v).srchLd = s.srchLd := rfl
@[simp] theorem setSq_srchUnld (s : State) (rk : Nat) (v : SubRing) : (setSq s rk v).srchUnld = s.srchUnld := rfl
@[simp] theorem setSq_searches (s : State) (rk : Nat) (v : SubRing) : (setSq s rk v).searches = s.searches := rfl
@[simp] theorem setSq_plan (s : State) (rk : Nat) (v : SubRing) : (setSq s rk v).plan = s.plan := rfl
@[simp] theorem setSq_strand (s : State) (rk : Nat) (v : SubRing) : (setSq s rk v).strand = s.strand := rfl
@[simp] theorem setSq_troy (s : State) (rk : Nat) (v : SubRing) : (setSq s rk v).troy = s.troy := rfl
@[simp] theorem setSq_tpl (s : State) (rk : Nat) (v : SubRing) : (setSq s rk v).tpl = s.tpl := rfl
@[simp] theorem setSq_tplUnld (s : State) (rk : Nat) (v : SubRing) : (setSq s rk v).tplUnld = s.tplUnld := rfl
@[simp] theorem setSq_mtx (s : State) (rk : Nat) (v : SubRing) : (setSq s rk v).mtx = s.mtx := rfl
@[simp] theorem setSq_prefills (s : State) (rk : Nat) (v : SubRing) : (setSq s rk v).prefills = s.prefills := rfl
@[simp] theorem setSq_pools (s : State) (rk : Nat) (v : SubRing) : (setSq s rk v).pools = s.pools := rfl
@[simp] theorem setSq_mtxCleared (s : State) (rk : Nat) (v : SubRing) : (setSq s rk v).mtxCleared = s.mtxCleared := rfl
@[simp] theorem setSq_chain (s : State) (rk : Nat) (v : SubRing) : (setSq s rk v).chain = s.chain := rfl

@[simp] theorem setCq_pending (s : State) (rk : Nat) (v : CompRing) : (setCq s rk v).pending = s.pending := rfl
@[simp] theorem setCq_mfg (s : State) (rk : Nat) (v : CompRing) : (setCq s rk v).mfg = s.mfg := rfl
@[simp] theorem setCq_supply (s : State) (rk : Nat) (v : CompRing) : (setCq s rk v).supply = s.supply := rfl
@[simp] theorem setCq_nor (s : State) (rk : Nat) (v : CompRing) : (setCq s rk v).nor = s.nor := rfl
@[simp] theorem setCq_assay (s : State) (rk : Nat) (v : CompRing) : (setCq s rk v).assay = s.assay := rfl
@[simp] theorem setCq_hmk (s : State) (rk : Nat) (v : CompRing) : (setCq s rk v).hmk = s.hmk := rfl
@[simp] theorem setCq_regs (s : State) (rk : Nat) (v : CompRing) : (setCq s rk v).regs = s.regs := rfl
@[simp] theorem setCq_force (s : State) (rk : Nat) (v : CompRing) : (setCq s rk v).force = s.force := rfl
@[simp] theorem setCq_xign (s : State) (rk : Nat) (v : CompRing) : (setCq s rk v).xign = s.xign := rfl
@[simp] theorem setCq_clk (s : State) (rk : Nat) (v : CompRing) : (setCq s rk v).clk = s.clk := rfl
@[simp] theorem setCq_fabric (s : State) (rk : Nat) (v : CompRing) : (setCq s rk v).fabric = s.fabric := rfl
@[simp] theorem setCq_coh (s : State) (rk : Nat) (v : CompRing) : (setCq s rk v).coh = s.coh := rfl
@[simp] theorem setCq_mem (s : State) (rk : Nat) (v : CompRing) : (setCq s rk v).mem = s.mem := rfl
@[simp] theorem setCq_flash (s : State) (rk : Nat) (v : CompRing) : (setCq s rk v).flash = s.flash := rfl
@[simp] theorem setCq_ports (s : State) (rk : Nat) (v : CompRing) : (setCq s rk v).ports = s.ports := rfl
@[simp] theorem setCq_atc (s : State) (rk : Nat) (v : CompRing) : (setCq s rk v).atc = s.atc := rfl
@[simp] theorem setCq_funcs (s : State) (rk : Nat) (v : CompRing) : (setCq s rk v).funcs = s.funcs := rfl
@[simp] theorem setCq_requests (s : State) (rk : Nat) (v : CompRing) : (setCq s rk v).requests = s.requests := rfl
@[simp] theorem setCq_parked (s : State) (rk : Nat) (v : CompRing) : (setCq s rk v).parked = s.parked := rfl
@[simp] theorem setCq_clear (s : State) (rk : Nat) (v : CompRing) : (setCq s rk v).clear = s.clear := rfl
@[simp] theorem setCq_outs (s : State) (rk : Nat) (v : CompRing) : (setCq s rk v).outs = s.outs := rfl
@[simp] theorem setCq_freeCount (s : State) (rk : Nat) (v : CompRing) : (setCq s rk v).freeCount = s.freeCount := rfl
@[simp] theorem setCq_power (s : State) (rk : Nat) (v : CompRing) : (setCq s rk v).power = s.power := rfl
@[simp] theorem setCq_voc (s : State) (rk : Nat) (v : CompRing) : (setCq s rk v).voc = s.voc := rfl
@[simp] theorem setCq_grm (s : State) (rk : Nat) (v : CompRing) : (setCq s rk v).grm = s.grm := rfl
@[simp] theorem setCq_tokLd (s : State) (rk : Nat) (v : CompRing) : (setCq s rk v).tokLd = s.tokLd := rfl
@[simp] theorem setCq_tokUnld (s : State) (rk : Nat) (v : CompRing) : (setCq s rk v).tokUnld = s.tokUnld := rfl
@[simp] theorem setCq_gathers (s : State) (rk : Nat) (v : CompRing) : (setCq s rk v).gathers = s.gathers := rfl
@[simp] theorem setCq_selects (s : State) (rk : Nat) (v : CompRing) : (setCq s rk v).selects = s.selects := rfl
@[simp] theorem setCq_idx (s : State) (rk : Nat) (v : CompRing) : (setCq s rk v).idx = s.idx := rfl
@[simp] theorem setCq_srchLd (s : State) (rk : Nat) (v : CompRing) : (setCq s rk v).srchLd = s.srchLd := rfl
@[simp] theorem setCq_srchUnld (s : State) (rk : Nat) (v : CompRing) : (setCq s rk v).srchUnld = s.srchUnld := rfl
@[simp] theorem setCq_searches (s : State) (rk : Nat) (v : CompRing) : (setCq s rk v).searches = s.searches := rfl
@[simp] theorem setCq_plan (s : State) (rk : Nat) (v : CompRing) : (setCq s rk v).plan = s.plan := rfl
@[simp] theorem setCq_strand (s : State) (rk : Nat) (v : CompRing) : (setCq s rk v).strand = s.strand := rfl
@[simp] theorem setCq_troy (s : State) (rk : Nat) (v : CompRing) : (setCq s rk v).troy = s.troy := rfl
@[simp] theorem setCq_tpl (s : State) (rk : Nat) (v : CompRing) : (setCq s rk v).tpl = s.tpl := rfl
@[simp] theorem setCq_tplUnld (s : State) (rk : Nat) (v : CompRing) : (setCq s rk v).tplUnld = s.tplUnld := rfl
@[simp] theorem setCq_mtx (s : State) (rk : Nat) (v : CompRing) : (setCq s rk v).mtx = s.mtx := rfl
@[simp] theorem setCq_prefills (s : State) (rk : Nat) (v : CompRing) : (setCq s rk v).prefills = s.prefills := rfl
@[simp] theorem setCq_pools (s : State) (rk : Nat) (v : CompRing) : (setCq s rk v).pools = s.pools := rfl
@[simp] theorem setCq_mtxCleared (s : State) (rk : Nat) (v : CompRing) : (setCq s rk v).mtxCleared = s.mtxCleared := rfl
@[simp] theorem setCq_chain (s : State) (rk : Nat) (v : CompRing) : (setCq s rk v).chain = s.chain := rfl

@[simp] theorem setTroy_pending (s : State) (n : Nat) (t : TroySlot) : (setTroy s n t).pending = s.pending := rfl
@[simp] theorem setTroy_mfg (s : State) (n : Nat) (t : TroySlot) : (setTroy s n t).mfg = s.mfg := rfl
@[simp] theorem setTroy_supply (s : State) (n : Nat) (t : TroySlot) : (setTroy s n t).supply = s.supply := rfl
@[simp] theorem setTroy_nor (s : State) (n : Nat) (t : TroySlot) : (setTroy s n t).nor = s.nor := rfl
@[simp] theorem setTroy_assay (s : State) (n : Nat) (t : TroySlot) : (setTroy s n t).assay = s.assay := rfl
@[simp] theorem setTroy_hmk (s : State) (n : Nat) (t : TroySlot) : (setTroy s n t).hmk = s.hmk := rfl
@[simp] theorem setTroy_regs (s : State) (n : Nat) (t : TroySlot) : (setTroy s n t).regs = s.regs := rfl
@[simp] theorem setTroy_force (s : State) (n : Nat) (t : TroySlot) : (setTroy s n t).force = s.force := rfl
@[simp] theorem setTroy_xign (s : State) (n : Nat) (t : TroySlot) : (setTroy s n t).xign = s.xign := rfl
@[simp] theorem setTroy_clk (s : State) (n : Nat) (t : TroySlot) : (setTroy s n t).clk = s.clk := rfl
@[simp] theorem setTroy_fabric (s : State) (n : Nat) (t : TroySlot) : (setTroy s n t).fabric = s.fabric := rfl
@[simp] theorem setTroy_coh (s : State) (n : Nat) (t : TroySlot) : (setTroy s n t).coh = s.coh := rfl
@[simp] theorem setTroy_mem (s : State) (n : Nat) (t : TroySlot) : (setTroy s n t).mem = s.mem := rfl
@[simp] theorem setTroy_flash (s : State) (n : Nat) (t : TroySlot) : (setTroy s n t).flash = s.flash := rfl
@[simp] theorem setTroy_ports (s : State) (n : Nat) (t : TroySlot) : (setTroy s n t).ports = s.ports := rfl
@[simp] theorem setTroy_atc (s : State) (n : Nat) (t : TroySlot) : (setTroy s n t).atc = s.atc := rfl
@[simp] theorem setTroy_funcs (s : State) (n : Nat) (t : TroySlot) : (setTroy s n t).funcs = s.funcs := rfl
@[simp] theorem setTroy_rings (s : State) (n : Nat) (t : TroySlot) : (setTroy s n t).rings = s.rings := rfl
@[simp] theorem setTroy_requests (s : State) (n : Nat) (t : TroySlot) : (setTroy s n t).requests = s.requests := rfl
@[simp] theorem setTroy_parked (s : State) (n : Nat) (t : TroySlot) : (setTroy s n t).parked = s.parked := rfl
@[simp] theorem setTroy_clear (s : State) (n : Nat) (t : TroySlot) : (setTroy s n t).clear = s.clear := rfl
@[simp] theorem setTroy_outs (s : State) (n : Nat) (t : TroySlot) : (setTroy s n t).outs = s.outs := rfl
@[simp] theorem setTroy_freeCount (s : State) (n : Nat) (t : TroySlot) : (setTroy s n t).freeCount = s.freeCount := rfl
@[simp] theorem setTroy_power (s : State) (n : Nat) (t : TroySlot) : (setTroy s n t).power = s.power := rfl
@[simp] theorem setTroy_voc (s : State) (n : Nat) (t : TroySlot) : (setTroy s n t).voc = s.voc := rfl
@[simp] theorem setTroy_grm (s : State) (n : Nat) (t : TroySlot) : (setTroy s n t).grm = s.grm := rfl
@[simp] theorem setTroy_tokLd (s : State) (n : Nat) (t : TroySlot) : (setTroy s n t).tokLd = s.tokLd := rfl
@[simp] theorem setTroy_tokUnld (s : State) (n : Nat) (t : TroySlot) : (setTroy s n t).tokUnld = s.tokUnld := rfl
@[simp] theorem setTroy_gathers (s : State) (n : Nat) (t : TroySlot) : (setTroy s n t).gathers = s.gathers := rfl
@[simp] theorem setTroy_selects (s : State) (n : Nat) (t : TroySlot) : (setTroy s n t).selects = s.selects := rfl
@[simp] theorem setTroy_idx (s : State) (n : Nat) (t : TroySlot) : (setTroy s n t).idx = s.idx := rfl
@[simp] theorem setTroy_srchLd (s : State) (n : Nat) (t : TroySlot) : (setTroy s n t).srchLd = s.srchLd := rfl
@[simp] theorem setTroy_srchUnld (s : State) (n : Nat) (t : TroySlot) : (setTroy s n t).srchUnld = s.srchUnld := rfl
@[simp] theorem setTroy_searches (s : State) (n : Nat) (t : TroySlot) : (setTroy s n t).searches = s.searches := rfl
@[simp] theorem setTroy_plan (s : State) (n : Nat) (t : TroySlot) : (setTroy s n t).plan = s.plan := rfl
@[simp] theorem setTroy_strand (s : State) (n : Nat) (t : TroySlot) : (setTroy s n t).strand = s.strand := rfl
@[simp] theorem setTroy_tpl (s : State) (n : Nat) (t : TroySlot) : (setTroy s n t).tpl = s.tpl := rfl
@[simp] theorem setTroy_tplUnld (s : State) (n : Nat) (t : TroySlot) : (setTroy s n t).tplUnld = s.tplUnld := rfl
@[simp] theorem setTroy_mtx (s : State) (n : Nat) (t : TroySlot) : (setTroy s n t).mtx = s.mtx := rfl
@[simp] theorem setTroy_prefills (s : State) (n : Nat) (t : TroySlot) : (setTroy s n t).prefills = s.prefills := rfl
@[simp] theorem setTroy_pools (s : State) (n : Nat) (t : TroySlot) : (setTroy s n t).pools = s.pools := rfl
@[simp] theorem setTroy_mtxCleared (s : State) (n : Nat) (t : TroySlot) : (setTroy s n t).mtxCleared = s.mtxCleared := rfl
@[simp] theorem setTroy_chain (s : State) (n : Nat) (t : TroySlot) : (setTroy s n t).chain = s.chain := rfl

@[simp] theorem setRequest_pending (s : State) (tag : Nat) (r : Request) : (setRequest s tag r).pending = s.pending := rfl
@[simp] theorem setRequest_mfg (s : State) (tag : Nat) (r : Request) : (setRequest s tag r).mfg = s.mfg := rfl
@[simp] theorem setRequest_supply (s : State) (tag : Nat) (r : Request) : (setRequest s tag r).supply = s.supply := rfl
@[simp] theorem setRequest_nor (s : State) (tag : Nat) (r : Request) : (setRequest s tag r).nor = s.nor := rfl
@[simp] theorem setRequest_assay (s : State) (tag : Nat) (r : Request) : (setRequest s tag r).assay = s.assay := rfl
@[simp] theorem setRequest_hmk (s : State) (tag : Nat) (r : Request) : (setRequest s tag r).hmk = s.hmk := rfl
@[simp] theorem setRequest_regs (s : State) (tag : Nat) (r : Request) : (setRequest s tag r).regs = s.regs := rfl
@[simp] theorem setRequest_force (s : State) (tag : Nat) (r : Request) : (setRequest s tag r).force = s.force := rfl
@[simp] theorem setRequest_xign (s : State) (tag : Nat) (r : Request) : (setRequest s tag r).xign = s.xign := rfl
@[simp] theorem setRequest_clk (s : State) (tag : Nat) (r : Request) : (setRequest s tag r).clk = s.clk := rfl
@[simp] theorem setRequest_fabric (s : State) (tag : Nat) (r : Request) : (setRequest s tag r).fabric = s.fabric := rfl
@[simp] theorem setRequest_coh (s : State) (tag : Nat) (r : Request) : (setRequest s tag r).coh = s.coh := rfl
@[simp] theorem setRequest_mem (s : State) (tag : Nat) (r : Request) : (setRequest s tag r).mem = s.mem := rfl
@[simp] theorem setRequest_flash (s : State) (tag : Nat) (r : Request) : (setRequest s tag r).flash = s.flash := rfl
@[simp] theorem setRequest_ports (s : State) (tag : Nat) (r : Request) : (setRequest s tag r).ports = s.ports := rfl
@[simp] theorem setRequest_atc (s : State) (tag : Nat) (r : Request) : (setRequest s tag r).atc = s.atc := rfl
@[simp] theorem setRequest_funcs (s : State) (tag : Nat) (r : Request) : (setRequest s tag r).funcs = s.funcs := rfl
@[simp] theorem setRequest_rings (s : State) (tag : Nat) (r : Request) : (setRequest s tag r).rings = s.rings := rfl
@[simp] theorem setRequest_parked (s : State) (tag : Nat) (r : Request) : (setRequest s tag r).parked = s.parked := rfl
@[simp] theorem setRequest_clear (s : State) (tag : Nat) (r : Request) : (setRequest s tag r).clear = s.clear := rfl
@[simp] theorem setRequest_outs (s : State) (tag : Nat) (r : Request) : (setRequest s tag r).outs = s.outs := rfl
@[simp] theorem setRequest_freeCount (s : State) (tag : Nat) (r : Request) : (setRequest s tag r).freeCount = s.freeCount := rfl
@[simp] theorem setRequest_power (s : State) (tag : Nat) (r : Request) : (setRequest s tag r).power = s.power := rfl
@[simp] theorem setRequest_voc (s : State) (tag : Nat) (r : Request) : (setRequest s tag r).voc = s.voc := rfl
@[simp] theorem setRequest_grm (s : State) (tag : Nat) (r : Request) : (setRequest s tag r).grm = s.grm := rfl
@[simp] theorem setRequest_tokLd (s : State) (tag : Nat) (r : Request) : (setRequest s tag r).tokLd = s.tokLd := rfl
@[simp] theorem setRequest_tokUnld (s : State) (tag : Nat) (r : Request) : (setRequest s tag r).tokUnld = s.tokUnld := rfl
@[simp] theorem setRequest_gathers (s : State) (tag : Nat) (r : Request) : (setRequest s tag r).gathers = s.gathers := rfl
@[simp] theorem setRequest_selects (s : State) (tag : Nat) (r : Request) : (setRequest s tag r).selects = s.selects := rfl
@[simp] theorem setRequest_idx (s : State) (tag : Nat) (r : Request) : (setRequest s tag r).idx = s.idx := rfl
@[simp] theorem setRequest_srchLd (s : State) (tag : Nat) (r : Request) : (setRequest s tag r).srchLd = s.srchLd := rfl
@[simp] theorem setRequest_srchUnld (s : State) (tag : Nat) (r : Request) : (setRequest s tag r).srchUnld = s.srchUnld := rfl
@[simp] theorem setRequest_searches (s : State) (tag : Nat) (r : Request) : (setRequest s tag r).searches = s.searches := rfl
@[simp] theorem setRequest_plan (s : State) (tag : Nat) (r : Request) : (setRequest s tag r).plan = s.plan := rfl
@[simp] theorem setRequest_strand (s : State) (tag : Nat) (r : Request) : (setRequest s tag r).strand = s.strand := rfl
@[simp] theorem setRequest_troy (s : State) (tag : Nat) (r : Request) : (setRequest s tag r).troy = s.troy := rfl
@[simp] theorem setRequest_tpl (s : State) (tag : Nat) (r : Request) : (setRequest s tag r).tpl = s.tpl := rfl
@[simp] theorem setRequest_tplUnld (s : State) (tag : Nat) (r : Request) : (setRequest s tag r).tplUnld = s.tplUnld := rfl
@[simp] theorem setRequest_mtx (s : State) (tag : Nat) (r : Request) : (setRequest s tag r).mtx = s.mtx := rfl
@[simp] theorem setRequest_prefills (s : State) (tag : Nat) (r : Request) : (setRequest s tag r).prefills = s.prefills := rfl
@[simp] theorem setRequest_pools (s : State) (tag : Nat) (r : Request) : (setRequest s tag r).pools = s.pools := rfl
@[simp] theorem setRequest_mtxCleared (s : State) (tag : Nat) (r : Request) : (setRequest s tag r).mtxCleared = s.mtxCleared := rfl
@[simp] theorem setRequest_chain (s : State) (tag : Nat) (r : Request) : (setRequest s tag r).chain = s.chain := rfl

@[simp] theorem setCoh_pending (s : State) (c : Coherence) : (setCoh s c).pending = s.pending := rfl
@[simp] theorem setCoh_mfg (s : State) (c : Coherence) : (setCoh s c).mfg = s.mfg := rfl
@[simp] theorem setCoh_supply (s : State) (c : Coherence) : (setCoh s c).supply = s.supply := rfl
@[simp] theorem setCoh_nor (s : State) (c : Coherence) : (setCoh s c).nor = s.nor := rfl
@[simp] theorem setCoh_assay (s : State) (c : Coherence) : (setCoh s c).assay = s.assay := rfl
@[simp] theorem setCoh_hmk (s : State) (c : Coherence) : (setCoh s c).hmk = s.hmk := rfl
@[simp] theorem setCoh_regs (s : State) (c : Coherence) : (setCoh s c).regs = s.regs := rfl
@[simp] theorem setCoh_force (s : State) (c : Coherence) : (setCoh s c).force = s.force := rfl
@[simp] theorem setCoh_xign (s : State) (c : Coherence) : (setCoh s c).xign = s.xign := rfl
@[simp] theorem setCoh_clk (s : State) (c : Coherence) : (setCoh s c).clk = s.clk := rfl
@[simp] theorem setCoh_fabric (s : State) (c : Coherence) : (setCoh s c).fabric = s.fabric := rfl
@[simp] theorem setCoh_mem (s : State) (c : Coherence) : (setCoh s c).mem = s.mem := rfl
@[simp] theorem setCoh_flash (s : State) (c : Coherence) : (setCoh s c).flash = s.flash := rfl
@[simp] theorem setCoh_ports (s : State) (c : Coherence) : (setCoh s c).ports = s.ports := rfl
@[simp] theorem setCoh_atc (s : State) (c : Coherence) : (setCoh s c).atc = s.atc := rfl
@[simp] theorem setCoh_funcs (s : State) (c : Coherence) : (setCoh s c).funcs = s.funcs := rfl
@[simp] theorem setCoh_rings (s : State) (c : Coherence) : (setCoh s c).rings = s.rings := rfl
@[simp] theorem setCoh_requests (s : State) (c : Coherence) : (setCoh s c).requests = s.requests := rfl
@[simp] theorem setCoh_parked (s : State) (c : Coherence) : (setCoh s c).parked = s.parked := rfl
@[simp] theorem setCoh_clear (s : State) (c : Coherence) : (setCoh s c).clear = s.clear := rfl
@[simp] theorem setCoh_outs (s : State) (c : Coherence) : (setCoh s c).outs = s.outs := rfl
@[simp] theorem setCoh_freeCount (s : State) (c : Coherence) : (setCoh s c).freeCount = s.freeCount := rfl
@[simp] theorem setCoh_power (s : State) (c : Coherence) : (setCoh s c).power = s.power := rfl
@[simp] theorem setCoh_voc (s : State) (c : Coherence) : (setCoh s c).voc = s.voc := rfl
@[simp] theorem setCoh_grm (s : State) (c : Coherence) : (setCoh s c).grm = s.grm := rfl
@[simp] theorem setCoh_tokLd (s : State) (c : Coherence) : (setCoh s c).tokLd = s.tokLd := rfl
@[simp] theorem setCoh_tokUnld (s : State) (c : Coherence) : (setCoh s c).tokUnld = s.tokUnld := rfl
@[simp] theorem setCoh_gathers (s : State) (c : Coherence) : (setCoh s c).gathers = s.gathers := rfl
@[simp] theorem setCoh_selects (s : State) (c : Coherence) : (setCoh s c).selects = s.selects := rfl
@[simp] theorem setCoh_idx (s : State) (c : Coherence) : (setCoh s c).idx = s.idx := rfl
@[simp] theorem setCoh_srchLd (s : State) (c : Coherence) : (setCoh s c).srchLd = s.srchLd := rfl
@[simp] theorem setCoh_srchUnld (s : State) (c : Coherence) : (setCoh s c).srchUnld = s.srchUnld := rfl
@[simp] theorem setCoh_searches (s : State) (c : Coherence) : (setCoh s c).searches = s.searches := rfl
@[simp] theorem setCoh_plan (s : State) (c : Coherence) : (setCoh s c).plan = s.plan := rfl
@[simp] theorem setCoh_strand (s : State) (c : Coherence) : (setCoh s c).strand = s.strand := rfl
@[simp] theorem setCoh_troy (s : State) (c : Coherence) : (setCoh s c).troy = s.troy := rfl
@[simp] theorem setCoh_tpl (s : State) (c : Coherence) : (setCoh s c).tpl = s.tpl := rfl
@[simp] theorem setCoh_tplUnld (s : State) (c : Coherence) : (setCoh s c).tplUnld = s.tplUnld := rfl
@[simp] theorem setCoh_mtx (s : State) (c : Coherence) : (setCoh s c).mtx = s.mtx := rfl
@[simp] theorem setCoh_prefills (s : State) (c : Coherence) : (setCoh s c).prefills = s.prefills := rfl
@[simp] theorem setCoh_pools (s : State) (c : Coherence) : (setCoh s c).pools = s.pools := rfl
@[simp] theorem setCoh_mtxCleared (s : State) (c : Coherence) : (setCoh s c).mtxCleared = s.mtxCleared := rfl
@[simp] theorem setCoh_chain (s : State) (c : Coherence) : (setCoh s c).chain = s.chain := rfl

@[simp] theorem memWrite_pending (s : State) (a : Nat) (d : List Byte) : (memWrite s a d).pending = s.pending := rfl
@[simp] theorem memWrite_mfg (s : State) (a : Nat) (d : List Byte) : (memWrite s a d).mfg = s.mfg := rfl
@[simp] theorem memWrite_supply (s : State) (a : Nat) (d : List Byte) : (memWrite s a d).supply = s.supply := rfl
@[simp] theorem memWrite_nor (s : State) (a : Nat) (d : List Byte) : (memWrite s a d).nor = s.nor := rfl
@[simp] theorem memWrite_assay (s : State) (a : Nat) (d : List Byte) : (memWrite s a d).assay = s.assay := rfl
@[simp] theorem memWrite_hmk (s : State) (a : Nat) (d : List Byte) : (memWrite s a d).hmk = s.hmk := rfl
@[simp] theorem memWrite_regs (s : State) (a : Nat) (d : List Byte) : (memWrite s a d).regs = s.regs := rfl
@[simp] theorem memWrite_force (s : State) (a : Nat) (d : List Byte) : (memWrite s a d).force = s.force := rfl
@[simp] theorem memWrite_xign (s : State) (a : Nat) (d : List Byte) : (memWrite s a d).xign = s.xign := rfl
@[simp] theorem memWrite_clk (s : State) (a : Nat) (d : List Byte) : (memWrite s a d).clk = s.clk := rfl
@[simp] theorem memWrite_fabric (s : State) (a : Nat) (d : List Byte) : (memWrite s a d).fabric = s.fabric := rfl
@[simp] theorem memWrite_coh (s : State) (a : Nat) (d : List Byte) : (memWrite s a d).coh = s.coh := rfl
@[simp] theorem memWrite_flash (s : State) (a : Nat) (d : List Byte) : (memWrite s a d).flash = s.flash := rfl
@[simp] theorem memWrite_ports (s : State) (a : Nat) (d : List Byte) : (memWrite s a d).ports = s.ports := rfl
@[simp] theorem memWrite_atc (s : State) (a : Nat) (d : List Byte) : (memWrite s a d).atc = s.atc := rfl
@[simp] theorem memWrite_funcs (s : State) (a : Nat) (d : List Byte) : (memWrite s a d).funcs = s.funcs := rfl
@[simp] theorem memWrite_rings (s : State) (a : Nat) (d : List Byte) : (memWrite s a d).rings = s.rings := rfl
@[simp] theorem memWrite_requests (s : State) (a : Nat) (d : List Byte) : (memWrite s a d).requests = s.requests := rfl
@[simp] theorem memWrite_parked (s : State) (a : Nat) (d : List Byte) : (memWrite s a d).parked = s.parked := rfl
@[simp] theorem memWrite_clear (s : State) (a : Nat) (d : List Byte) : (memWrite s a d).clear = s.clear := rfl
@[simp] theorem memWrite_outs (s : State) (a : Nat) (d : List Byte) : (memWrite s a d).outs = s.outs := rfl
@[simp] theorem memWrite_freeCount (s : State) (a : Nat) (d : List Byte) : (memWrite s a d).freeCount = s.freeCount := rfl
@[simp] theorem memWrite_power (s : State) (a : Nat) (d : List Byte) : (memWrite s a d).power = s.power := rfl
@[simp] theorem memWrite_voc (s : State) (a : Nat) (d : List Byte) : (memWrite s a d).voc = s.voc := rfl
@[simp] theorem memWrite_grm (s : State) (a : Nat) (d : List Byte) : (memWrite s a d).grm = s.grm := rfl
@[simp] theorem memWrite_tokLd (s : State) (a : Nat) (d : List Byte) : (memWrite s a d).tokLd = s.tokLd := rfl
@[simp] theorem memWrite_tokUnld (s : State) (a : Nat) (d : List Byte) : (memWrite s a d).tokUnld = s.tokUnld := rfl
@[simp] theorem memWrite_gathers (s : State) (a : Nat) (d : List Byte) : (memWrite s a d).gathers = s.gathers := rfl
@[simp] theorem memWrite_selects (s : State) (a : Nat) (d : List Byte) : (memWrite s a d).selects = s.selects := rfl
@[simp] theorem memWrite_idx (s : State) (a : Nat) (d : List Byte) : (memWrite s a d).idx = s.idx := rfl
@[simp] theorem memWrite_srchLd (s : State) (a : Nat) (d : List Byte) : (memWrite s a d).srchLd = s.srchLd := rfl
@[simp] theorem memWrite_srchUnld (s : State) (a : Nat) (d : List Byte) : (memWrite s a d).srchUnld = s.srchUnld := rfl
@[simp] theorem memWrite_searches (s : State) (a : Nat) (d : List Byte) : (memWrite s a d).searches = s.searches := rfl
@[simp] theorem memWrite_plan (s : State) (a : Nat) (d : List Byte) : (memWrite s a d).plan = s.plan := rfl
@[simp] theorem memWrite_strand (s : State) (a : Nat) (d : List Byte) : (memWrite s a d).strand = s.strand := rfl
@[simp] theorem memWrite_troy (s : State) (a : Nat) (d : List Byte) : (memWrite s a d).troy = s.troy := rfl
@[simp] theorem memWrite_tpl (s : State) (a : Nat) (d : List Byte) : (memWrite s a d).tpl = s.tpl := rfl
@[simp] theorem memWrite_tplUnld (s : State) (a : Nat) (d : List Byte) : (memWrite s a d).tplUnld = s.tplUnld := rfl
@[simp] theorem memWrite_mtx (s : State) (a : Nat) (d : List Byte) : (memWrite s a d).mtx = s.mtx := rfl
@[simp] theorem memWrite_prefills (s : State) (a : Nat) (d : List Byte) : (memWrite s a d).prefills = s.prefills := rfl
@[simp] theorem memWrite_pools (s : State) (a : Nat) (d : List Byte) : (memWrite s a d).pools = s.pools := rfl
@[simp] theorem memWrite_mtxCleared (s : State) (a : Nat) (d : List Byte) : (memWrite s a d).mtxCleared = s.mtxCleared := rfl
@[simp] theorem memWrite_chain (s : State) (a : Nat) (d : List Byte) : (memWrite s a d).chain = s.chain := rfl

@[simp] theorem emit_outs (s : State) (o : Out) : (emit s o).outs = s.outs ++ [o] := rfl
@[simp] theorem setRequest_requests (s : State) (tag : Nat) (r : Request) : (setRequest s tag r).requests = place s.requests tag r := rfl
@[simp] theorem setCoh_coh (s : State) (c : Coherence) : (setCoh s c).coh = c := rfl
@[simp] theorem setAtc_atc (s : State) (p : Nat) (v : List Cached) : (setAtc s p v).atc = mapSet (fun _ => []) s.atc p v := rfl

end Sys2Proof.Machine
end

