-- ==== Sys2Proof/Laws/Events.lean ====
section
/-! SUPPORT. Events: sending an event touches the rings, the functions' pending bits, the translations kept and the outputs, and nothing else. -/
namespace Sys2Proof.Machine

/-- A property that every step of a fold keeps, the fold keeps. -/
theorem foldl_keeps {α β γ : Type} (v : β → γ) (f : β → α → β) (h : ∀ b a, v (f b a) = v b) (l : List α) (b : β) :
    v (l.foldl f b) = v b := by
  induction l generalizing b with
  | nil => rfl
  | cons a l ih => simp [ih, h]

/-- An invariant that every step of a fold keeps, the fold keeps. -/
theorem foldl_inv {α β : Type} (P : β → Prop) (f : β → α → β) (h : ∀ b a, P b → P (f b a)) (l : List α) (b : β) (hb : P b) :
    P (l.foldl f b) := by
  induction l generalizing b with
  | nil => exact hb
  | cons a l ih => exact ih _ (h b a hb)

@[simp] theorem emit_sansEvents (s : State) (o : Out) : (emit s o).sansEvents = s.sansEvents := rfl

@[simp] theorem setFunc_sansEvents (s : State) (fn : FnId) (v : Func) : (setFunc s fn v).sansEvents = s.sansEvents := rfl

@[simp] theorem setEvt_sansEvents (s : State) (fn : FnId) (e : EvtRing) : (setEvt s fn e).sansEvents = s.sansEvents := rfl

@[simp] theorem setCq_sansEvents (s : State) (k : Nat) (c : CompRing) : (setCq s k c).sansEvents = s.sansEvents := rfl

@[simp] theorem setSq_sansEvents (s : State) (k : Nat) (c : SubRing) : (setSq s k c).sansEvents = s.sansEvents := rfl

@[simp] theorem sendMsix_sansEvents (s : State) (fn : FnId) (v : Nat) : (sendMsix s fn v).sansEvents = s.sansEvents := by
  unfold sendMsix; dsimp only; split
  · rfl
  · split <;> rfl

@[simp] theorem setAtc_sansEvents (s : State) (p : Nat) (c : List Cached) : (setAtc s p c).sansEvents = s.sansEvents := rfl

@[simp] theorem translate_sansEvents (s : State) (fn : FnId) (a : Nat) : (translate s fn a).sansEvents = s.sansEvents := by
  unfold translate; dsimp only; split <;> rfl

@[simp] theorem hostSend_sansEvents (s : State) (fn : FnId) (a : Nat) (d : List Byte) : (hostSend s fn a d).sansEvents = s.sansEvents := by
  unfold hostSend
  exact foldl_keeps State.sansEvents (fun (s : State) (p : Nat × Nat) =>
    emit (translate s fn p.1) (.hostWrite fn (pasidOf s fn) p.1 (slice d (p.1 - a) p.2))) (fun _ _ => by simp) _ _

@[simp] theorem evtWrite_sansEvents (s : State) (fn : FnId) (e : Event) : (evtWrite s fn e).sansEvents = s.sansEvents := by
  unfold evtWrite; dsimp only; split
  · simp
  · simp

@[simp] theorem evtLose_sansEvents (s : State) (fn : FnId) (n : Nat) : (evtLose s fn n).sansEvents = s.sansEvents := rfl

@[simp] theorem evtReport_sansEvents (s : State) (fn : FnId) : (evtReport s fn).sansEvents = s.sansEvents := by
  unfold evtReport; dsimp only; split <;> simp

@[simp] theorem evtPut_sansEvents (s : State) (fn : FnId) (e : Event) : (evtPut s fn e).sansEvents = s.sansEvents := by
  unfold evtPut; dsimp only; split
  · simp
  · split <;> simp

theorem evtDrain_sansEvents (s : State) (fn : FnId) (f : State → Event → State) (h : ∀ s e, (f s e).sansEvents = s.sansEvents) :
    (evtDrain s fn f).sansEvents = s.sansEvents := by
  unfold evtDrain; rw [foldl_keeps State.sansEvents f h]; rfl

@[simp] theorem evtDrop_sansEvents (s : State) (fn : FnId) : (evtDrop s fn).sansEvents = s.sansEvents :=
  evtDrain_sansEvents s fn _ (fun _ _ => rfl)

@[simp] theorem evtResume_sansEvents (s : State) (fn : FnId) : (evtResume s fn).sansEvents = s.sansEvents := by
  unfold evtResume; split
  · rw [evtDrain_sansEvents _ _ _ (fun s e => evtPut_sansEvents s fn e)]; simp
  · simp

@[simp] theorem deliverOwner_sansEvents (s : State) (e : Event) : (deliverOwner s e).sansEvents = s.sansEvents := by
  unfold deliverOwner; dsimp only; split
  · split
    · rfl
    · exact foldl_keeps State.sansEvents _ (fun b a => by simp) _ _
  · exact foldl_keeps State.sansEvents _ (fun b a => by simp) _ _

@[simp] theorem deliverTenant_sansEvents (s : State) (t : Nat) (e : Event) : (deliverTenant s t e).sansEvents = s.sansEvents := by
  unfold deliverTenant
  exact foldl_keeps State.sansEvents _ (fun b a => by split <;> simp) _ _

/-- Sending an event changes rings, functions' pending bits and outputs only. -/
@[simp] theorem raise_sansEvents (s : State) (t : Nat) (c : EventCode) (b f n d : Nat) :
    (raise s t c b f n d).sansEvents = s.sansEvents := by
  unfold raise; dsimp only; split
  · rfl
  · split
    · rw [deliverOwner_sansEvents]; rfl
    · rw [deliverTenant_sansEvents]; rfl

@[simp] theorem raise_pending (s : State) (t : Nat) (c : EventCode) (b f n d : Nat) : (raise s t c b f n d).pending = s.pending := by
  have h := congrArg State.pending (raise_sansEvents s t c b f n d); exact h
@[simp] theorem raise_mfg (s : State) (t : Nat) (c : EventCode) (b f n d : Nat) : (raise s t c b f n d).mfg = s.mfg := by
  have h := congrArg State.mfg (raise_sansEvents s t c b f n d); exact h
@[simp] theorem raise_supply (s : State) (t : Nat) (c : EventCode) (b f n d : Nat) : (raise s t c b f n d).supply = s.supply := by
  have h := congrArg State.supply (raise_sansEvents s t c b f n d); exact h
@[simp] theorem raise_nor (s : State) (t : Nat) (c : EventCode) (b f n d : Nat) : (raise s t c b f n d).nor = s.nor := by
  have h := congrArg State.nor (raise_sansEvents s t c b f n d); exact h
@[simp] theorem raise_assay (s : State) (t : Nat) (c : EventCode) (b f n d : Nat) : (raise s t c b f n d).assay = s.assay := by
  have h := congrArg State.assay (raise_sansEvents s t c b f n d); exact h
@[simp] theorem raise_hmk (s : State) (t : Nat) (c : EventCode) (b f n d : Nat) : (raise s t c b f n d).hmk = s.hmk := by
  have h := congrArg State.hmk (raise_sansEvents s t c b f n d); exact h
@[simp] theorem raise_regs (s : State) (t : Nat) (c : EventCode) (b f n d : Nat) : (raise s t c b f n d).regs = s.regs := by
  have h := congrArg State.regs (raise_sansEvents s t c b f n d); exact h
@[simp] theorem raise_force (s : State) (t : Nat) (c : EventCode) (b f n d : Nat) : (raise s t c b f n d).force = s.force := by
  have h := congrArg State.force (raise_sansEvents s t c b f n d); exact h
@[simp] theorem raise_xign (s : State) (t : Nat) (c : EventCode) (b f n d : Nat) : (raise s t c b f n d).xign = s.xign := by
  have h := congrArg State.xign (raise_sansEvents s t c b f n d); exact h
@[simp] theorem raise_clk (s : State) (t : Nat) (c : EventCode) (b f n d : Nat) : (raise s t c b f n d).clk = s.clk := by
  have h := congrArg State.clk (raise_sansEvents s t c b f n d); exact h
@[simp] theorem raise_fabric (s : State) (t : Nat) (c : EventCode) (b f n d : Nat) : (raise s t c b f n d).fabric = s.fabric := by
  have h := congrArg State.fabric (raise_sansEvents s t c b f n d); exact h
@[simp] theorem raise_coh (s : State) (t : Nat) (c : EventCode) (b f n d : Nat) : (raise s t c b f n d).coh = s.coh := by
  have h := congrArg State.coh (raise_sansEvents s t c b f n d); exact h
@[simp] theorem raise_mem (s : State) (t : Nat) (c : EventCode) (b f n d : Nat) : (raise s t c b f n d).mem = s.mem := by
  have h := congrArg State.mem (raise_sansEvents s t c b f n d); exact h
@[simp] theorem raise_flash (s : State) (t : Nat) (c : EventCode) (b f n d : Nat) : (raise s t c b f n d).flash = s.flash := by
  have h := congrArg State.flash (raise_sansEvents s t c b f n d); exact h
@[simp] theorem raise_ports (s : State) (t : Nat) (c : EventCode) (b f n d : Nat) : (raise s t c b f n d).ports = s.ports := by
  have h := congrArg State.ports (raise_sansEvents s t c b f n d); exact h
@[simp] theorem raise_requests (s : State) (t : Nat) (c : EventCode) (b f n d : Nat) : (raise s t c b f n d).requests = s.requests := by
  have h := congrArg State.requests (raise_sansEvents s t c b f n d); exact h
@[simp] theorem raise_parked (s : State) (t : Nat) (c : EventCode) (b f n d : Nat) : (raise s t c b f n d).parked = s.parked := by
  have h := congrArg State.parked (raise_sansEvents s t c b f n d); exact h
@[simp] theorem raise_clear (s : State) (t : Nat) (c : EventCode) (b f n d : Nat) : (raise s t c b f n d).clear = s.clear := by
  have h := congrArg State.clear (raise_sansEvents s t c b f n d); exact h
@[simp] theorem raise_freeCount (s : State) (t : Nat) (c : EventCode) (b f n d : Nat) : (raise s t c b f n d).freeCount = s.freeCount := by
  have h := congrArg State.freeCount (raise_sansEvents s t c b f n d); exact h
@[simp] theorem raise_power (s : State) (t : Nat) (c : EventCode) (b f n d : Nat) : (raise s t c b f n d).power = s.power := by
  have h := congrArg State.power (raise_sansEvents s t c b f n d); exact h
@[simp] theorem raise_voc (s : State) (t : Nat) (c : EventCode) (b f n d : Nat) : (raise s t c b f n d).voc = s.voc := by
  have h := congrArg State.voc (raise_sansEvents s t c b f n d); exact h
@[simp] theorem raise_grm (s : State) (t : Nat) (c : EventCode) (b f n d : Nat) : (raise s t c b f n d).grm = s.grm := by
  have h := congrArg State.grm (raise_sansEvents s t c b f n d); exact h
@[simp] theorem raise_tokLd (s : State) (t : Nat) (c : EventCode) (b f n d : Nat) : (raise s t c b f n d).tokLd = s.tokLd := by
  have h := congrArg State.tokLd (raise_sansEvents s t c b f n d); exact h
@[simp] theorem raise_tokUnld (s : State) (t : Nat) (c : EventCode) (b f n d : Nat) : (raise s t c b f n d).tokUnld = s.tokUnld := by
  have h := congrArg State.tokUnld (raise_sansEvents s t c b f n d); exact h
@[simp] theorem raise_gathers (s : State) (t : Nat) (c : EventCode) (b f n d : Nat) : (raise s t c b f n d).gathers = s.gathers := by
  have h := congrArg State.gathers (raise_sansEvents s t c b f n d); exact h
@[simp] theorem raise_selects (s : State) (t : Nat) (c : EventCode) (b f n d : Nat) : (raise s t c b f n d).selects = s.selects := by
  have h := congrArg State.selects (raise_sansEvents s t c b f n d); exact h
@[simp] theorem raise_idx (s : State) (t : Nat) (c : EventCode) (b f n d : Nat) : (raise s t c b f n d).idx = s.idx := by
  have h := congrArg State.idx (raise_sansEvents s t c b f n d); exact h
@[simp] theorem raise_srchLd (s : State) (t : Nat) (c : EventCode) (b f n d : Nat) : (raise s t c b f n d).srchLd = s.srchLd := by
  have h := congrArg State.srchLd (raise_sansEvents s t c b f n d); exact h
@[simp] theorem raise_srchUnld (s : State) (t : Nat) (c : EventCode) (b f n d : Nat) : (raise s t c b f n d).srchUnld = s.srchUnld := by
  have h := congrArg State.srchUnld (raise_sansEvents s t c b f n d); exact h
@[simp] theorem raise_searches (s : State) (t : Nat) (c : EventCode) (b f n d : Nat) : (raise s t c b f n d).searches = s.searches := by
  have h := congrArg State.searches (raise_sansEvents s t c b f n d); exact h
@[simp] theorem raise_plan (s : State) (t : Nat) (c : EventCode) (b f n d : Nat) : (raise s t c b f n d).plan = s.plan := by
  have h := congrArg State.plan (raise_sansEvents s t c b f n d); exact h
@[simp] theorem raise_strand (s : State) (t : Nat) (c : EventCode) (b f n d : Nat) : (raise s t c b f n d).strand = s.strand := by
  have h := congrArg State.strand (raise_sansEvents s t c b f n d); exact h
@[simp] theorem raise_troy (s : State) (t : Nat) (c : EventCode) (b f n d : Nat) : (raise s t c b f n d).troy = s.troy := by
  have h := congrArg State.troy (raise_sansEvents s t c b f n d); exact h
@[simp] theorem raise_tpl (s : State) (t : Nat) (c : EventCode) (b f n d : Nat) : (raise s t c b f n d).tpl = s.tpl := by
  have h := congrArg State.tpl (raise_sansEvents s t c b f n d); exact h
@[simp] theorem raise_tplUnld (s : State) (t : Nat) (c : EventCode) (b f n d : Nat) : (raise s t c b f n d).tplUnld = s.tplUnld := by
  have h := congrArg State.tplUnld (raise_sansEvents s t c b f n d); exact h
@[simp] theorem raise_mtx (s : State) (t : Nat) (c : EventCode) (b f n d : Nat) : (raise s t c b f n d).mtx = s.mtx := by
  have h := congrArg State.mtx (raise_sansEvents s t c b f n d); exact h
@[simp] theorem raise_prefills (s : State) (t : Nat) (c : EventCode) (b f n d : Nat) : (raise s t c b f n d).prefills = s.prefills := by
  have h := congrArg State.prefills (raise_sansEvents s t c b f n d); exact h
@[simp] theorem raise_pools (s : State) (t : Nat) (c : EventCode) (b f n d : Nat) : (raise s t c b f n d).pools = s.pools := by
  have h := congrArg State.pools (raise_sansEvents s t c b f n d); exact h
@[simp] theorem raise_mtxCleared (s : State) (t : Nat) (c : EventCode) (b f n d : Nat) : (raise s t c b f n d).mtxCleared = s.mtxCleared := by
  have h := congrArg State.mtxCleared (raise_sansEvents s t c b f n d); exact h
@[simp] theorem raise_chain (s : State) (t : Nat) (c : EventCode) (b f n d : Nat) : (raise s t c b f n d).chain = s.chain := by
  have h := congrArg State.chain (raise_sansEvents s t c b f n d); exact h

end Sys2Proof.Machine
end

