-- ==== Sys2Proof/Laws/KMap.lean ====
section
/-! SUPPORT. KMap: a read after a write, and that every operation keeps the canonical form. -/
namespace Sys2Proof.Machine

@[simp] theorem look_place_same {α : Type} (m : KMap α) (k : Nat) (v : α) : look (place m k v) k = some v := by
  induction m with
  | nil => simp [place, look]
  | cons p m ih =>
    obtain ⟨a, w⟩ := p
    simp only [place]
    split
    · simp [look]
    · split
      · simp [look]
      · rename_i h1 h2
        have : a ≠ k := fun h => h2 h.symm
        simp [look, this, ih]

@[simp] theorem look_place_ne {α : Type} (m : KMap α) (k j : Nat) (v : α) (h : k ≠ j) :
    look (place m k v) j = look m j := by
  induction m with
  | nil => simp [place, look, h]
  | cons p m ih =>
    obtain ⟨a, w⟩ := p
    simp only [place]
    split
    · simp [look, h]
    · split
      · rename_i h2; subst h2; simp [look, h]
      · simp only [look, ih]

@[simp] theorem look_remove_same {α : Type} (m : KMap α) (k : Nat) : look (remove m k) k = none := by
  induction m with
  | nil => rfl
  | cons p m ih =>
    obtain ⟨a, w⟩ := p
    simp only [remove, List.filter_cons] at ih ⊢
    by_cases h : a = k
    · subst h; simpa using ih
    · simp [h, look, ih]

@[simp] theorem look_remove_ne {α : Type} (m : KMap α) (k j : Nat) (h : k ≠ j) : look (remove m k) j = look m j := by
  induction m with
  | nil => rfl
  | cons p m ih =>
    obtain ⟨a, w⟩ := p
    simp only [remove, List.filter_cons] at ih ⊢
    by_cases hk : a = k
    · subst hk; simp [look, h, ih]
    · simp [hk, look, ih]

@[simp] theorem mapGet_mapSet_same {α : Type} [DecidableEq α] (d : Nat → α) (m : KMap α) (k : Nat) (v : α) :
    mapGet d (mapSet d m k v) k = v := by
  unfold mapGet mapSet
  split
  · rename_i h; simp [h]
  · simp

@[simp] theorem mapGet_mapSet_ne {α : Type} [DecidableEq α] (d : Nat → α) (m : KMap α) (k j : Nat) (v : α) (h : k ≠ j) :
    mapGet d (mapSet d m k v) j = mapGet d m j := by
  unfold mapGet mapSet
  split <;> simp [h]

theorem mapGet_mapSet {α : Type} [DecidableEq α] (d : Nat → α) (m : KMap α) (k j : Nat) (v : α) :
    mapGet d (mapSet d m k v) j = if k = j then v else mapGet d m j := by
  by_cases h : k = j
  · subst h; simp
  · simp [h]

theorem risingFrom_mono {α : Type} : ∀ (m : KMap α) (lo lo' : Nat), lo' ≤ lo → risingFrom lo m = true → risingFrom lo' m = true
  | [], _, _, _, _ => rfl
  | (a, _) :: m, lo, lo', h, hm => by
    simp only [risingFrom, Bool.and_eq_true, decide_eq_true_eq] at hm ⊢
    exact ⟨by omega, hm.2⟩

theorem risingFrom_place {α : Type} : ∀ (m : KMap α) (lo k : Nat) (v : α), lo ≤ k → risingFrom lo m = true →
    risingFrom lo (place m k v) = true
  | [], lo, k, v, h, _ => by simp [place, risingFrom, h]
  | (a, w) :: m, lo, k, v, h, hm => by
    simp only [risingFrom, Bool.and_eq_true, decide_eq_true_eq] at hm
    simp only [place]
    split
    · simp only [risingFrom, Bool.and_eq_true, decide_eq_true_eq]; exact ⟨h, by omega, hm.2⟩
    · split
      · rename_i h2; subst h2; simp only [risingFrom, Bool.and_eq_true, decide_eq_true_eq]; exact ⟨h, hm.2⟩
      · simp only [risingFrom, Bool.and_eq_true, decide_eq_true_eq]
        exact ⟨hm.1, risingFrom_place m (a + 1) k v (by omega) hm.2⟩

theorem risingFrom_filter {α : Type} (f : Nat × α → Bool) : ∀ (m : KMap α) (lo : Nat), risingFrom lo m = true →
    risingFrom lo (m.filter f) = true
  | [], _, _ => rfl
  | (a, w) :: m, lo, hm => by
    simp only [risingFrom, Bool.and_eq_true, decide_eq_true_eq] at hm
    simp only [List.filter_cons]
    split
    · simp only [risingFrom, Bool.and_eq_true, decide_eq_true_eq]
      exact ⟨hm.1, risingFrom_filter f m (a + 1) hm.2⟩
    · exact risingFrom_mono _ (a + 1) lo (by omega) (risingFrom_filter f m (a + 1) hm.2)

theorem rising_place {α : Type} (m : KMap α) (k : Nat) (v : α) (h : rising m = true) : rising (place m k v) = true :=
  risingFrom_place m 0 k v (Nat.zero_le k) h

theorem rising_remove {α : Type} (m : KMap α) (k : Nat) (h : rising m = true) : rising (remove m k) = true :=
  risingFrom_filter _ m 0 h

theorem all_place {α : Type} (f : Nat × α → Bool) : ∀ (m : KMap α) (k : Nat) (v : α), m.all f = true → f (k, v) = true →
    (place m k v).all f = true
  | [], k, v, _, h => by simp [place, h]
  | (a, w) :: m, k, v, hm, h => by
    simp only [List.all_cons, Bool.and_eq_true] at hm
    simp only [place]
    split
    · simp [h, hm.1, hm.2]
    · split
      · simp [h, hm.2]
      · simp only [List.all_cons, Bool.and_eq_true]; exact ⟨hm.1, all_place f m k v hm.2 h⟩

theorem all_filter {α : Type} (f g : α → Bool) (m : List α) (h : m.all f = true) : (m.filter g).all f = true := by
  simp only [List.all_eq_true, List.mem_filter] at h ⊢
  exact fun x hx => h x hx.1

/-- A map's canonical form after any removal of entries. -/
theorem mapWf_filter {α : Type} [DecidableEq α] (d : Nat → α) (m : KMap α) (g : Nat × α → Bool) (h : mapWf d m = true) :
    mapWf d (m.filter g) = true := by
  simp only [mapWf, rising, Bool.and_eq_true] at h ⊢
  exact ⟨risingFrom_filter g m 0 h.1, all_filter _ g m h.2⟩

/-- Every write keeps the canonical form: rising keys, and no entry equal to its default. -/
theorem mapWf_mapSet {α : Type} [DecidableEq α] (d : Nat → α) (m : KMap α) (k : Nat) (v : α) (h : mapWf d m = true) :
    mapWf d (mapSet d m k v) = true := by
  unfold mapSet
  split
  · exact mapWf_filter d m _ h
  · rename_i hv
    simp only [mapWf, Bool.and_eq_true] at h ⊢
    exact ⟨rising_place m k v h.1, all_place _ m k v h.2 (by simp [hv])⟩

theorem mapWf_nil {α : Type} [DecidableEq α] (d : Nat → α) : mapWf d ([] : KMap α) = true := rfl

end Sys2Proof.Machine
end

