-- ==== Sys2Proof/Laws/Memory.lean ====
section
/-! SUPPORT. Memory: a read after a write, and that every memory operation keeps the canonical form of device memory. -/
namespace Sys2Proof.Machine

theorem mapGet_putBytes (d : List Byte) : ∀ (m : KMap Byte) (a b : Nat),
    mapGet (fun _ => 0#8) (putBytes m a d) b =
      if a ≤ b ∧ b < a + d.length then d.getD (b - a) 0#8 else mapGet (fun _ => 0#8) m b := by
  induction d with
  | nil => intro m a b; rw [if_neg (by simp only [List.length_nil]; omega)]; rfl
  | cons x xs ih =>
    intro m a b
    simp only [putBytes, ih, mapGet_mapSet, List.length_cons]
    by_cases h1 : a + 1 ≤ b ∧ b < a + 1 + xs.length
    · have h2 : a ≤ b ∧ b < a + (xs.length + 1) := by omega
      obtain ⟨k, hk⟩ : ∃ k, b - a = k + 1 := ⟨b - a - 1, by omega⟩
      have hk' : b - (a + 1) = k := by omega
      rw [if_pos h1, if_pos h2, hk, hk', List.getD_cons_succ]
    · rw [if_neg h1]
      by_cases h3 : a = b
      · subst h3
        rw [if_pos rfl, if_pos (by omega), Nat.sub_self, List.getD_cons_zero]
      · rw [if_neg h3, if_neg (by omega)]

theorem putBytes_wf (d : List Byte) : ∀ (m : KMap Byte) (a : Nat), mapWf (fun _ => 0#8) m = true →
    mapWf (fun _ => 0#8) (putBytes m a d) = true := by
  induction d with
  | nil => intro m a h; exact h
  | cons x xs ih => intro m a h; exact ih _ _ (mapWf_mapSet _ _ _ _ h)

@[simp] theorem cleanWrite_bytes (m : Memory) (a n : Nat) : (cleanWrite m a n).bytes = m.bytes := by
  unfold cleanWrite; split <;> rfl

@[simp] theorem poisonRange_bytes (s : State) (a n : Nat) (o : Origin) : (poisonRange s a n o).mem.bytes = s.mem.bytes := by
  unfold poisonRange; split <;> rfl

/-- A byte after a clean write: the byte written, inside the bytes written; outside them as before. -/
theorem memByte_memWrite (s : State) (a : Nat) (d : List Byte) (b : Nat) :
    memByte (memWrite s a d) b = if a ≤ b ∧ b < a + d.length then d.getD (b - a) 0#8 else memByte s b := by
  simp only [memByte, memWrite]; exact mapGet_putBytes d _ a b

/-- A byte after a write that may carry poison: as after a clean write. -/
theorem memByte_memWriteP (s : State) (a : Nat) (d : List Byte) (p : Option Origin) (b : Nat) :
    memByte (memWriteP s a d p) b = if a ≤ b ∧ b < a + d.length then d.getD (b - a) 0#8 else memByte s b := by
  unfold memWriteP
  cases p with
  | none => exact memByte_memWrite s a d b
  | some o => simp only [memByte, poisonRange_bytes]; exact mapGet_putBytes d _ a b

theorem memWrite_wf (s : State) (a : Nat) (d : List Byte) (h : s.mem.wf = true) : (memWrite s a d).mem.wf = true := by
  simpa [Memory.wf, memWrite] using putBytes_wf d s.mem.bytes a h

theorem poisonRange_wf (s : State) (a n : Nat) (o : Origin) (h : s.mem.wf = true) : (poisonRange s a n o).mem.wf = true := by
  simpa [Memory.wf] using h

theorem memWriteP_wf (s : State) (a : Nat) (d : List Byte) (p : Option Origin) (h : s.mem.wf = true) :
    (memWriteP s a d p).mem.wf = true := by
  unfold memWriteP
  cases p with
  | none => exact memWrite_wf s a d h
  | some o => simpa [Memory.wf] using putBytes_wf d s.mem.bytes a h

theorem reset_memory_wf : State.reset.mem.wf = true := rfl

end Sys2Proof.Machine
end

