-- ==== Sys2Proof/Laws/Registers.lean ====
section
/-! SUPPORT. Registers: what a register or a field of one reads after a write, and that writes keep the canonical form. -/
namespace Sys2Proof.Machine

@[simp] theorem regGet_regSet_same (s : State) (k : Nat) (w : Word) : regGet (regSet s k w) k = w := by
  simp [regGet, regSet]

@[simp] theorem regGet_regSet_ne (s : State) (k j : Nat) (w : Word) (h : k ≠ j) : regGet (regSet s k w) j = regGet s j := by
  simp [regGet, regSet, h]

theorem regGet_regSet (s : State) (k j : Nat) (w : Word) : regGet (regSet s k w) j = if k = j then w else regGet s j := by
  by_cases h : k = j
  · subst h; simp
  · simp [h]

/-- A field of a register reads what was last written to it. -/
@[simp] theorem regFld_regSetFld_same (s : State) (k lo n v : Nat) (h : lo + n ≤ 32) :
    regFld (regSetFld s k lo n v) k lo n = v % 2 ^ n := by
  simp [regFld, regSetFld, fld_setFld_same _ _ _ _ h]

/-- A field of a register is left by a write of a field that does not overlap it. -/
theorem regFld_regSetFld_ne (s : State) (k lo n v k' lo' n' : Nat) (h : k ≠ k' ∨ lo' + n' ≤ lo ∨ lo + n ≤ lo') :
    regFld (regSetFld s k lo n v) k' lo' n' = regFld s k' lo' n' := by
  unfold regFld regSetFld
  by_cases hk : k = k'
  · subst hk
    simp only [regGet_regSet_same]
    exact fld_setFld_ne _ _ _ _ _ _ (h.resolve_left (fun f => f rfl))
  · simp [hk]

@[simp] theorem regGet_bump_ne (s : State) (k lo n d j : Nat) (h : k ≠ j) : regGet (bump s k lo n d) j = regGet s j := by
  simp [bump, h]

/-- A count after it is raised: saturating. -/
@[simp] theorem regFld_bump_same (s : State) (k lo n d : Nat) (h : lo + n ≤ 32) :
    regFld (bump s k lo n d) k lo n = min (regFld s k lo n + d) (2 ^ n - 1) := by
  simp [regFld, bump, fld_bumpFld _ _ _ _ h]

@[simp] theorem regFld_peak_same (s : State) (k lo n v : Nat) (h : lo + n ≤ 32) :
    regFld (peak s k lo n v) k lo n = min (max (regFld s k lo n) v) (2 ^ n - 1) := by
  simp [regFld, peak, fld_peakFld _ _ _ _ h]

/-- Registers are in canonical form after every write. -/
theorem regSet_wf (s : State) (k : Nat) (w : Word) (h : mapWf resetWord s.regs = true) :
    mapWf resetWord (regSet s k w).regs = true := mapWf_mapSet _ _ _ _ h

end Sys2Proof.Machine
end

