-- ==== Sys2Proof/Laws/Keeps.lean ====
section
/-! SUPPORT. Keeps: what every shared operation keeps: the canonical form of the state's tables, the queue, and what manufacture
fixed; and what ending a request leaves. Each lemma is stated from a starting state s0, so that a chain of operations is
followed from the outside in. -/
namespace Sys2Proof.Machine

/-- From s0 to t the canonical form is kept, and the queue and what manufacture fixed stay. -/
def State.Keeps (s0 t : State) : Prop := (s0.wf = true → t.wf = true) ∧ t.pending = s0.pending ∧ t.mfg = s0.mfg

variable {s0 s : State}

theorem keeps_refl (s : State) : s.Keeps s := ⟨id, rfl, rfl⟩

theorem keeps_trans {t : State} (h : s0.Keeps s) (k : s.Keeps t) : s0.Keeps t :=
  ⟨fun w => k.1 (h.1 w), k.2.1.trans h.2.1, k.2.2.trans h.2.2⟩

/-- The four tables of the canonical form. -/
theorem wf_iff (s : State) : s.wf = true ↔
    s.mem.wf = true ∧ mapWf resetWord s.regs = true ∧ mapWf resetWord s.force = true ∧ rising s.requests = true := by
  simp only [State.wf, Bool.and_eq_true, and_assoc]

/-- A change outside the tables, the queue and the fixed part. -/
theorem keeps_same {t : State} (h : s0.Keeps s) (hm : t.mem.bytes = s.mem.bytes) (hr : t.regs = s.regs) (hf : t.force = s.force)
    (hq : t.requests = s.requests) (hp : t.pending = s.pending) (hg : t.mfg = s.mfg) : s0.Keeps t := by
  refine keeps_trans h ⟨fun w => ?_, hp, hg⟩
  rw [wf_iff] at w ⊢
  simpa only [Memory.wf, hm, hr, hf, hq] using w

theorem keeps_ite {p : Prop} [Decidable p] {a b : State} (ha : s0.Keeps a) (hb : s0.Keeps b) : s0.Keeps (if p then a else b) := by
  split <;> assumption

theorem keeps_foldl {α : Type} (f : State → α → State) (hf : ∀ t a, s0.Keeps t → s0.Keeps (f t a)) (l : List α)
    (h : s0.Keeps s) : s0.Keeps (l.foldl f s) := foldl_inv (fun t => s0.Keeps t) f hf l s h

theorem keeps_andThen {α β : Type} (x : Reading α) (f : State → α → Reading β) (hx : s0.Keeps x.1)
    (hf : ∀ t a, s0.Keeps t → s0.Keeps (f t a).1) : s0.Keeps (Got.andThen x f).1 := by
  unfold Got.andThen; split
  · exact hf _ _ hx
  · exact hx
  · exact hx

/-! ## Registers and memory -/

theorem regSet_keeps (k : Nat) (w : Word) (h : s0.Keeps s) : s0.Keeps (regSet s k w) := by
  refine keeps_trans h ⟨fun hw => ?_, rfl, rfl⟩
  rw [wf_iff] at hw ⊢
  exact ⟨hw.1, mapWf_mapSet _ _ _ _ hw.2.1, hw.2.2⟩

theorem regSetFld_keeps (k lo n v : Nat) (h : s0.Keeps s) : s0.Keeps (regSetFld s k lo n v) := regSet_keeps _ _ h
theorem bump_keeps (k lo n v : Nat) (h : s0.Keeps s) : s0.Keeps (bump s k lo n v) := regSet_keeps _ _ h
theorem peak_keeps (k lo n v : Nat) (h : s0.Keeps s) : s0.Keeps (peak s k lo n v) := regSet_keeps _ _ h

/-- Registers cleared by removing them keep the canonical form. -/
theorem regsFilter_keeps (g : Nat × Word → Bool) (h : s0.Keeps s) : s0.Keeps { s with regs := s.regs.filter g } := by
  refine keeps_trans h ⟨fun hw => ?_, rfl, rfl⟩
  rw [wf_iff] at hw ⊢
  exact ⟨hw.1, mapWf_filter _ _ _ hw.2.1, hw.2.2⟩

theorem memWrite_keeps (a : Nat) (d : List Byte) (h : s0.Keeps s) : s0.Keeps (memWrite s a d) := by
  refine keeps_trans h ⟨fun hw => ?_, rfl, rfl⟩
  rw [wf_iff] at hw ⊢
  exact ⟨memWrite_wf s a d hw.1, hw.2⟩

theorem spoilBytes_keeps (a n : Nat) (h : s0.Keeps s) : s0.Keeps (spoilBytes s a n) := by
  refine keeps_trans h ⟨fun hw => ?_, rfl, rfl⟩
  rw [wf_iff] at hw ⊢
  exact ⟨putBytes_wf _ s.mem.bytes a hw.1, hw.2⟩

theorem poisonRange_keeps (a n : Nat) (o : Origin) (h : s0.Keeps s) : s0.Keeps (poisonRange s a n o) := by
  unfold poisonRange; split
  · exact h
  · exact keeps_same h rfl rfl rfl rfl rfl rfl

theorem memWriteP_keeps (a : Nat) (d : List Byte) (p : Option Origin) (h : s0.Keeps s) : s0.Keeps (memWriteP s a d p) := by
  unfold memWriteP
  cases p with
  | none => exact memWrite_keeps a d h
  | some o =>
    refine poisonRange_keeps _ _ _ (keeps_trans h ⟨fun hw => ?_, rfl, rfl⟩)
    rw [wf_iff] at hw ⊢
    exact ⟨putBytes_wf d s.mem.bytes a hw.1, hw.2⟩

/-- Bytes removed keep the canonical form. -/
theorem memFilter_keeps (g : Nat × Byte → Bool) (m : Memory) (hb : m.bytes = s.mem.bytes.filter g) (h : s0.Keeps s) :
    s0.Keeps { s with mem := m } := by
  refine keeps_trans h ⟨fun hw => ?_, rfl, rfl⟩
  rw [wf_iff] at hw ⊢
  refine ⟨?_, hw.2⟩
  rw [Memory.wf, hb]
  exact mapWf_filter _ _ _ hw.1

/-! ## Events and outputs -/

/-- What leaves all but rings, pending bits and outputs alone keeps the rest. -/
theorem keeps_events {t : State} (h : s0.Keeps s) (e : t.sansEvents = s.sansEvents) : s0.Keeps t := by
  have hm := congrArg (fun u : State => u.mem.bytes) e
  have hr := congrArg State.regs e
  have hf := congrArg State.force e
  have hq := congrArg State.requests e
  have hp := congrArg State.pending e
  have hg := congrArg State.mfg e
  exact keeps_same h hm hr hf hq hp hg

theorem emit_keeps (o : Out) (h : s0.Keeps s) : s0.Keeps (emit s o) := keeps_events h (emit_sansEvents s o)
theorem setPort_keeps (p : Nat) (v : Port) (h : s0.Keeps s) : s0.Keeps (setPort s p v) := keeps_same h rfl rfl rfl rfl rfl rfl
theorem setFunc_keeps (fn : FnId) (v : Func) (h : s0.Keeps s) : s0.Keeps (setFunc s fn v) := keeps_events h (setFunc_sansEvents s fn v)
theorem setSq_keeps (k : Nat) (c : SubRing) (h : s0.Keeps s) : s0.Keeps (setSq s k c) := keeps_events h (setSq_sansEvents s k c)
theorem setCq_keeps (k : Nat) (c : CompRing) (h : s0.Keeps s) : s0.Keeps (setCq s k c) := keeps_events h (setCq_sansEvents s k c)
theorem setEvt_keeps (fn : FnId) (e : EvtRing) (h : s0.Keeps s) : s0.Keeps (setEvt s fn e) := keeps_events h (setEvt_sansEvents s fn e)
theorem sendMsix_keeps (fn : FnId) (v : Nat) (h : s0.Keeps s) : s0.Keeps (sendMsix s fn v) := keeps_events h (sendMsix_sansEvents s fn v)
theorem evtReport_keeps (fn : FnId) (h : s0.Keeps s) : s0.Keeps (evtReport s fn) := keeps_events h (evtReport_sansEvents s fn)
theorem raise_keeps (t : Nat) (c : EventCode) (b f n d : Nat) (h : s0.Keeps s) : s0.Keeps (raise s t c b f n d) :=
  keeps_events h (raise_sansEvents s t c b f n d)
theorem setTroy_keeps (n : Nat) (t : TroySlot) (h : s0.Keeps s) : s0.Keeps (setTroy s n t) := keeps_same h rfl rfl rfl rfl rfl rfl

theorem setMem_keeps (m : Memory) (hb : m.bytes = s.mem.bytes) (h : s0.Keeps s) : s0.Keeps { s with mem := m } :=
  keeps_same h hb rfl rfl rfl rfl rfl

theorem poisoning_keeps (f : Nat) (o : Origin) (isFca : Bool) (addr : Nat) (tenant : Option Nat) (h : s0.Keeps s) :
    s0.Keeps (poisoning s f o isFca addr tenant) := by
  have hb := bump_keeps (fKey f 0x00044) (poisonFld o) 8 1 h
  unfold poisoning
  generalize bump s (fKey f 0x00044) (poisonFld o) 8 1 = u at hb ⊢
  dsimp only
  refine keeps_ite (bump_keeps _ _ _ _ hb) ?_
  cases tenant with
  | none => exact raise_keeps _ _ _ _ _ _ (setMem_keeps _ rfl hb)
  | some t => exact keeps_ite (raise_keeps _ _ _ _ _ _ (setMem_keeps _ rfl hb)) (raise_keeps _ _ _ _ _ _ (raise_keeps _ _ _ _ _ _ (setMem_keeps _ rfl hb)))

theorem rowCorrected_keeps (r : RowId) (h : s0.Keeps s) : s0.Keeps (rowCorrected s r) := by
  unfold rowCorrected; dsimp only; split <;> exact keeps_same h rfl rfl rfl rfl rfl rfl

theorem noteWeak_keeps (g : Nat) (h : s0.Keeps s) : s0.Keeps (noteWeak s g) := by
  unfold noteWeak; split
  · exact h
  · dsimp only; split
    · exact rowCorrected_keeps _ (bump_keeps _ _ _ _ h)
    · exact bump_keeps _ _ _ _ h

theorem noteRead_keeps (t a n : Nat) (h : s0.Keeps s) : s0.Keeps (noteRead s t a n) := by
  unfold noteRead; split
  · exact h
  · exact keeps_foldl _ (fun u k hu => poisoning_keeps _ _ _ _ _ hu) _
      (keeps_foldl _ (fun u g hu => bump_keeps _ _ _ _ hu) _ (keeps_foldl _ (fun u g hu => noteWeak_keeps g hu) _ h))

/-! ## Requests -/

theorem noteParts_keeps (t a n : Nat) (h : s0.Keeps s) : s0.Keeps (noteParts s t a n) := by
  unfold noteParts; split
  · exact h
  · exact keeps_foldl _ (fun u g hu => noteRead_keeps t g _ hu) _ h

theorem setRequest_keeps (tag : Nat) (r : Request) (h : s0.Keeps s) : s0.Keeps (setRequest s tag r) := by
  refine keeps_trans h ⟨fun hw => ?_, rfl, rfl⟩
  rw [wf_iff] at hw ⊢
  exact ⟨hw.1, hw.2.1, hw.2.2.1, rising_place _ _ _ hw.2.2.2⟩

theorem removeRequest_keeps (tag : Nat) (p : KMap (Status × List Nat)) (h : s0.Keeps s) :
    s0.Keeps { s with requests := remove s.requests tag, parked := p } := by
  refine keeps_trans h ⟨fun hw => ?_, rfl, rfl⟩
  rw [wf_iff] at hw ⊢
  exact ⟨hw.1, hw.2.1, hw.2.2.1, rising_remove _ _ hw.2.2.2⟩

@[simp] theorem writeEntry_sansEvents (s : State) (r : Request) (fn : FnId) (a : Nat) (bytes : List Byte) :
    (writeEntry s r fn a bytes).sansEvents = s.sansEvents := by
  unfold writeEntry; split <;> simp

@[simp] theorem signalCq_sansEvents (s : State) (fn : FnId) (ck : Nat) : (signalCq s fn ck).sansEvents = s.sansEvents := by
  unfold signalCq; split <;> simp only [sendMsix_sansEvents]

theorem postEntry_sansEvents (s : State) (r : Request) (st : Status) (result : List Nat) (more : Bool) :
    (postEntry s r st result more).sansEvents = s.sansEvents := by
  unfold postEntry
  cases r.source with
  | peer k => rfl
  | ring fn ring index cq l =>
    dsimp only
    split
    · simp only [setCq_sansEvents, writeEntry_sansEvents]
    · split <;> simp only [signalCq_sansEvents, setCq_sansEvents, writeEntry_sansEvents]

theorem postEntry_keeps (r : Request) (st : Status) (result : List Nat) (more : Bool) (h : s0.Keeps s) :
    s0.Keeps (postEntry s r st result more) := keeps_events h (postEntry_sansEvents s r st result more)

theorem releaseOwed_keeps (r : Request) (h : s0.Keeps s) : s0.Keeps (releaseOwed s r) := by
  unfold releaseOwed
  cases r.source with
  | peer k => exact h
  | ring fn ring index cq l => exact setCq_keeps _ _ h

theorem dropCopies_keeps (tag : Nat) (h : s0.Keeps s) : s0.Keeps (dropCopies s tag) := by
  unfold dropCopies
  split
  · exact keeps_foldl _ (fun v c hv => keeps_ite hv (bump_keeps _ _ _ _ hv)) _ h
  · exact h

theorem countSlots_keeps (l : List CandSlot) (h : s0.Keeps s) : s0.Keeps (countSlots s l) :=
  keeps_foldl _ (fun _ _ hv => bump_keeps _ _ _ _ hv) l h

@[simp] theorem countSlots_requests (s : State) (l : List CandSlot) : (countSlots s l).requests = s.requests := by
  unfold countSlots
  induction l generalizing s with
  | nil => rfl
  | cons c l ih => rw [List.foldl_cons, ih, bump, regSet_requests]

theorem dropPrefetch_keeps (tag : Nat) (h : s0.Keeps s) : s0.Keeps (dropPrefetch s tag) := by
  have hw := dropCopies_keeps tag h
  unfold dropPrefetch
  generalize dropCopies s tag = u at hw
  dsimp only
  split
  · split
    · refine keeps_ite hw (keeps_trans (countSlots_keeps _ hw) ⟨fun w => ?_, rfl, rfl⟩)
      rw [wf_iff] at w ⊢
      exact ⟨w.1, w.2.1, w.2.2.1, rising_place _ _ _ (countSlots_requests u _ ▸ w.2.2.2)⟩
    · exact hw
  · exact hw

theorem dropJobs_keeps (tag : Nat) (h : s0.Keeps s) : s0.Keeps (dropJobs s tag) :=
  keeps_same (dropPrefetch_keeps tag h) rfl rfl rfl rfl rfl rfl

theorem endRequest_keeps (tag : Nat) (st : Status) (result : List Nat) (h : s0.Keeps s) : s0.Keeps (endRequest s tag st result) := by
  unfold endRequest
  cases look s.requests tag with
  | none => exact h
  | some r =>
    dsimp only
    split
    · exact keeps_same (dropJobs_keeps tag h) rfl rfl rfl rfl rfl rfl
    · exact removeRequest_keeps tag _ (dropJobs_keeps tag (releaseOwed_keeps r (postEntry_keeps r st result false h)))

theorem settleN_keeps : ∀ (n : Nat) (s : State), s0.Keeps s → s0.Keeps (settleN n s)
  | 0, _, h => h
  | n + 1, s, h => by
    unfold settleN
    split
    · exact h
    · exact settleN_keeps n _ (endRequest_keeps _ _ _ h)
    · split
      · exact h
      · split
        · exact settleN_keeps n _ (endRequest_keeps _ _ _ h)
        · exact settleN_keeps n _ (setRequest_keeps _ _ h)

theorem settle_keeps (h : s0.Keeps s) : s0.Keeps (settle s) := settleN_keeps _ s h
theorem finish_keeps (tag : Nat) (st : Status) (result : List Nat) (h : s0.Keeps s) : s0.Keeps (finish s tag st result) :=
  settle_keeps (endRequest_keeps tag st result h)
theorem endAll_keeps (st : Status) (h : s0.Keeps s) : s0.Keeps (endAll s st) :=
  keeps_foldl _ (fun _ _ hu => endRequest_keeps _ _ _ hu) _ h

/-! ## The homes (05) -/

theorem setCoh_keeps (c : Coherence) (h : s0.Keeps s) : s0.Keeps (setCoh s c) := keeps_same h rfl rfl rfl rfl rfl rfl
theorem setDir_keeps (l : Nat) (d : Dir) (h : s0.Keeps s) : s0.Keeps (setDir s l d) := setCoh_keeps _ h
theorem setCache_keeps (p : Nat) (c : Cache) (h : s0.Keeps s) : s0.Keeps (setCache s p c) := setCoh_keeps _ h
theorem cohSend_keeps (m : CohMsg) (h : s0.Keeps s) : s0.Keeps (cohSend s m) := setCoh_keeps _ h

theorem collectLine_keeps (l : Nat) (keep : Bool) (h : s0.Keeps s) : s0.Keeps (collectLine s l keep) := by
  unfold collectLine
  split
  · exact h
  · exact keeps_ite h (setDir_keeps _ _ (keeps_foldl _ (fun u p hu => setCache_keeps _ _ hu) _ h))
  · refine keeps_ite (setDir_keeps _ _ (poisonRange_keeps _ _ _ h)) ?_
    dsimp only
    split
    · exact keeps_ite (setDir_keeps _ _ (setCache_keeps _ _ (memWriteP_keeps _ _ _ h)))
        (setDir_keeps _ _ (setCache_keeps _ _ (memWriteP_keeps _ _ _ h)))
    · exact setDir_keeps _ _ (setCoh_keeps _ (memWriteP_keeps _ _ _ h))
    · exact h

theorem collect_keeps (a n : Nat) (keep : Bool) (h : s0.Keeps s) : s0.Keeps (collect s a n keep) :=
  keeps_foldl _ (fun _ l hu => collectLine_keeps l keep hu) _ h

theorem noteLine_keeps (l : Nat) (req : LineReq) (h : s0.Keeps s) : s0.Keeps (noteLine s l req) := by
  unfold noteLine
  generalize reqTenant s req = t
  cases req with
  | upg _ => exact h
  | io _ _ op => cases op with
    | read => exact noteRead_keeps _ _ _ h
    | write off n => exact noteParts_keeps _ _ _ h
  | post _ _ _ => exact noteParts_keeps _ _ _ h
  | nsDrain _ _ => exact noteRead_keeps _ _ _ h
  | nsFill _ _ => exact noteRead_keeps _ _ _ h
  | rdS _ => exact noteRead_keeps _ _ _ h
  | rdO _ => exact noteRead_keeps _ _ _ h

theorem grantReq_keeps (l : Nat) (req : LineReq) (d : List Byte × Option Origin) (keeps : Option Nat) (h : s0.Keeps s) :
    s0.Keeps (grantReq s l req d keeps) := by
  unfold grantReq
  dsimp only
  split
  · split <;> exact cohSend_keeps _ (setDir_keeps _ _ h)
  · exact cohSend_keeps _ (setDir_keeps _ _ h)
  · exact cohSend_keeps _ (setDir_keeps _ _ h)
  · split
    · exact setCoh_keeps _ (setDir_keeps _ _ h)
    · exact setCoh_keeps _ h
  · exact setCoh_keeps _ (setDir_keeps _ _ (memWrite_keeps _ _ h))
  · exact setDir_keeps _ _ (memWrite_keeps _ _ h)
  · split
    · exact memWriteP_keeps _ _ _ (setDir_keeps _ _ h)
    · exact memWriteP_keeps _ _ _ h
  · exact setDir_keeps _ _ (memWriteP_keeps _ _ _ h)

theorem grantMem_keeps (l : Nat) (req : LineReq) (h : s0.Keeps s) : s0.Keeps (grantMem s l req) :=
  grantReq_keeps _ _ _ _ (noteLine_keeps l req h)

theorem startReq_keeps (l : Nat) (req : LineReq) (h : s0.Keeps s) : s0.Keeps (startReq s l req) := by
  unfold startReq
  generalize (match req, dirOf s l with
    | .upg t, .shared v => if bitOf v t.part then req else .rdO t
    | .upg t, _ => .rdO t
    | _, _ => req) = q
  dsimp only
  split
  · exact grantMem_keeps _ _ h
  · exact keeps_ite (grantMem_keeps _ _ h) (keeps_foldl _ (fun u p hu => cohSend_keeps _ hu) _ (setCoh_keeps _ h))
  · exact keeps_ite (grantMem_keeps _ _ (setDir_keeps _ _ (poisonRange_keeps _ _ _ h))) (cohSend_keeps _ (setCoh_keeps _ h))

theorem submitReq_keeps (l : Nat) (req : LineReq) (h : s0.Keeps s) : s0.Keeps (submitReq s l req) := by
  unfold submitReq
  split
  · exact h
  · exact keeps_ite (peak_keeps _ _ _ _ (setCoh_keeps _ h)) (startReq_keeps _ _ h)

theorem submitIo_keeps (l : Nat) (req : LineReq) (h : s0.Keeps s) : s0.Keeps (submitIo s l req) := by
  unfold submitIo
  split
  · exact h
  · exact keeps_ite (setCoh_keeps _ h) (submitReq_keeps _ _ h)

theorem engRead_keeps (t a n : Nat) (h : s0.Keeps s) : s0.Keeps (engRead s t a n) := noteRead_keeps _ _ _ (collect_keeps _ _ _ h)

theorem engWrite_keeps (t a : Nat) (d : List Byte) (h : s0.Keeps s) : s0.Keeps (engWrite s t a d) :=
  keeps_ite (keeps_foldl _ (fun _ x hu => submitIo_keeps x.1 _ hu) _ h)
    (memWrite_keeps _ _ (noteParts_keeps _ _ _ (collect_keeps _ _ _ h)))

/-! ## Operands -/

theorem hostSend_keeps (fn : FnId) (a : Nat) (d : List Byte) (h : s0.Keeps s) : s0.Keeps (hostSend s fn a d) :=
  keeps_events h (hostSend_sansEvents s fn a d)

theorem writeOut_keeps (r : Request) (dev : Bool) (a : Nat) (d : List Byte) (h : s0.Keeps s) : s0.Keeps (writeOut s r dev a d) := by
  unfold writeOut
  refine keeps_ite h (keeps_ite (engWrite_keeps _ a d h) ?_)
  cases r.source with
  | peer k => exact h
  | ring fn ring index cq l => exact keeps_ite (hostSend_keeps fn a d h) h

theorem devRead_keeps (t a n : Nat) (h : s0.Keeps s) : s0.Keeps (devRead s t a n).1 := by
  unfold devRead
  split
  · exact h
  · split
    · exact h
    · dsimp only; split <;> exact engRead_keeps t a n h

theorem setAtc_keeps (p : Nat) (c : List Cached) (h : s0.Keeps s) : s0.Keeps (setAtc s p c) := keeps_events h (setAtc_sansEvents s p c)
theorem translate_keeps (fn : FnId) (a : Nat) (h : s0.Keeps s) : s0.Keeps (translate s fn a) := keeps_events h (translate_sansEvents s fn a)

theorem pumpReads_keeps (n p : Nat) (h : s0.Keeps s) : s0.Keeps (pumpReads n s p) := by
  induction n generalizing s with
  | zero => exact h
  | succ n ih =>
    unfold pumpReads; dsimp only; split
    · exact h
    · exact keeps_ite h (ih (emit_keeps _ (translate_keeps _ _ (setPort_keeps _ _ h))))

theorem joinReads_keeps (p : Nat) (new : List HostAsk) (h : s0.Keeps s) : s0.Keeps (joinReads s p new) :=
  pumpReads_keeps _ _ (setPort_keeps _ _ h)

theorem hostAsk_keeps (fn : FnId) (a n : Nat) (h : s0.Keeps s) : s0.Keeps (hostAsk s fn a n) := joinReads_keeps _ _ h

theorem answerInvals_keeps (p : Nat) (h : s0.Keeps s) : s0.Keeps (answerInvals s p) :=
  keeps_ite (keeps_foldl _ (fun _ _ hu => emit_keeps _ hu) _ (setPort_keeps _ _ h)) h

theorem freeReads_keeps (p : Nat) (gone : HostAsk → Bool) (h : s0.Keeps s) : s0.Keeps (freeReads s p gone) :=
  keeps_ite (joinReads_keeps _ _ (answerInvals_keeps _ (setPort_keeps _ _ h))) h

theorem hostBack_keeps (fn : FnId) (a n : Nat) (h : s0.Keeps s) : s0.Keeps (hostBack s fn a n) := freeReads_keeps _ _ h

theorem refusedPages_keeps (fn : FnId) (a n : Nat) (st : ReadStatus) (h : s0.Keeps s) : s0.Keeps (refusedPages s fn a n st) :=
  keeps_ite (setAtc_keeps _ _ h) h

theorem readNow_keeps (fn : FnId) (a n : Nat) (st : ReadStatus) (h : s0.Keeps s) : s0.Keeps (readNow s fn a n st) :=
  refusedPages_keeps _ _ _ _ (hostBack_keeps _ _ _ (hostAsk_keeps _ _ _ h))

theorem wantReads_keeps (r : Request) (a n : Nat) (h : s0.Keeps s) : s0.Keeps (wantReads s r a n) := by
  unfold wantReads; split
  · exact h
  · exact setPort_keeps _ _ h

theorem hostGet_keeps (r : Request) (a n : Nat) (h : s0.Keeps s) : s0.Keeps (hostGet s r a n).1 := by
  unfold hostGet; split
  · exact wantReads_keeps _ _ _ h
  · exact h

theorem keepReads_keeps (t : State) (h : s0.Keeps s) : s0.Keeps (keepReads s t) :=
  keeps_ite h (joinReads_keeps _ _ (joinReads_keeps _ _ (keeps_same h rfl rfl rfl rfl rfl rfl)))

theorem readAt_keeps (r : Request) (dev : Bool) (a n : Nat) (h : s0.Keeps s) : s0.Keeps (readAt s r dev a n).1 := by
  unfold readAt
  split
  · exact devRead_keeps _ a n h
  · exact hostGet_keeps _ _ _ h

theorem conclude_keeps (tag : Nat) (e : Ended) (h : s0.Keeps s) (he : s0.Keeps e.1) : s0.Keeps (conclude s tag e) := by
  unfold conclude
  split
  · exact keepReads_keeps _ h
  · exact finish_keeps _ _ _ he
  · exact keeps_ite (finish_keeps _ _ _ h) (finish_keeps _ _ _ he)

theorem runOp_keeps (tag opcode : Nat) (f : State → Request → Ended) (hf : ∀ r, s0.Keeps (f s r).1) (h : s0.Keeps s) :
    s0.Keeps (runOp s tag opcode f) := by
  unfold runOp
  split
  · exact conclude_keeps tag _ h (hf _)
  · exact h

theorem countXign_keeps (t : Nat) (h : s0.Keeps s) : s0.Keeps (countXign s t) :=
  keeps_same (bump_keeps (0x4F000 + 4 * t) 0 32 1 h) rfl rfl rfl rfl rfl rfl
theorem noteExt_keeps (t mask op : Nat) (ext : Option (List Byte)) (h : s0.Keeps s) : s0.Keeps (noteExt s t mask op ext) := by
  unfold noteExt
  split
  · exact h
  · split
    · exact keeps_ite (countXign_keeps _ h) h
    · exact h

end Sys2Proof.Machine
end

