-- ==== Sys2Proof/Laws/Operands.lean ====
section
/-! SUPPORT. Operands: what reads of host memory give. -/
namespace Sys2Proof.Machine

/-- Host bytes that came in one piece from an address on read as its first n bytes. -/
theorem hostByte_piece (d : List Byte) (a i : Nat) (st : ReadStatus) (h : i < d.length) :
    hostByte [⟨a, d, st⟩] (a + i) = some (d[i], st) := by
  simp [hostByte, h]

/-- A range of host memory that came whole and good reads as what came. -/
theorem hostBytes_piece (d : List Byte) (a : Nat) (st : ReadStatus) :
    (rangeFrom a d.length).map (hostByte [⟨a, d, st⟩]) = d.map (fun b => some (b, st)) := by
  have hr : ∀ n lo, rangeFrom lo n = (List.range n).map (lo + ·) := by
    intro n
    induction n with
    | zero => intro lo; rfl
    | succ n ih =>
      intro lo
      rw [rangeFrom, ih, List.range_succ_eq_map, List.map_cons, List.map_map]
      congr 1
      exact List.map_congr_left (fun x _ => by simp only [Function.comp]; omega)
  rw [hr, List.map_map]
  apply List.ext_getElem (by simp)
  intro i h1 h2
  simp at h1
  simp [hostByte_piece d a i st h1]

theorem hostRead_piece (r : Request) (d : List Byte) (a : Nat) (h : r.hostIn = [⟨a, d, .good⟩]) : hostRead r a d.length = .ok d := by
  unfold hostRead
  rw [h, hostBytes_piece]
  have h1 : (d.map (fun b => some (b, ReadStatus.good))).any Option.isNone = false := by simp
  simp only [h1]
  rw [if_neg (by decide)]
  split
  · rename_i st he
    obtain ⟨x, hx, hst⟩ := List.exists_of_findSome?_eq_some he
    obtain ⟨b, _, rfl⟩ := List.mem_map.1 hx
    exact absurd hst (by simp)
  · simp [Function.comp_def]

end Sys2Proof.Machine
end

