-- ==== Sys2Proof/Laws/Reads.lean ====
section
/-! SUPPORT. Reads: what reads of host memory do to a port (16 R343, R353, R354): the bounds hold, and other ports stand. -/
namespace Sys2Proof.Machine

@[simp] theorem portOf_setPort (s : State) (p : Nat) (v : Port) : portOf (setPort s p v) p = v := mapGet_mapSet_same _ _ _ _

@[simp] theorem portOf_setPort_ne (s : State) (p q : Nat) (v : Port) (h : p ≠ q) : portOf (setPort s p v) q = portOf s q :=
  mapGet_mapSet_ne _ _ _ _ _ h

@[simp] theorem portOf_emit (s : State) (o : Out) (p : Nat) : portOf (emit s o) p = portOf s p := rfl

@[simp] theorem atcOf_setAtc (s : State) (p : Nat) (c : List Cached) : atcOf (setAtc s p c) p = c := mapGet_mapSet_same _ _ _ _

/-- A translation changes the port's cache and outputs alone. -/
theorem translate_ports (s : State) (fn : FnId) (a : Nat) : (translate s fn a).ports = s.ports := by
  unfold translate; dsimp only; split <;> rfl

@[simp] theorem portOf_translate (s : State) (fn : FnId) (a p : Nat) : portOf (translate s fn a) p = portOf s p := by
  unfold portOf; rw [translate_ports]

/-- A cache of at most 2,048 entries stays so. -/
theorem atcAdd_length (c : List Cached) (x : Cached) (h : c.length ≤ 2048) : (atcAdd c x).length ≤ 2048 := by
  unfold atcAdd
  split
  · simp; omega
  · rename_i hn
    have hl : Config.atcVictim (c.map (fun y => (y.tenant, y.page))) % c.length < c.length := Nat.mod_lt _ (by omega)
    rw [List.length_append, List.length_eraseIdx, if_pos hl]
    simp; omega

theorem translate_atc (s : State) (fn : FnId) (a : Nat) (h : (atcOf s fn.port).length ≤ 2048) :
    (atcOf (translate s fn a) fn.port).length ≤ 2048 := by
  unfold translate; dsimp only; split
  · exact h
  · exact (congrArg List.length (atcOf_setAtc s fn.port _)).trans_le (atcAdd_length _ _ h)

/-- Reads that leave keep a port within its bound, and no other port changes (16 R343). -/
theorem pumpReads_bound (n p : Nat) : ∀ s : State, (portOf s p).reads.length ≤ readBound s p →
    (portOf (pumpReads n s p) p).reads.length ≤ readBound (pumpReads n s p) p ∧ readBound (pumpReads n s p) p = readBound s p := by
  induction n with
  | zero => exact fun s h => ⟨h, rfl⟩
  | succ n ih =>
    intro s h
    unfold pumpReads; dsimp only; split
    · exact ⟨h, rfl⟩
    · split
      · exact ⟨h, rfl⟩
      · rename_i x _ hb
        have hp := ih (emit (translate (setPort s p { portOf s p with reads := (portOf s p).reads ++ [x], held := (portOf s p).held.erase x })
          ⟨p, x.tenant⟩ x.addr) (.hostRead ⟨p, x.tenant⟩ (pasidOf s ⟨p, x.tenant⟩) x.addr x.len))
        have hr : ∀ t : State, portOf t p = { portOf s p with reads := (portOf s p).reads ++ [x], held := (portOf s p).held.erase x } →
            readBound t p = readBound s p := fun t e => by unfold readBound; rw [e]
        have he : portOf (emit (translate (setPort s p { portOf s p with reads := (portOf s p).reads ++ [x], held := (portOf s p).held.erase x })
          ⟨p, x.tenant⟩ x.addr) (.hostRead ⟨p, x.tenant⟩ (pasidOf s ⟨p, x.tenant⟩) x.addr x.len)) p =
            { portOf s p with reads := (portOf s p).reads ++ [x], held := (portOf s p).held.erase x } := by simp
        have hb' := hr _ he
        have := hp (by rw [hb', he]; simp; omega)
        exact ⟨this.1, this.2.trans hb'⟩

theorem pumpReads_other (n p q : Nat) (h : p ≠ q) : ∀ s : State, portOf (pumpReads n s p) q = portOf s q := by
  induction n with
  | zero => exact fun _ => rfl
  | succ n ih =>
    intro s
    unfold pumpReads; dsimp only; split
    · rfl
    · split
      · rfl
      · rw [ih]; simp [h]

end Sys2Proof.Machine
end

