-- ==== Sys2Proof/WellFormed.lean ====
section
/-! DEFINITION. WellFormed: which operands a command may have. Every check is on the numbers that name a unit, a function or an
entry; a meaning takes a command that is not well formed as no event of the machine (note 8). What host software may write
wrongly (an offset, a size, a word, bytes of a frame or a blob) is checked by the meanings, as the spec says, and not here. -/
namespace Sys2Proof

/-- A facet, F0 to F7 (02 Model). -/
def facetOk (f : Nat) : Bool := decide (f < 8)
/-- A partition, P0 to P63 (02 Model). -/
def partOk (p : Nat) : Bool := decide (p < 64)
/-- The unit of a mismatch exists. -/
def checkOk (c : Option Mismatch) : Bool :=
  match c with
  | none => true
  | some m => match m.unit with | .similarity f => decide (f < 8) | .selection f => decide (f < 8) | .gather f => decide (f < 8)

/-- Codes of a tile pass fit their formats, its rows an array's tile (11 R217). -/
def passOk (p : TilePass) : Bool :=
  let bits := match p.op.fmt with | .bf16 => 16 | _ => 8
  let rows := fun (l : List (List Nat)) (n : Nat) =>
    decide (l.length ≤ n) && l.all (fun r => decide (r.length ≤ 128) && r.all (fun c => decide (c < 2 ^ bits)))
  rows p.a 1024 && rows p.w 128 && decide (p.vector ≤ 2) && decide (p.op.group < 16)

/-- A PCIe port (16 R341). -/
def portOk (p : Nat) : Bool := decide (p < 2)
/-- A tenant number, 0 the owner (18 R391). -/
def tenantOk (t : Nat) : Bool := decide (t ≤ 64)
/-- A virtual function (16 R345). -/
def vfOk (v : Nat) : Bool := decide (1 ≤ v) && decide (v ≤ 64)
/-- A strand lane (19 Model). -/
def laneOk (l : Nat) : Bool := decide (l < 16)
/-- A LUN: channel, chip enable and LUN of it (07 Model). -/
def lunOk (l : Nat) : Bool := decide (l < 1024)
/-- A request tag (17 R368). -/
def tagOk (t : Nat) : Bool := decide (t < 65536)
/-- A submission or completion ring of a function (17 Model). -/
def ringOk (r : Nat) : Bool := decide (r < 32)
/-- A doorbell line of a function (17 Model). -/
def dbOk (d : Nat) : Bool := decide (d < 4)
/-- A completion ring, or none for the event ring. -/
def cqOk (c : Option Nat) : Bool := match c with | some r => decide (r < 32) | none => true
/-- A troy slot (15 R318). -/
def slotOk (n : Nat) : Bool := decide (n < 64)
/-- A package of the rack, by package number (22 R476). -/
def peerOk (p : Nat) : Bool := decide (p < 64)
/-- A flow number of its opener (19 R421). -/
def flowOk (n : Nat) : Bool := decide (n < 4096)
/-- A Chain address (21 R455). -/
def addressOk (a : Nat) : Bool := decide (a < 128)
/-- A partition group (14 R292). -/
def groupOk (g : Nat) : Bool := decide (g < 16)
/-- A line of device memory, by number. -/
def lineOk (l : Nat) : Bool := decide (l < 2 ^ 57)
/-- A transaction of a partition's 32 miss registers (05 R97). -/
def tidOk (t : Tid) : Bool := partOk t.part && decide (t.entry < 32)
/-- A transaction of a partition's 16 writeback buffer entries (05 R97). -/
def wbOk (t : Tid) : Bool := partOk t.part && decide (t.entry < 16)
/-- What the fabric does names links that exist: a receiving facet and one of its four directions (08 R165). -/
def fabricOk (x : FabricSeen) : Bool := x.replays.all (fun r => decide (r.1 < 8) && decide (r.2.1 < 4))
/-- Settings of a port's configuration registers (16 R343, R344). -/
def configOk (c : PortConfig) : Bool := decide (c.mps ≤ 2) && decide (c.mrrs ≤ 5) && decide (c.tags ≤ 2) && decide (c.timeout < 16) &&
  c.apart.all (fun f => decide (f.tenant ≤ 64))
/-- Scheduled flits come from a facet's source port, with flow numbers (04 R82). -/
def writesOk (x : SchedWrites) : Bool :=
  decide (x.facet < 8) && (decide (x.port < 8) || decide (x.port = 24)) && x.flits.all (fun q => decide (q.flow < 4096))
/-- A store inside one line (05 R99). -/
def storeOk (x : Option (Nat × List Byte)) : Bool := match x with | some p => decide (p.1 + p.2.length ≤ 128) | none => true
/-- An I/O access inside one line (05 R108). -/
def ioOk (op : IoOp) : Bool := match op with | .read => true | .write off d => decide (off + d.length ≤ 128)
/-- A PHY of the package (24 R539). -/
def phyOk (u : PhyUnit) : Bool :=
  match u with | .hbm f => facetOk f | .lpddr c => decide (c < 64) | .link f d => facetOk f && decide (d < 4)
/-- A self test reports the eight facets. -/
def bootOk (b : BootReport) : Bool := decide (b.facets.length = 8)
/-- The symbols of a Chain frame are of Table - GFSK mapping (20 R437). -/
def chainFrameOk (f : FrameHeard) : Bool := f.offsets.all (fun o => [250, -250, 375, 125, -125, -375].contains o)
/-- A character is heard through all of its ticks (20 R446). -/
def charOk (c : CharSeen) : Bool := decide (c.ticks.length = 160)

/-- The operands of a command are ones it may have. -/
def wellFormed (i : Instr) : Bool :=
  match i with
  | .pwrGoodRise _ boot => bootOk boot
  | .pwrGoodFall => true
  | .packageReset facet boot => facetOk facet && bootOk boot
  | .imageUpdate => true
  | .imageUpdateDone _ boot => bootOk boot
  | .heartbeat => true
  | .heartbeatTimeout => true
  | .phyLockLost unit => phyOk unit
  | .clkPmaxWrite facet _ _ => facetOk facet
  | .dcoStep part => partOk part
  | .dcoFault part => partOk part
  | .pllLockLost => true
  | .clockRelock _ => true
  | .fabSchedLoad facet => facetOk facet
  | .fabSchedBlobChecked facet _ => facetOk facet
  | .fabSchedActivate writes => writes.all writesOk
  | .fabSchedClear facet => facetOk facet
  | .rdS line tid => lineOk line && tidOk tid
  | .rdO line tid store => lineOk line && tidOk tid && storeOk store
  | .upg line tid store => lineOk line && tidOk tid && storeOk store
  | .wb line tid _ => lineOk line && wbOk tid
  | .evict line tid => lineOk line && tidOk tid
  | .fwdData line sender => lineOk line && partOk sender
  | .ackInv line sender => lineOk line && partOk sender
  | .dataGrant line tid seen => lineOk line && tidOk tid && fabricOk seen.fabric
  | .fwdS line part => lineOk line && partOk part
  | .fwdO line part => lineOk line && partOk part
  | .inv line part => lineOk line && partOk part
  | .wbAck line tid => lineOk line && wbOk tid
  | .ioAccess _ tenant line op found => decide (tenant ≤ 64) && lineOk line && ioOk op && found.all (fun x => decide (x.1 < 128))
  | .nsFill part _ _ _ => partOk part
  | .nsDrain part _ _ _ => partOk part
  | .fenceInstruction part => partOk part
  | .scrubRead _ _ _ => true
  | .rowRetireCopyDone _ _ _ _ => true
  | .resvEvaluation => true
  | .extentRead _ _ _ _ => true
  | .nandCommandIssue lun _ => lunOk lun
  | .readStatusPoll lun _ => lunOk lun
  | .nandTimeout lun => lunOk lun
  | .codewordDecode _ _ fabric _ => facetOk fabric.1 && fabricOk fabric.2
  | .zqCalibrationShort lun => lunOk lun
  | .flsJobStart facet port => facetOk facet && portOk port
  | .flsJobAbort facet => facetOk facet
  | .jobErase facet _ _ => facetOk facet
  | .jobProgram facet _ _ _ _ => facetOk facet
  | .jobScan facet _ _ _ => facetOk facet
  | .jobRead facet _ _ _ => facetOk facet
  | .nop tag => tagOk tag
  | .fence tag => tagOk tag
  | .pipeline tag => tagOk tag
  | .stageComplete tag check _ fabric => tagOk tag && checkOk check && facetOk fabric.1 && fabricOk fabric.2
  | .tokenize tag _ => tagOk tag
  | .detokenize tag _ => tagOk tag
  | .tokLdLoad _ => true
  | .tokLoadDone _ _ => true
  | .tokLdUnload _ => true
  | .slotUnloadDone => true
  | .maskReady tag _ _ => tagOk tag
  | .gather tag => tagOk tag
  | .gatherRowArrival tag arrival => tagOk tag && fabricOk arrival.fabric && checkOk arrival.check
  | .scatterWrite tag => tagOk tag
  | .scatterAdd tag => tagOk tag
  | .scatterRefresh tag => tagOk tag
  | .embed tag => tagOk tag
  | .rerank tag => tagOk tag
  | .tilePassDone tag part pass => tagOk tag && partOk part && passOk pass
  | .outputTileDone tag part => tagOk tag && partOk part
  | .search tag => tagOk tag
  | .centroidExchange done => tagOk done.tag && checkOk done.check
  | .scanDone tag check => tagOk tag && checkOk check
  | .nbPrefetchCopyDone tag facet _ => tagOk tag && facetOk facet
  | .shardDeadlineX tag => tagOk tag
  | .srchLdLoad _ => true
  | .srchLoadDone _ _ => true
  | .srchLdUnload _ => true
  | .selectRow tag check => tagOk tag && checkOk check
  | .selectMerge done => tagOk done.tag && checkOk done.check
  | .packPrompt tag => tagOk tag
  | .prefill tag => tagOk tag
  | .prefillLayerDone tag => tagOk tag
  | .decodeAttach tag => tagOk tag
  | .detach tag => tagOk tag
  | .admitMsX tag _ => tagOk tag
  | .decodeStep tag _ => tagOk tag
  | .chunkUs tag _ => tagOk tag
  | .textConsumedReread tag _ _ => tagOk tag
  | .clpLdLoad _ _ _ => true
  | .clpLdUnload _ => true
  | .tenGroupWrite tenant group _ _ => tenantOk tenant && groupOk group
  | .loadWeightsLoad tag => tagOk tag
  | .loadWeightsSwap tag => tagOk tag
  | .loadWeightsUnload tag => tagOk tag
  | .troyMetadataArrival slot => slotOk slot
  | .segmentComplete slot seg => slotOk slot && fabricOk seg.fabric
  | .inPlaceSwapStart slot => slotOk slot
  | .windowUnitCopyDone tag => tagOk tag
  | .linkDown port => portOk port
  | .perstAssert port => portOk port
  | .hotReset port => portOk port
  | .linkUp port _ _ cfg => portOk port && configOk cfg
  | .vfFlr port vf => portOk port && vfOk vf
  | .pfFlr port => portOk port
  | .vfEnableClear port => portOk port
  | .d3hotTransition port tenant _ => portOk port && tenantOk tenant
  | .atsInvalidateRequest port tenant _ => portOk port && tenantOk tenant
  | .completionTimeout tag _ _ => tagOk tag
  | .doorbellPoll port tenant line => portOk port && tenantOk tenant && dbOk line
  | .doorbellPollData port tenant line _ _ => portOk port && tenantOk tenant && dbOk line
  | .descriptorFetchData port tenant ring _ _ _ _ => portOk port && tenantOk tenant && ringOk ring
  | .cqHeadReread port tenant cq _ _ => portOk port && tenantOk tenant && cqOk cq
  | .modUsExpiry port tenant cq => portOk port && tenantOk tenant && cqOk cq
  | .rngSqEnable port tenant ring _ _ _ => portOk port && tenantOk tenant && ringOk ring
  | .rngCqEnable port tenant ring _ => portOk port && tenantOk tenant && ringOk ring
  | .rngDbEnable port tenant line _ => portOk port && tenantOk tenant && dbOk line
  | .ringDisable port tenant _ _ _ => portOk port && tenantOk tenant
  | .evtEnable port tenant _ => portOk port && tenantOk tenant
  | .tenClearStart _ => true
  | .tenClearDone => true
  | .fecLock lane _ => laneOk lane
  | .laneTrainingRetry lane => laneOk lane
  | .lldpTransmit lane => laneOk lane
  | .lldpduReceived lane _ _ _ _ _ => laneOk lane
  | .lldpTtlExpiry lane => laneOk lane
  | .strLaneAck lane => laneOk lane
  | .strLaneRetrain lane => laneOk lane
  | .strandRefclkLoss => true
  | .flowOpen lane _ => laneOk lane
  | .acceptFrame lane _ => laneOk lane
  | .refuseFrame lane _ => laneOk lane
  | .ackFrame lane _ => laneOk lane
  | .finFrame lane _ => laneOk lane
  | .keepaliveFrame lane _ => laneOk lane
  | .resetFrame lane _ => laneOk lane
  | .keepaliveTimer => true
  | .retransmitTimeout _ peer num _ => peerOk peer && flowOk num
  | .ackDelay _ peer num => peerOk peer && flowOk num
  | .peerLossTimeout peer => peerOk peer
  | .seqOpen lane _ => laneOk lane
  | .kvBlock lane _ => laneOk lane
  | .shardQuery lane _ => laneOk lane
  | .shardResult lane _ => laneOk lane
  | .weightReq lane _ => laneOk lane
  | .weightData lane _ => laneOk lane
  | .chnRxgainApply => true
  | .noiseMeasurement _ => true
  | .noiseStale => true
  | .syncMiss => true
  | .characterReceived c => charOk c
  | .characterSend _ => true
  | .chnCharTxData _ => true
  | .chnCharTxAbort => true
  | .chnCharRxRead port => portOk port
  | .chainTxAttempt _ => true
  | .chainTxCut => true
  | .chainBusStuck => true
  | .clearCut => true
  | .enumStart frame => chainFrameOk frame
  | .assignFrame frame => chainFrameOk frame
  | .claimResend => true
  | .enumInChange _ => true
  | .capFrame frame => chainFrameOk frame
  | .departFrame frame => chainFrameOk frame
  | .applicationFrame frame => chainFrameOk frame
  | .foreignFrame frame => chainFrameOk frame
  | .chnTxbGo buf _ => decide (buf < 4)
  | .chnTxbWithdraw buf _ => decide (buf < 4)
  | .chnRxbStatusClear buf _ => decide (buf ≤ 16)
  | .strPlanLoad _ _ _ => true
  | .pwrbrakeAsserted => true
  | .pwrbrakeReleased => true
  | .powerLoopIteration _ => true
  | .ejectAsserted => true
  | .quiesceFlowReset => true
  | .quiesceRequestFail => true
  | .quiesceHeld => true
  | .ejectReleased => true
  | .hmkSeal _ => true
  | .hmkCheckDone => true
  | .openAll => true
  | .openTenant t => tenantOk t
  | .drainComplete => true
  | .hmkDrainX => true
  | .crystalLoss => true
  | .thermtrip => true
  | .registerWrite port tenant _ _ _ _ => portOk port && tenantOk tenant
  | .strandLaneDown lane _ => laneOk lane
  | .busIdle => true
  | .chainFrameNotTaken src _ _ => addressOk src
  | .dataFrame lane _ => laneOk lane
  | .strandFrameDiscard lane _ _ => laneOk lane
  | .statusMsg lane _ => laneOk lane
  | .hostReadCompletion tag _ _ _ => tagOk tag
  | .registerRead port tenant _ _ _ => portOk port && tenantOk tenant
  | .vfEnableSet port numVfs => portOk port && tenantOk numVfs
  | .jtagInstruction _ => true
  | .openRetry num => flowOk num

end Sys2Proof
end

