-- ==== Sys2Proof/Tests/Slice0.lean ====
section
/-! SUPPORT. Slice0: ill-formed terms that WellFormed refuses, one check of each kind on values the spec gives, and for every
statement with hypotheses a concrete state and operands that meet them (the theorems named hyp_<statement>). -/
namespace Sys2Proof.Tests
open Sys2Proof Sys2Proof.Machine

set_option Elab.async false

/-! ## Small states -/

/-- A powered, booted package with F0 active, SEALED, PLL locked, otherwise at reset. -/
def live : State :=
  { State.reset with
    supply := { State.reset.supply with powerGood := true }
    assay := { State.reset.assay with active := some .f0, ready := true }
    hmk := { State.reset.hmk with state := .sealed }
    clk := ⟨true, 0#64, []⟩ }

/-- A port with ARI, PASID, MSI-X and ATS on, and the sizes that PCIe gives it at reset. -/
def linkCfg : PortConfig := { portReset.config with ari := true, pasid := true, msix := true, ats := true }

/-- `live` with both ports up and MSI-X on. -/
def linked : State :=
  { live with ports := [(0, { portReset with up := true, config := linkCfg }),
                        (1, { portReset with up := true, config := linkCfg })] }

/-- `live` with the hallmark in another state. -/
def inHmk (h : HmkState) : State := { live with hmk := { live.hmk with state := h } }

/-- `live` with one register word set. -/
def withReg (k : Nat) (w : Word) : State := regSet live k w

/-- `live` with one sealed value in force. -/
def forced (l : List (Nat × Word)) : State := { live with force := l }

/-- The next state of a command, or the reset state. -/
def after (c : Instr) (s : State) : State := match exec c s with | .next t => t | _ => State.reset

/-! ## WellFormed refuses -/

theorem test_wf_facet : wellFormed (.fabSchedLoad 8) = false := by decide
theorem test_wf_part : wellFormed (.dcoStep 64) = false := by decide
theorem test_wf_port : wellFormed (.linkDown 2) = false := by decide
theorem test_wf_tenant : wellFormed (.openTenant 65) = false := by decide
theorem test_wf_vf : wellFormed (.vfFlr 0 0) = false := by decide
theorem test_wf_lane : wellFormed (.fecLock 16 true) = false := by decide
theorem test_wf_lun : wellFormed (.nandTimeout 1024) = false := by decide
theorem test_wf_tag : wellFormed (.nop 65536) = false := by decide
theorem test_wf_ring : wellFormed (.rngCqEnable 0 1 32 0#32) = false := by decide
theorem test_wf_line : wellFormed (.doorbellPoll 0 1 4) = false := by decide
theorem test_wf_cq : wellFormed (.modUsExpiry 0 1 (some 32)) = false := by decide
theorem test_wf_slot : wellFormed (.inPlaceSwapStart 64) = false := by decide
theorem test_wf_peer : wellFormed (.peerLossTimeout 64) = false := by decide
theorem test_wf_flow : wellFormed (.openRetry 4096) = false := by decide
theorem test_wf_address : wellFormed (.chainFrameNotTaken 128 ⟨0#8, 0, false⟩ .crc) = false := by decide
theorem test_wf_group : wellFormed (.tenGroupWrite 1 16 false 0#32) = false := by decide
theorem test_wf_memory_line : wellFormed (.evict (2 ^ 57) ⟨0, 0⟩) = false := by decide
theorem test_wf_tid : wellFormed (.evict 0 ⟨64, 0⟩) = false := by decide
theorem test_wf_store : wellFormed (.rdO 0 ⟨0, 0⟩ (some (128, [0#8]))) = false := by decide
theorem test_wf_io : wellFormed (.ioAccess 0 0 0 (.write 127 [0#8, 0#8]) []) = false := by decide
theorem test_wf_pass : wellFormed (.tilePassDone 0 0 ⟨⟨0, .int8, .int32, 1, 1, 1, 0⟩, [[256]], [[0]], [], [], none, 0⟩) = false := by decide
theorem test_wf_check : wellFormed (.scanDone 0 (some ⟨.similarity 8, true⟩)) = false := by decide
theorem test_wf_slips : wellFormed (.fabSchedActivate [⟨0, 0, [⟨4096, 0, [], 0, 0⟩]⟩]) = false := by decide
theorem test_wf_phy : wellFormed (.phyLockLost (.link 0 4)) = false := by decide
theorem test_wf_boot : wellFormed (.packageReset 0 ⟨true, true, true, true, ⟨true, true, 0#16⟩, ⟨true, true, 0#16⟩, true, [], []⟩) = false := by
  decide
theorem test_wf_chain_frame : wellFormed (.enumStart ⟨[], 0#16, [251], ⟨0#8, 0, false⟩⟩) = false := by decide
theorem test_wf_buffer : wellFormed (.chnTxbGo 4 0#32) = false ∧ wellFormed (.chnRxbStatusClear 17 0#32) = false := by decide
theorem test_wf_char : wellFormed (.characterReceived ⟨[true], false⟩) = false := by decide
theorem test_wf_writeback : wellFormed (.wb 0 ⟨0, 16⟩ []) = false := by decide
theorem test_wf_config_apart : wellFormed (.linkUp 0 6 16 { linkCfg with apart := [⟨65, true, false, true⟩] }) = false := by decide
theorem test_wf_config : wellFormed (.linkUp 0 6 16 { linkCfg with mrrs := 6 }) = false := by decide
theorem test_wf_fabric : wellFormed (.dataGrant 0 ⟨0, 0⟩ ⟨none, ⟨[(0, 4, 1)], 0, []⟩⟩) = false := by decide
theorem test_wf_good : wellFormed (.rdO 0x200000 ⟨63, 31⟩ (some (0, [1#8]))) = true := by decide

/-! ## Clocks and fabric -/

theorem hyp_StepRunsFrontCommand : (step { live with pending := [.heartbeat] }) = exec .heartbeat live := by rfl

theorem hyp_EmptyQueueCountsOneGrain : live.pending = [] ∧ live.supply.powerGood = true ∧ live.clk.locked = true ∧
    live.fabric.inject = [] ∧ live.fabric.ending = false ∧ State.reset.supply.powerGood = false := by decide

theorem hyp_ClockCommandsComplete : alive live = true ∧ live.clk.locked = true ∧ (∀ f, f < 8 → fabricLive live f = true) ∧
    partLive live 0 = true ∧ partLive live 63 = true ∧
    alive { live with clk := ⟨false, 0#64, []⟩ } = true := by decide

theorem test_pmax_clamps : regFld (after (.clkPmaxWrite 7 true 0x7F000068#32) live) (fKey 7 0x10004) 24 7 = 104 ∧
    regFld (after (.clkPmaxWrite 7 true 0x7F000068#32) live) (fKey 7 0x10004) 0 7 = 104 := by decide


theorem hyp_FabricScheduleCommandsComplete : isSealedNow live = true ∧ schedState live 7 ≠ 1 ∧ schedState live 7 ≠ 2 ∧
    isSealedNow (inHmk .opened) = false ∧ alive (inHmk .opened) = true ∧ schedState (inHmk .opened) 0 = 0 := by decide

/-- A schedule blob of one flow on one port of facet 0 with one grain (04 R85); its CRC-32C computed apart. -/
def schedBlob : List Byte :=
  leBytes 4 0x46444353 ++ leBytes 2 1 ++ leBytes 2 1 ++ leBytes 4 1 ++ leBytes 4 352 ++ List.replicate 8 0#8 ++ leBytes 4 0xD00870CE ++
  List.replicate 36 0#8 ++ leBytes 8 1 ++ leBytes 8 1 ++ List.replicate 16 0#8 ++ leBytes 2 0x8001 ++ List.replicate 254 0#8

set_option maxRecDepth 20000 in
theorem test_schedule_blob_passes : checkBlob live 352 schedBlob = none := by decide +kernel

/-- `live` with a schedule load of `schedBlob` under way on facet 0, and with every facet's load done. -/
def loading : State := { regSet (withReg (fKey 0 0x18) 1#32) (fKey 0 8) 352#32 with fabric := ⟨[(0, ⟨some 1, none⟩)], [], [], false⟩ }
def allLoaded (n : Nat) : State := { live with fabric := ⟨(upto 8).map (fun f => (f, ⟨some n, some []⟩)), [], [], false⟩ }

theorem hyp_FabricScheduleCommandsComplete_load : schedState loading 0 = 1 ∧ look loading.fabric.loads 0 = some ⟨some 1, none⟩ ∧
    (regGet loading (fKey 0 8)).toNat = 352 ∧ look loading.fabric.loads 7 = none ∧
    allReady (allLoaded 0) = true ∧ (agreedFrame (allLoaded 0)).isSome = true ∧ frameBegun (allLoaded 0) = true ∧
    (allLoaded 0).fabric.inject = [] ∧ frameBegun (allLoaded 1) = false := by decide +kernel

/-- A cleared schedule ends with the grain that begins the next frame, and not before (04 FAB_SCHED_CTRL). -/
theorem test_clear_ends_with_the_frame :
    let s := fun (g : DWord) => { live with clk := { live.clk with grains := g }, fabric := ⟨[], [(0, [])], [], true⟩ }
    (tick (s 127#64)).fabric = ⟨[], [], [], false⟩ ∧ (tick (s 126#64)).fabric.active = [(0, [])] := by decide +kernel

/-! ## Lines, near stores and memory -/

/-- Line of the first byte of facet 0's HBM (06 Table - Address map). -/
def line0 : Nat := 0x1000000000 / 128

/-- `live` with 36 GB on facet 0, every partition and the first 16 MiB of that HBM assigned to the owner. -/
def fitted : State :=
  { withReg (fKey 0 0x20000) 0x2400#32 with
    force := [(0x4D000, 0xFFFFFFFF#32), (0x4D004, 0xFFFFFFFF#32), (0x50004, 0x10#32), (0x50008, 0x100#32), (0x5000C, 0x80000000#32)] }

theorem hyp_OwnershipRequestsAtHome : partLive live 63 = true ∧ (homeOf line0).isSome = true ∧ look live.coh.txn line0 = none ∧
    mapGet (fun _ => []) live.coh.queue line0 = [] ∧ dirOf live line0 = .invalid ∧ readsClean live (lineAddr line0) 128 = true ∧
    dirOf (setDir live line0 (.shared 1#64)) line0 = .shared 1#64 ∧ bitOf (1#64) 0 = true ∧ sharersOf 1#64 = [0] ∧
    dirOf (setDir live line0 (.owned 63)) line0 = .owned 63 ∧ live.coh.fencing.contains 63 = false ∧
    look (cacheOf live 63).misses 31 = none ∧ look (cacheOf live 63).lines line0 = none ∧ cacheCheck fitted line0 63 = none ∧
    cacheCheck live line0 63 = some .outOfRegion := by decide +kernel

/-- A cache of partition 3 that holds line0 in M, one that holds it in its writeback buffer, and one that misses it for a store. -/
def holder : State := setCoh live { live.coh with caches := [(3, ⟨[(line0, ⟨.modified, List.replicate 128 7#8, none, []⟩)], [], []⟩)] }
def writer : State :=
  setCoh live { live.coh with caches := [(3, ⟨[], [], [(5, ⟨line0, List.replicate 128 7#8, none, 0⟩)]⟩)], dir := [(line0, .owned 3)] }
def misser : State := setCoh live { live.coh with caches := [(3, ⟨[], [(31, ⟨line0, some (127, [9#8])⟩)], []⟩)] }

/-- A message at the head of the network. -/
def netHead (s : State) (m : CohMsg) : State := setCoh s { s.coh with net := [m] }

theorem hyp_WritebackAcceptedOnce :
    (wbLine (wbEvict writer line0 ⟨3, 5⟩ []) line0 ⟨3, 5⟩ []).1.length = 128 ∧ holdsM writer line0 3 = false ∧
    writer.coh.stale.contains (tidNo ⟨3, 5⟩, line0) = false ∧ forwardOut writer line0 3 = false ∧ dirOf writer line0 = .owned 3 ∧
    (setCoh live { live.coh with stale := [(tidNo ⟨3, 5⟩, line0)] }).coh.stale.contains (tidNo ⟨3, 5⟩, line0) = true ∧
    dirOf live line0 ≠ .owned 3 := by decide +kernel

theorem hyp_WritebackAcceptedOnce_answers :
    look (setCoh live { live.coh with txn := [(line0, ⟨.rdO ⟨63, 31⟩, [3], none, none⟩)], net := [.ackInv line0 3 ⟨63, 31⟩] }).coh.txn line0 =
      some ⟨.rdO ⟨63, 31⟩, [3], none, none⟩ ∧
    live.coh.waits = [] ∧ readsClean live (lineAddr line0) 128 = true ∧
    (netHead live (.fwdData line0 3 ⟨63, 31⟩ (List.replicate 128 7#8) none none)).coh.net =
      [.fwdData line0 3 ⟨63, 31⟩ (List.replicate 128 7#8) none none] := by
  decide +kernel

theorem hyp_StoreBeforeAnsweringForward : look (cacheOf misser 3).misses 31 = some ⟨line0, some (127, [9#8])⟩ ∧
    inSet (cacheOf misser 3) line0 < 16 ∧ 127 + [9#8].length ≤ 128 ∧
    (netHead misser (.grant .dataM line0 ⟨3, 31⟩ (List.replicate 128 0#8) none)).coh.net =
      [.grant .dataM line0 ⟨3, 31⟩ (List.replicate 128 0#8) none] ∧
    look (cacheOf (setCoh live { live.coh with caches := [(3, ⟨[], [(31, ⟨line0, none⟩)], []⟩)] }) 3).misses 31 = some ⟨line0, none⟩ := by
  decide +kernel

theorem hyp_CacheAnswersForwards : look (cacheOf holder 3).lines line0 = some ⟨.modified, List.replicate 128 7#8, none, []⟩ ∧
    look (cacheOf writer 3).lines line0 = none ∧ (wbFor (cacheOf writer 3) line0).isSome = true ∧
    (netHead holder (.fwdS line0 3 ⟨0, 0⟩)).coh.net = .fwdS line0 3 ⟨0, 0⟩ :: [] ∧
    (netHead holder (.inv line0 3 ⟨0, 0⟩)).coh.net = [.inv line0 3 ⟨0, 0⟩] ∧
    (netHead holder (.wbAck line0 ⟨3, 5⟩)).coh.net = [.wbAck line0 ⟨3, 5⟩] := by decide +kernel

theorem hyp_IoAndNearStoreTransfers : homeOf line0 = some 0 ∧ ioAt fitted 0 < 2048 ∧ nsPending live 63 = false ∧ live.coh.fencing = [] ∧
    ioCheck fitted 0 line0 .read = none ∧ ioCheck fitted 0 line0 (.write 127 [1#8]) = none ∧
    writesClean fitted (128 * line0 + 127) [1#8].length = true ∧ ioCheck fitted 1 line0 .read = some .outOfRegion ∧
    ioFits (.write 127 [1#8]) = true ∧ fitted.coh.waits = [] := by decide +kernel

theorem hyp_IoAndNearStoreTransfers_near : alive fitted = true ∧ isSealedNow fitted = true ∧ partLive fitted 63 = true ∧
    nsCheck fitted 63 0x3FFF80 0x1000000000 128 = none ∧ nsCheck fitted 0 0 1 128 = some .badAlign ∧
    readsClean fitted (lineAddr (0x1000000000 / 128 + 0)) 128 = true ∧ readsClean fitted (63 * 0x400000 + (0x3FFF80 + 128 * 0)) 128 = true ∧
    (homeOf (0x1000000000 / 128 + 0)).isSome = true ∧ dirOf fitted (0x1000000000 / 128 + 0) = .invalid ∧ partTag fitted 63 = none ∧
    fitted.coh.fencing.contains 63 = false := by decide +kernel

theorem test_near_store_misaligned : (after (.nsFill 0 1 0 128) live).coh.nsFaults = [(0, .badAlign)] := by decide +kernel

theorem hyp_MemoryCommandsComplete : populated fitted 0x1000000000 (granule 0x1000000000) = true ∧
    rangeLive fitted 0x1000000000 (granule 0x1000000000) = true ∧ look fitted.mem.poison 0x1000000000 = none ∧
    (⟨true, 7, 5⟩ : RowId) ∈ ({ live with mem := { live.mem with copying := [⟨true, 7, 5⟩] } } : State).mem.copying ∧
    live.nor.retired.length < 4096 ∧ (phyUnit (.hbm 7)).isSome = true ∧ (phyUnit (.link 0 1)).isSome = true := by decide +kernel

/-- A reservation that stood at 1 at the last evaluation, with eleven evaluations at 9 and a grant of 5. -/
def granted : State :=
  { (regSet live (grantKey 32) 5#32) with
    force := [(0x40000 + 4 * 32, 1#32)]
    mem := { live.mem with lastResv := [(32, 1#32)], history := [(32, List.replicate 11 9)] } }

theorem hyp_GrantFallsAtOnceRisesAfterOneMillisecond : resvIndex 1 0 .sram = 32 ∧ resvWord granted 32 = 1#32 ∧
    mapGet (fun _ => 0#32) granted.mem.lastResv 32 = 1#32 ∧ regFld granted (grantKey 32) 0 20 = 5 ∧
    (9 :: mapGet (fun _ => []) granted.mem.history 32).take historyLen = List.replicate 11 9 ∧
    (resvWord granted 33 = mapGet (fun _ => 0#32) granted.mem.lastResv 33) ∧ resvWord (forced [(0x40080, 1#32)]) 32 ≠ 0#32 := by decide +kernel

theorem test_grant_rises_after_1ms : regFld (applyGrant granted 0 .sram 1 12) (grantKey 32) 0 20 = 9 := by decide +kernel
theorem test_grant_falls_at_once : regFld (applyGrant granted 0 .sram 1 4) (grantKey 32) 0 20 = 4 := by decide +kernel

theorem hyp_DeviceMemoryReadAfterWrite : State.reset.mem.wf = true ∧ (0x1000000000 : Nat) ∈ granulesOf 0x1000000000 [1#8].length ∧
    covers 0x1000000000 64 0x1000000000 = true := by decide +kernel


theorem hyp_IoAndNearStoreTransfers_credits (h : Nat) : ioAt fitted h < 2048 := by
  have h1 : fitted.coh.txn = [] := rfl
  have h2 : fitted.coh.queue = [] := rfl
  simp [ioAt, h1, h2]
/-! ## Bring-up, hallmark, power -/

/-- A boot report that says nothing works. -/
def noBoot : BootReport := ⟨false, false, false, false, ⟨false, false, 0#16⟩, ⟨false, false, 0#16⟩, false, [], []⟩

theorem hyp_PowerAndResetCommandsComplete : State.reset.supply.powerGood = false ∧ live.supply.powerGood = true ∧
    mbxAt (regSet (inHmk .opened) (mbxKey 8) 0xA5A5#32) 0 = true ∧ mbxBusy (regSet (inHmk .opened) (mbxKey 8) 0xA5A5#32) = false ∧
    resetArg (regSet (inHmk .opened) (mbxKey 8) 0xA5A5#32) = true ∧ resetState (inHmk .opened) = true ∧ resetState live = false := by
  decide +kernel

theorem test_reset_refused_while_sealed : regGet (after (.packageReset 0 noBoot) (withReg (mbxKey 8) 0xA5A5#32)) (mbxKey 0x14) = 0x32000000#32 := by
  decide +kernel

theorem hyp_AssayCommandsComplete : alive live = true ∧ mbxBusy live = false ∧ (regGet live (mbxKey 0x10)).toNat ≤ 0x800000 ∧
    live.assay.active = some .f0 ∧ meetsR50 live .f4 = true ∧ meetsR50 (withReg (fKey 4 0xF0104) 0x20#32) .f4 = false ∧
    assayLive (withReg (fKey 4 0xF0104) 0x20#32) 4 = true ∧ assayLive (withReg (fKey 4 0xF0104) 0x10#32) 4 = false ∧
    live.assay.resetWaits = false ∧ live.mfg.minVersion.toNat ≤ (0#16).toNat := by decide +kernel

theorem hyp_ThermtripAndTapComplete : live.supply.powerGood = true ∧ live.supply.thermtrip = false ∧ live.assay.dead = none ∧
    live.hmk.state ≠ .empty ∧ (inHmk .empty).hmk.state = .empty := by decide

theorem hyp_SealStartsACheck : ejectAsserted (inHmk .empty) = false ∧ (inHmk .held).hmk.state = .held ∧
    ejectAsserted (withReg ejectKey 0x80000000#32) = true ∧
    ({ live with hmk := { live.hmk with reopen := 1#64 } } : State).hmk.reopen ≠ 0#64 ∧ live.hmk.reopen = 0#64 := by decide +kernel

/-- CHECKING with every required register written once and the hot areas at the starts of their facets' slices. -/
def sealable0 : State :=
  let s := (upto 8).foldl (fun s f => regSet s (fKey f 0x70000) (BitVec.ofNat 32 (0x40000000 + f * 0x8000000))) (inHmk .checking)
  { s with hmk := { s.hmk with written := requiredKeys s } }
/-- The check of that seal, but for its CRC. -/
def check0 : HmkCheck := ⟨1#16, 0#32, false, List.replicate 8 0#32, List.replicate 8 0#32⟩
/-- That check with the CRC the sealed words have. -/
def check1 : HmkCheck := { check0 with crc := sealCrc (checkView sealable0 check0) }
/-- The package while that check goes on. -/
def sealable : State := { sealable0 with hmk := { sealable0.hmk with check := some check1 } }

/-- A check's view depends on its fence words alone. -/
theorem checkView_congr (s : State) (c d : HmkCheck) (ha : c.fenceA = d.fenceA) (hb : c.fenceB = d.fenceB) :
    checkView s c = checkView s d := by unfold checkView; rw [ha, hb]

/-- The seal CRC depends on the registers alone. -/
theorem sealCrc_congr (s t : State) (h : s.regs = t.regs) : sealCrc s = sealCrc t := by
  unfold sealCrc regGet; rw [h]

theorem check1_crc (c : HmkCheck) (ha : c.fenceA = check0.fenceA) (hb : c.fenceB = check0.fenceB) :
    check1.crc = sealCrc (checkView sealable c) := by
  rw [checkView_congr sealable c check0 ha hb]
  show sealCrc (checkView sealable0 check0) = _
  exact sealCrc_congr _ _ (by decide +kernel)

theorem hyp_CheckEndsTheSeal : alive sealable = true ∧ sealable.hmk.check = some check1 ∧ sealable.clear = none ∧
    checkReason (checkView sealable check1) check1 = none ∧
    checkReason (checkView sealable { check1 with gen := 5#16 }) { check1 with gen := 5#16 } = some (2, 0x1008) ∧
    (∃ c : HmkCheck, c.crc ≠ sealCrc live) := by
  refine ⟨by decide +kernel, rfl, rfl, ?_, ?_, ⟨{ check0 with crc := sealCrc live + 1#32 }, ?_⟩⟩
  · have hc := check1_crc check1 rfl rfl
    rw [checkView_congr sealable check1 check0 rfl rfl] at hc ⊢
    unfold checkReason
    rw [if_neg (by rw [hc]; exact fun h => h rfl)]
    decide +kernel
  · have hc := check1_crc { check1 with gen := 5#16 } rfl rfl
    rw [checkView_congr sealable { check1 with gen := 5#16 } check0 rfl rfl] at hc ⊢
    unfold checkReason
    rw [if_neg (by rw [← hc]; exact fun h => h rfl)]
    decide +kernel
  · show sealCrc live + 1#32 ≠ sealCrc live
    generalize sealCrc live = x
    bv_omega

theorem hyp_OpenAndDrainComplete : (inHmk .empty).hmk.state = .empty ∧ live.hmk.draining = false ∧ live.hmk.check = none ∧
    ({ live with hmk := { live.hmk with draining := true } } : State).hmk.draining = true ∧
    ({ inHmk .held with hmk := { (inHmk .held).hmk with quiesced := false } } : State).hmk.quiesced = false := by decide

theorem hyp_SealedWritesNeedAnOpenHallmark : isSealed 0x40000 = true ∧ isSealed 0x420FC = false ∧ isSealed (aKey 0xD0040) = true ∧
    drained { live with hmk := { live.hmk with draining := true } } = true ∧ (inHmk .opened).hmk.state = .opened ∧ (inHmk .checking).hmk.state = .checking ∧ live.hmk.reopen = 0#64 := by decide +kernel

theorem hyp_EjectAndQuiesceComplete : ejectAsserted live = false ∧ ejectState live ≠ 1 ∧ ejectState (withReg ejectKey 0x80000001#32) = 1 ∧
    (withReg ejectKey 0x80000001#32).hmk.state = .sealed ∧ (inHmk .opened).hmk.state ≠ .sealed ∧
    ejectState (withReg ejectKey 0x80000002#32) = 2 := by decide +kernel

theorem hyp_PowerCommandsComplete : live.power.brake = false ∧ ({ live with power := { live.power with brake := true } } : State).power.brake = true := by
  decide

theorem hyp_SheddingSparesClassZeroUntilLast : (fullGrants live).codes.all (fun c => decide (c ≤ 104)) = true := by decide +kernel

/-! ## Rings, requests, functions, events -/

/-- A request of the owner's ring 0 of port 0 at index 0, started, of an opcode and with a body. -/
def reqOf (op : Nat) (body : List Byte) : Request :=
  { source := .ring ⟨0, 0⟩ 0 0#32 0 4, tenant := 0, user := 7#64, noIrq := false, opcode := op, body := body, bodyStatus := .good,
    ext := none, poisoned := false, headFault := none, expert := 0, groups := [], fetched := 0, started := true, late := false,
    attached := false, judged := none, hostIn := [], tag := 0, names := [], fence := none, pipe := none }

/-- Forty-eight zero bytes. -/
def zeros48 : List Byte := List.replicate 48 0#8

/-- Ring 0, completion ring 0 and line 0 of the owner on port 0 enabled, sixteen entries each, one descriptor waiting. -/
def ringed : State :=
  let b := fnBase ⟨0, 0⟩
  { (regSet (regSet (regSet linked (b + 8) 0x80040000#32) (b + 0x410) 0x80040000#32) (b + 0x808) 1#32) with
    rings := { linked.rings with sqs := [(0, ⟨0#32, 1#32, .none, none⟩)] } }

/-- `ringed` with a request under tag 0. -/
def running0 (r : Request) : State := { ringed with requests := [(0, r)] }

theorem hyp_EndingARequestPostsItsCompletion : look (running0 (reqOf 0 zeros48)).requests 0 = some (reqOf 0 zeros48) ∧
    look ringed.searches 0 = none ∧ (reqOf 0 zeros48).pipe = none ∧ (reqOf 0 zeros48).source = .ring ⟨0, 0⟩ 0 0#32 0 4 ∧ (funcOf ringed ⟨0, 0⟩).d3hot = false ∧
    hostLive ringed (portFacet 0) = true ∧ noAccess (reqOf 0 zeros48) (fnPair ringed ⟨0, 0⟩ 0x400) 32 = false ∧
    (funcOf (setFunc ringed ⟨0, 0⟩ ⟨true, []⟩) ⟨0, 0⟩).d3hot = true := by decide +kernel

theorem hyp_NopCompletesAtOnce : running (running0 (reqOf 0 zeros48)) 0 0 = some (reqOf 0 zeros48) ∧ zeroAt zeros48 0 48 = true := by decide +kernel

theorem test_nop_posts_ok : (after (.nop 0) (running0 (reqOf 0 zeros48))).requests = [] ∧
    (cqOf (after (.nop 0) (running0 (reqOf 0 zeros48))) 0).posted = 1 := by decide +kernel

/-- A judged FENCE under tag 1 whose one bound is index 0 of ring 0. -/
def fenceReq : Request := { reqOf 1 zeros48 with source := .ring ⟨0, 0⟩ 0 1#32 0 4, fence := some ⟨[(0, 1#32)], true⟩ }

theorem hyp_FenceHoldsAndCompletes : running (running0 fenceReq) 0 1 = some fenceReq ∧ rdB zeros48 0 ≤ 2 ∧ zeroAt zeros48 1 47 = true ∧
    rdB (3#8 :: zeros48) 0 ≥ 3 ∧ ringOf (reqOf 0 zeros48) = some (0, 0#32) ∧ ringOf { reqOf 0 zeros48 with source := .ring ⟨0, 0⟩ 0 2#32 0 4 } = some (0, 2#32) ∧
    reached 2#32 1#32 = true ∧ nextDue (setSq (running0 fenceReq) 0 ⟨2#32, 2#32, .none, none⟩) = some (.fenceOk 0) := by decide +kernel

theorem hyp_DoorbellCommandsComplete : reachable ringed ⟨0, 0⟩ = true ∧ dbOn ringed ⟨0, 0⟩ 0 = true ∧
    (lineOf ringed ⟨0, 0⟩ 0).polling = false ∧ (lineOf (setLine ringed ⟨0, 0⟩ 0 ⟨1, true⟩) ⟨0, 0⟩ 0).polling = true ∧
    ringsOnLine ringed ⟨0, 0⟩ 0 = [0] ∧ (sqOf ringed 0).fault = .none ∧
    lineEpoch (leBytes 4 2 ++ List.replicate 60 0#8) = fld (dbCfg ringed ⟨0, 0⟩ 0) 16 16 ∧
    linePi (leBytes 4 2 ++ List.replicate 60 0#8) (fld (sqCfg ringed 0) 0 4) = 2#32 ∧
    linePi (leBytes 4 17 ++ List.replicate 60 0#8) 0 = 17#32 ∧
    lineEpoch (List.replicate 63 0#8 ++ [1#8]) ≠ fld (dbCfg ringed ⟨0, 0⟩ 0) 16 16 := by decide +kernel

/-- A NOP descriptor of format A with USER 7. -/
def nopDesc : List Byte := leBytes 8 0 ++ leBytes 8 7 ++ List.replicate 48 0#8

theorem hyp_DescriptorTakesATag : mayFetch ringed ⟨0, 0⟩ 0 = true ∧ freeKey ringed.requests 0 65536 = some 0 ∧
    (sqOf ringed 0).heldDesc = none ∧ hasExt false nopDesc = false ∧ fetchFault false nopDesc .good .good = none := by decide +kernel

theorem hyp_HeaderChecksRefuseInOrder : look opcodes (rdB [0xFF#8] 0) = none ∧ (look opcodes (rdB [0#8, 1#8] 0)).isSome = true ∧
    rdB [0#8, 1#8] 1 % 64 ≠ 0 ∧ rdB [0x20#8] 0 = 0x20 := by decide +kernel

theorem hyp_HeadWordsAndModeration : awaitsHead (setCq ringed 0 ⟨16, 0, 0, 0, false⟩) ⟨0, 0⟩ (some 0) = true ∧
    (cqOf (setCq ringed 0 ⟨16, 0, 0, 0, false⟩) 0).posted = 16 ∧ cqOn ringed 0 = true ∧
    (cqOf (setCq ringed 0 ⟨1, 0, 0, 1, true⟩) 0).timer = true ∧ evtOn (regSet ringed (fnBase ⟨0, 0⟩ + 0x1010) 0x80040000#32) ⟨0, 0⟩ = true ∧
    (evtOf (setEvt ringed ⟨0, 0⟩ ⟨1, 0, 0, 0, 1, true, []⟩) ⟨0, 0⟩).timer = true := by decide +kernel

theorem hyp_HeadWordsAndModeration_read :
    let s : State := { setCq ringed 0 ⟨16, 0, 0, 0, false⟩ with ports := [(0, { portReset with up := true })] }
    reachable s ⟨0, 0⟩ = true ∧ awaitsHead s ⟨0, 0⟩ (some 0) = true ∧ (portOf s 0).held = [] ∧ (portOf s 0).reads.length < readBound s 0 ∧
    (fnConfig s ⟨0, 0⟩).ats = false ∧ fnPair s ⟨0, 0⟩ 0x408 % 8 = 0 := by decide +kernel

theorem hyp_RingSetupCommandsComplete : sqOn linked 31 = false ∧ cqOn linked 31 = false ∧ dbOn linked ⟨0, 0⟩ 3 = false ∧
    sqSetupOk ringed ⟨0, 0⟩ 1 0x80040001#32 = true ∧ sqOn ringed 1 = false ∧ sqSetupOk ringed ⟨0, 0⟩ 1 0x80040000#32 = false ∧
    log2Ok 0x80100000#32 = true ∧ fnPair linked ⟨0, 0⟩ 0x400 % 4096 = 0 ∧ sqOn ringed 0 = true ∧ cqBound ringed ⟨0, 0⟩ 0 = true ∧
    cqBound (regSet ringed (fnBase ⟨0, 0⟩ + 8) 0#32) ⟨0, 0⟩ 0 = false ∧
    ringsOnLine (regSet ringed (fnBase ⟨0, 0⟩ + 8) 0#32) ⟨0, 0⟩ 0 = [] := by decide +kernel

/-- VF 1 of port 0 enabled, the hallmark OPEN. -/
def vfLinked : State :=
  { inHmk .opened with ports := [(0, { portReset with up := true, config := linkCfg, vfEnable := true, numVfs := 64 })] }

theorem hyp_RingSetupCommandsComplete_event : reachable vfLinked ⟨0, 64⟩ = true ∧ isSealedNow vfLinked = false ∧
    evtOn vfLinked ⟨0, 64⟩ = false ∧ fnPair vfLinked ⟨0, 64⟩ 0x1000 % 4096 = 0 ∧ fnPair vfLinked ⟨0, 64⟩ 0x1008 % 8 = 0 := by decide +kernel

theorem hyp_HostReadsReachTheirRequest : alive ringed = true ∧ look (running0 (reqOf 0 zeros48)).requests 0 = some (reqOf 0 zeros48) := by decide +kernel

theorem hyp_LinkAndFunctionCommandsComplete : mayTrain live 1 = true ∧ (portOf live 1).up = false ∧ (portOf linked 1).up = true ∧
    (portOf vfLinked 0).vfEnable = true ∧ (portOf linked 0).vfEnable = false ∧ (portOf live 0).perst = false ∧
    fnEnabled vfLinked ⟨0, 64⟩ = true ∧ (funcOf vfLinked ⟨0, 64⟩).d3hot = false ∧
    (funcOf (setFunc vfLinked ⟨0, 64⟩ ⟨true, []⟩) ⟨0, 64⟩).d3hot = true ∧ (fnConfig linked ⟨0, 0⟩).ats = true ∧
    cfgReach vfLinked ⟨0, 64⟩ = true ∧ (portOf live 1).cameDown = false ∧ (portOf live 0).reads.length ≤ readBound live 0 := by decide +kernel

/-- `linked` with one read of the owner's outstanding on port 0, and one with an Invalidate Request that waits for it. -/
def reading0 : State := hostAsk linked ⟨0, 0⟩ 0x1000 64

theorem hyp_LinkAndFunctionCommandsComplete_invalidate : (portOf linked 0).invals = [] ∧ readsOf linked ⟨0, 0⟩ = [] ∧
    readsOf reading0 ⟨0, 0⟩ = [⟨0, ownReads, 0x1000, 64⟩] ∧ (atcOf linked 0).length ≤ 2048 ∧
    (portOf (after (.atsInvalidateRequest 0 0 5) reading0) 0).invals = [⟨0, 5, [⟨0, ownReads, 0x1000, 64⟩]⟩] := by decide +kernel

/-- 16 R353: a page is translated once; after an invalidate it is translated again. -/
theorem test_page_translated_once :
    let s := hostAsk reading0 ⟨0, 0⟩ 0x1040 64
    let asked := fun (t : State) => t.outs.filter (fun o => match o with | .translate _ _ _ => true | _ => false)
    asked s = [.translate ⟨0, 0⟩ (some 0) 1] ∧
    asked (hostAsk (after (.atsInvalidateRequest 0 0 5) s) ⟨0, 0⟩ 0x1080 64) = [.translate ⟨0, 0⟩ (some 0) 1, .translate ⟨0, 0⟩ (some 0) 1] := by decide +kernel

/-- 16 R343: a request's missing data is read in pieces that do not cross 4 KiB, and asked once. -/
theorem test_operand_read_leaves :
    let r := reqOf 0x20 zeros48
    let s := running0 r
    let t := keepReads s (hostGet s r 0x1FC0 128).1
    (portOf t 0).reads = [⟨0, 0, 0x1FC0, 64⟩, ⟨0, 0, 0x2000, 64⟩] ∧ (hostGet t r 0x1FC0 128).1 = t ∧
    (portOf (after (.hostReadCompletion 0 0x1FC0 (List.replicate 64 0#8) .good) t) 0).reads = [⟨0, 0, 0x2000, 64⟩] := by decide +kernel

/-- Event ring of tenant 1 on port 0 enabled with sixteen entries, SEALED. -/
def evented : State := regSet { vfLinked with hmk := live.hmk } (fnBase ⟨0, 1⟩ + 0x1010) 0x80040000#32

theorem hyp_EventsAreNumberedAndWrittenOrLost : alive evented = true ∧ isSealedNow evented = true ∧ evtOn evented ⟨0, 1⟩ = true ∧
    evtOn evented ⟨1, 1⟩ = false ∧ (evtOf evented ⟨0, 1⟩).lost = 0 ∧ 1 ≤ evtRoom evented ⟨0, 1⟩ ∧
    evtRoom (setEvt evented ⟨0, 1⟩ ⟨16, 0, 0, 0, 0, false, []⟩) ⟨0, 1⟩ = 0 ∧ (funcOf evented ⟨0, 1⟩).d3hot = false ∧
    hostLive evented (portFacet 0) = true ∧ (funcOf (setFunc evented ⟨0, 1⟩ ⟨true, []⟩) ⟨0, 1⟩).d3hot = true := by decide +kernel

/-- 16 R350, R353: an event of a function in D3hot waits, and on return to D0 its page is translated and it is written. -/
theorem test_event_waits_in_d3hot :
    let s := raise (setFunc evented ⟨0, 1⟩ ⟨true, []⟩) 1 .ringFault 0 0 1 0
    s.outs = evented.outs ∧ (evtOf s ⟨0, 1⟩).waits.length = 1 ∧
    (after (.d3hotTransition 0 1 false) s).outs.length = evented.outs.length + 2 := by decide +kernel

/-! ## Registers -/

theorem hyp_RegisterAccessesComplete : reachable linked ⟨1, 0⟩ = true ∧ isDead linked = false ∧ wellSized 0x100 4 = true ∧
    wellSized 0x101 4 = false ∧ wellSized 0x100 8 = false ∧ fabricLive linked 7 = true := by decide +kernel

theorem test_id_register_reads : (after (.registerRead 0 0 0 0 4) linked).outs = [.regValue ⟨0, 0⟩ 0 0 0xF8101FD3#32] := by decide +kernel

theorem hyp_ExpertFieldsNeedTheirBit : reachable { vfLinked with hmk := live.hmk } ⟨0, 64⟩ = true ∧ isDead vfLinked = false ∧
    (expertOf (withReg (0x4E000 + 4 * 64) 0x3E#32) 64).testBit 0 = false ∧ (expertOf (withReg (0x4E000 + 4 * 64) 1#32) 64).testBit 0 = true := by
  decide +kernel

theorem hyp_TenantViewShowsValuesInForce : isSealed 0x40080 = true ∧ (readBar (forced [(0x40080, 5#32)]) ⟨0, 1⟩ 0 0x400).2 = 5#32 := by decide +kernel

/-! ## Flash -/

/-- `live` with one channel: chip enables 0 and 1, 64 pages a block, 16 blocks a LUN, all of it the owner's. -/
def flashed : State :=
  { regSet (withReg (fKey 0 0x30000) 0x03004000#32) (fKey 0 0x30010) 0x00100040#32 with
    force := [(0x50008, 0x10#32), (0x5000C, 0x81000000#32)] }

/-- An extent of n bytes at offset st of block 0. -/
def extentOf (st n : Nat) : List Byte := leBytes 6 0 ++ leBytes 2 st ++ leBytes 4 n ++ leBytes 4 0

/-- A read of one byte at the start of block 0 by request 3, its page read in flight as command 0, transferred or not yet. -/
def read0 : ExtentRead := ⟨3, .latency, 0, 0, extentOf 0 1, 0, 0, 0, 1, 0, 0, [], [], none⟩
def cmd0 : NandCmd := ⟨0, .read 0 0 0, .latency, 0, []⟩
def readFlight (done : Bool) : State :=
  { flashed with flash := { flashed.flash with reads := [(9, read0)], inFlight := [(0, ⟨[cmd0], false, done⟩)], nextCmd := 1 } }
def reading : State := readFlight true

/-- `flashed` with an update in flight on LUN 0. -/
def updating (op : NandOp) (d : List Byte) : State :=
  { flashed with flash := { flashed.flash with inFlight := [(0, ⟨[⟨0, op, .update, 0, d⟩], false, false⟩)] } }

theorem hyp_FlashReadCommandsComplete_extent : extentFault flashed 0 (extentOf 4095 1) = none ∧ extentFault flashed 0 (extentOf 4095 0) = some .badExtent ∧
    look (setRequest flashed 3 (reqOf 0x20 zeros48)).requests 3 = some (reqOf 0x20 zeros48) ∧ look flashed.flash.reads 9 = none ∧
    engineServes .rescore 0x20 = true := by decide +kernel

theorem hyp_FlashReadCommandsComplete_issue :
    let s := setQueue flashed 0 [⟨5, .erase 0, .update, 0, []⟩]
    let turn : NandTurn := ⟨false, none, []⟩
    lunLive s 0 = true ∧ inFlightOn s 0 < 64 ∧ nextIssue (lunQueue s 0) turn = some 0 ∧
    (lunQueue s 0)[0]? = some ⟨5, .erase 0, .update, 0, []⟩ ∧ look s.flash.inFlight 0 = none := by decide +kernel

theorem hyp_FlashReadCommandsComplete_poll :
    look (readFlight false).flash.inFlight 0 = some ⟨[cmd0], false, false⟩ ∧ NandFlight.isUpdate ⟨[cmd0], false, false⟩ = false ∧
    (readFlight false).flash.reads.any (fun p => [cmd0].any (fun c => c.num == p.2.waits)) = true ∧
    look (readFlight false).flash.jobs 0 = none ∧ flashed.nor.badBlocks.length < 4096 ∧ flashed.nor.badBlocks.contains 0 = false ∧
    look (updating (.erase 0) []).flash.inFlight 0 = some ⟨[⟨0, .erase 0, .update, 0, []⟩], false, false⟩ ∧
    look (updating (.program 4095) [7#8]).flash.inFlight 0 = some ⟨[⟨0, .program 4095, .update, 0, [7#8]⟩], false, false⟩ ∧
    programBreaks (updating (.program 4095) [7#8]) 4095 = false ∧
    bitOf (chCfg flashed 0) (24 + 1) = true ∧ 8 * 0 + 1 ≠ 0 / 4 ∧ targetOff flashed 1 = false := by decide +kernel

/-- A scan of block 0 that waits for its first page, whose read is in flight, on a port that carries traffic. -/
def scanning : State :=
  { readFlight false with
    ports := linked.ports
    flash := { (readFlight false).flash with jobs := [(0, ⟨0, 0, 1, 0, .scan [0] [true] 4096 0, 0, false⟩)] } }

theorem hyp_FlashReadCommandsComplete_scan : alive scanning = true ∧
    look scanning.flash.jobs (0 / 128) = some ⟨0, 0, 1, 0, .scan [0] [true] 4096 0, 0, false⟩ ∧
    [0].all (fun p => [cmd0].any (fun c => c.op == .read p 0 0)) = true ∧ dmaOpen scanning ⟨0, 0⟩ = true := by decide +kernel

/-- What follows the data of a codeword of zeros: its sector CRCs, its address, its version and parity. -/
def cwTail (fca crc : Nat) : List Byte := (upto 8).flatMap (fun _ => leBytes 4 crc) ++ leBytes 6 fca ++ List.replicate 514 0#8
/-- A codeword of zeros at an FCA with the given sector CRC. -/
def cwZero (fca crc : Nat) : List Byte := List.replicate 4096 0#8 ++ cwTail fca crc

set_option maxRecDepth 40000 in
/-- CRC-32C of six address bytes and 512 zeros, for FCAs 0 to 3; the values computed apart. -/
theorem test_sector_crc : sectorCrc (leBytes 6 0) (List.replicate 512 0#8) = 3247023994 ∧ sectorCrc (leBytes 6 1) (List.replicate 512 0#8) = 704685607 ∧
    sectorCrc (leBytes 6 2) (List.replicate 512 0#8) = 326619953 ∧ sectorCrc (leBytes 6 3) (List.replicate 512 0#8) = 4177449580 := by
  simp only [sectorCrc, crc32c_toNat, crcFrom_append]
  decide +kernel


/-- CRC-32C of the nine digits (RFC 3720's check value). -/
theorem test_crc32c_check_value : crc32c [0x31#8, 0x32#8, 0x33#8, 0x34#8, 0x35#8, 0x36#8, 0x37#8, 0x38#8, 0x39#8] = 0xE3069283#32 := by decide +kernel

/-- Bytes of a codeword of zeros: its sectors, and what stands past its data. -/
theorem cwZero_sector (fca crc i : Nat) (h : i < 8) : slice (cwZero fca crc) (512 * i) 512 = List.replicate 512 0#8 := by
  unfold slice cwZero
  rw [List.drop_append_of_le_length (by rw [List.length_replicate]; omega), List.drop_replicate,
    List.take_append_of_le_length (by rw [List.length_replicate]; omega), List.take_replicate]
  congr 1; omega
theorem cwZero_past (fca crc i n : Nat) : slice (cwZero fca crc) (4096 + i) n = slice (cwTail fca crc) i n := by
  unfold slice cwZero
  rw [List.drop_append, List.drop_eq_nil_of_le (by rw [List.length_replicate]; omega), List.length_replicate, List.nil_append,
    Nat.add_sub_cancel_left]

/-- Sectors of zeros with the right CRC are good. -/
theorem zero_sectors_good (fca crc off n : Nat) (h : sectorCrc (leBytes 6 fca) (List.replicate 512 0#8) = crc)
    (h1 : slice (cwTail fca crc) 32 6 = leBytes 6 fca) (h2 : ∀ i, i < 8 → rdLe (cwTail fca crc) (4 * i) 4 = crc)
    (h3 : ∀ i, i ∈ rangeFrom (off / 512) ((off + n - 1) / 512 - off / 512 + 1) → i < 8) : badSectors (cwZero fca crc) off n = [] := by
  unfold badSectors
  rw [List.filter_eq_nil_iff]
  intro i hi
  have hi8 := h3 i hi
  have hr : rdLe (cwZero fca crc) (4096 + 4 * i) 4 = crc := by
    have := h2 i hi8
    unfold rdLe at this ⊢
    rw [cwZero_past, this]
  rw [show (4128 : Nat) = 4096 + 32 from rfl, cwZero_past, h1, cwZero_sector fca crc i hi8, hr, h]
  exact fun e => absurd rfl (of_decide_eq_true e)

theorem hyp_FlashReadCommandsComplete_decode : look reading.flash.reads 9 = some read0 ∧
    transfers reading (read0.op reading).lun read0.waits = true ∧
    cwSource reading (read0.fca reading) = .shown ∧ (cwZero 0 3247023994).length = 4648 ∧ 64 ≤ zeroBits (cwZero 0 3247023994) ∧
    rdLe (cwZero 0 3247023994) 4128 6 = read0.fca reading ∧ badSectors (cwZero 0 3247023994) read0.off read0.left = [] ∧
    read0.reader < 65536 ∧ ({ read0 with reader := 65537 } : ExtentRead).reader = jobReader 0 ∧
    (match look ({ scanning with flash := { scanning.flash with jobs := [(0, ⟨0, 0, 1, 0, .reading 4096, 0, false⟩)] } } : State).flash.jobs 0 with
      | some j => j.work == .reading 4096 | none => false) = true :=
  ⟨by decide +kernel, by decide +kernel, by decide +kernel, by decide +kernel, by decide +kernel, by decide +kernel,
   zero_sectors_good 0 3247023994 _ _ test_sector_crc.1 (by decide +kernel) (by decide +kernel) (by decide +kernel),
   by decide +kernel, by decide +kernel, by decide +kernel⟩

theorem hyp_FlashReadCommandsComplete_zq : lunLive flashed 3 = true ∧ bitOf (chCfg flashed (3 / 32)) (24 + 3 / 4 % 8) = true ∧
    4 ≤ fld (chCfg flashed (3 / 32)) 12 4 := by decide +kernel

/-- A job of two entries on facet 0, and one of its entries: op, count, FCA. -/
def job0 : FlashJob := ⟨0, 0, 2, 0, .fetch, 0, false⟩
def jobbed : State := { flashed with ports := linked.ports, flash := { flashed.flash with jobs := [(0, job0)] } }
def entryOf (op n fca : Nat) : List Byte := leBytes 2 op ++ leBytes 2 n ++ leBytes 6 fca ++ leBytes 6 0 ++ leBytes 8 0 ++ leBytes 8 0

theorem hyp_FlashJobsComplete : look flashed.flash.jobs 7 = none ∧ regFld (withReg (fKey 0 0x30108) 0xFFFF#32) (fKey 0 0x30108) 0 16 ≠ 0 ∧
    regFld live (fKey 0 0x30108) 0 16 = 0 ∧ isSealedNow (inHmk .held) = false ∧ jobReady jobbed 0 = some job0 ∧
    entryBad jobbed 0 (entryOf 1 16 0) = false ∧ entryBad jobbed 0 (entryOf 2 64 0) = false ∧ entryBad jobbed 0 (entryOf 3 16 0) = false ∧
    entryBad jobbed 0 (entryOf 4 1 0) = false ∧ lunLive jobbed (fcaLun 0) = true ∧ blockRefused jobbed 0 = false ∧
    blockRefused { jobbed with nor := { jobbed.nor with badBlocks := [0] } } 0 = true ∧ cwPer jobbed 0 = 4 ∧
    updatesFly jobbed 0 = false ∧ updatesFly (updating (.erase 0) []) 0 = true ∧ look jobbed.flash.reads 9 = none := by decide +kernel

/-- 07 R162: an abort with an erase in flight leaves the job until the erase has ended, and ENTRY then names the next entry. -/
theorem test_abort_waits : let s := { updating (.erase 0) [] with flash := { (updating (.erase 0) []).flash with
      jobs := [(0, { job0 with work := .updates })] } }
    let t := after (.flsJobAbort 0) s
    (look t.flash.jobs 0).isSome = true ∧ regGet (after (.readStatusPoll 0 .ready) t) (fKey 0 0x30110) = 0x37000001#32 := by decide +kernel
/-! ## Tokens, gather, scatter -/

/-- The answer of a reading, when it is one. -/
def gotOf {α : Type} (x : Reading α) : Option α := match x.2 with | .ok a => some a | _ => none
/-- The status of a reading that fails. -/
def failOf {α : Type} (x : Reading α) : Option Status := match x.2 with | .fail a => some a | _ => none

/-- A body of zeros with fields written at descriptor byte offsets: (offset, bytes, value). -/
def bodyWith (l : List (Nat × Nat × Nat)) : List Byte :=
  l.foldl (fun b p => b.take (p.1 - 16) ++ leBytes p.2.1 p.2.2 ++ b.drop (p.1 - 16 + p.2.1)) zeros48

/-- `ringed` with the first 16 MiB of the slices the owner's. -/
def slicey : State := { ringed with force := [(0x50000, 0x40000000#32), (0x50008, 0x100#32), (0x5000C, 0x80000000#32)] }

/-- `slicey` with an empty vocabulary of 256 tokens in slot 0, its tag 0. -/
def voc0 : VocSlot := ⟨0x40000000, 0, 256, 0, false, 0, []⟩
def vocab : State := { slicey with voc := [(0, voc0)] }

theorem hyp_TokenCommandsComplete_tokenize : let s := setRequest vocab 0 (reqOf 0x10 zeros48)
    running s 0 0x10 = some (reqOf 0x10 zeros48) ∧ noService s = false ∧ tokenizeBad (reqOf 0x10 zeros48) = false ∧
    vocOf s (reqOf 0x10 zeros48) 0 = some voc0 ∧ engineFor s 3 7 = some none ∧
    gotOf (readAt s (reqOf 0x10 zeros48) false 0 0) = some [] ∧
    gotOf (tokenizeCore s 0 voc0 ⟨false, false, false, false, false⟩ 0 []) = some ⟨[], 0, 0, false⟩ ∧
    outCheck s (reqOf 0x10 zeros48) false 0 0 = none := by decide +kernel

theorem hyp_TokenCommandsComplete_detokenize : let s := setRequest vocab 0 (reqOf 0x11 zeros48)
    running s 0 0x11 = some (reqOf 0x11 zeros48) ∧ detokenizeBad (reqOf 0x11 zeros48) = false ∧
    (appended (memRead s 0x40000000 0) false []).length ≤ bodyLe (reqOf 0x11 zeros48) 40 4 ∧ blobPoison s 0x40000000 [] = none := by decide +kernel

/-- Of two node reads, the one inside the preloaded bytes is not read again. -/
theorem hyp_TokenCommandsComplete_preload : let v : VocSlot := ⟨0x40000000, 100, 256, 0, false, 64, List.replicate 16 0#8⟩
    coldParts v [(64, 8), (90, 8)] = [(90, 8)] := by decide +kernel

/-- A grammar blob of one state whose one entry accepts (09 R194); its CRC-32C computed apart. -/
def grammarBlob : List Byte :=
  leBytes 4 0x414D5247 ++ leBytes 2 1 ++ leBytes 2 1 ++ leBytes 4 1 ++ leBytes 4 88 ++ leBytes 8 0 ++ leBytes 4 0x689A887F ++ leBytes 4 0 ++
  leBytes 4 64 ++ leBytes 4 72 ++ leBytes 4 1 ++ leBytes 2 1 ++ List.replicate 18 0#8 ++ leBytes 4 0 ++ leBytes 2 1 ++ leBytes 2 0 ++
  leBytes 2 0 ++ leBytes 2 1 ++ leBytes 12 0

set_option maxRecDepth 40000 in
theorem hyp_TokenCommandsComplete_loads : vocab.tokLd = none ∧ vocab.tokUnld = [] ∧ look vocab.voc 15 = none ∧ look vocab.grm 63 = none ∧
    destOk vocab 0x40000000 88 = true ∧ loadState vocab = true ∧ rangeLive vocab 0x40000000 88 = true ∧
    tokCheck vocab ⟨1, 63, 0, 0x40000000, 0, 88⟩ grammarBlob = none ∧ 88 ≤ grammarBlob.length ∧
    tokCheck vocab ⟨0, 15, 0, 0x40000000, 0, 88⟩ grammarBlob = some (1, 0) ∧ homeQuiet vocab 0x40000000 88 = true ∧
    memPoison vocab 0x40000000 88 = none := by decide +kernel

theorem hyp_TokenCommandsComplete_unloads :
    ({ vocab with grm := [(0, ⟨0x40000000, 88, 0, 1, false⟩)] } : State).grm.any (fun g => g.2.bind == 0) = true ∧
    (look vocab.voc 0).isSome = true ∧ vocab.grm.any (fun g => g.2.bind == 0) = false ∧ vocab.requests = [] ∧ vocab.pools = [] ∧
    nameHeld { vocab with tokUnld := [(0, 0)] } (tokName 0 0) = false ∧ vocab.srchUnld = [] ∧ vocab.tplUnld = [] ∧ vocab.troy = [] ∧
    fld (regGet (regSet vocab tokSt (ldWord 1 0)) tokSt) 28 4 = 1 ∧ vocab.tokLd = none := by
  decide +kernel

/-- A table of two INT8 rows of 64 bytes, its record at 0x40000000 and one index, 1, at 0x40001000. -/
def table0 : Table := ⟨0, 4, 0, 64, 0, 2, 2, 0x40010000, 64, 0, 0, 0, 0, 0, 0⟩
def tabled : State :=
  memWrite (memWrite slicey 0x40000000 (leBytes 4 0x0400 ++ leBytes 4 64 ++ leBytes 4 2 ++ leBytes 4 2 ++ leBytes 8 0x40010000 ++ leBytes 4 64))
    0x40001000 (leBytes 4 1)
/-- A GATHER of that index into device memory, and one of no index. -/
def gatherReq : Request := reqOf 0x12 (bodyWith [(16, 8, 0x40001000), (24, 4, 1), (28, 1, 0x30), (32, 8, 0x40002000), (40, 4, 64), (48, 8, 0x40000000)])
def gatherNone : Request := reqOf 0x12 (bodyWith [(48, 8, 0x40000000)])

theorem hyp_GatherAndScatterComplete_start : running (setRequest tabled 0 gatherReq) 0 0x12 = some gatherReq ∧
    (gatherInputs tabled gatherReq (readIdx gatherReq)).2 = .ok ⟨table0, [], [1], [], [], 0⟩ ∧
    (gatherInputs tabled gatherNone (readIdx gatherNone)).2 = .ok ⟨table0, [], [], [], [], 0⟩ ∧
    gatherLen gatherReq ⟨table0, [], [1], [], [], 0⟩ ≤ bodyLe gatherReq 40 4 ∧ outCheck tabled gatherReq true 0x40002000 64 = none ∧ noService tabled = false ∧
    splitReads (allReads tabled gatherReq ⟨table0, [], [1], [], [], 0⟩) = [(0x40010040, 64)] ∧ look tabled.gathers 0 = none ∧
    tabled.gathers = [] := by decide +kernel

theorem hyp_GatherAndScatterComplete_dropped : let s := memWrite tabled 0x40001000 (leBytes 4 2)
    (gatherInputs s gatherReq (readIdx gatherReq)).2 = .ok ⟨table0, [], [2], [], [], 0⟩ ∧
    [2].all (fun i => !table0.valid i) = true ∧ gatherLen gatherReq ⟨table0, [], [2], [], [], 0⟩ ≤ bodyLe gatherReq 40 4 ∧
    outCheck s gatherReq true 0x40002000 64 = none := by decide +kernel

/-- That gather with its one row read under way. -/
def gathering : State := { setRequest tabled 0 gatherReq with gathers := [(0, ⟨⟨table0, [], [1], [], [], 0⟩, [], [(0x40010040, 64)], [⟨0x40010040, 64, none⟩]⟩)] }

/-- That gather with bags pooled by sum. -/
def gatherPooled : Request := { gatherReq with body := bodyWith [(16, 8, 0x40001000), (24, 4, 1), (28, 1, 0x70), (48, 8, 0x40000000)] }

theorem hyp_GatherAndScatterComplete_row : let j : GatherJob := ⟨⟨table0, [], [1], [], [], 0⟩, [], [(0x40010040, 64)], [⟨0x40010040, 64, none⟩]⟩
    let done := { j with flying := [], rows := [⟨0x40010040, 64, some (List.replicate 64 0#8, none)⟩] }
    running gathering 0 0x12 = some gatherReq ∧ look gathering.gathers 0 = some j ∧ cohBusy gathering 0x40010040 64 = false ∧
    checkAccess gathering 0 0x40010040 64 = none ∧ captureRow gathering 0x40010040 ⟨0x40010040, 64, none⟩ = ⟨0x40010040, 64, some (List.replicate 64 0#8, none)⟩ ∧
    table0.valid 2 = false ∧ poisonedSlot gathering gatherReq done = none ∧
    (poisonedSlot gathering gatherReq { done with rows := [⟨0x40010040, 64, some (List.replicate 64 0#8, some .memory)⟩] }) = some (0, .memory) ∧
    noService gathering = false ∧ bodyB gatherPooled 28 / 64 ≠ 0 ∧
    running (setRequest gathering 0 gatherPooled) 0 0x12 = some gatherPooled := by decide +kernel

theorem hyp_GatherAndScatterComplete_scatter :
    ([0, 1, 2].all (fun m => match (scatterRun m tabled (reqOf 0x13 (bodyWith [(28, 1, 64 * m), (48, 8, 0x40000000)]))).2 with
      | .ok _ => true | _ => false)) = true ∧ table0.valid 1 = true ∧ checkAccess tabled 0 (table0.base + table0.mainRow 1 * table0.stride) 64 = none ∧
    homeQuiet tabled (table0.base + table0.mainRow 1 * table0.stride) 64 = true ∧
    writesClean tabled (table0.base + table0.mainRow 1 * table0.stride) 64 = true := by
  decide +kernel

/-! ## Matrix, search, select, pipeline -/

/-- `slicey` with partitions 0 and 9 the owner's, 1 GiB of HBM on facet 0, and its first MiB in a second region. -/
def parted : State :=
  regSet { slicey with force := slicey.force ++ [(0x50014, 0x10#32), (0x50018, 0x100#32), (0x5001C, 0x80000000#32)] |>.insertIdx 0 (0x4D000, 0x201#32) }
    (fKey 0 0x20000) 0x100#32

/-- Metadata of a troy image: zeros with fields written: (offset, bytes, value). -/
def metaWith (l : List (Nat × Nat × Nat)) : List Byte :=
  l.foldl (fun b p => b.take p.1 ++ leBytes p.2.1 p.2.2 ++ b.drop (p.1 + p.2.1)) (List.replicate 96 0#8)

/-- `parted` with an image READY in slot 0. -/
def troyed (md : List Byte) : State := setTroy parted 0 ⟨.ready, some ⟨md, []⟩, 1, [], none, none, none, none⟩

/-- An EMBED of one sequence of one row of no bytes, from and to device memory, by group 0. -/
def embedReq : Request :=
  { reqOf 0x14 (bodyWith [(24, 4, 1), (28, 2, 1), (30, 1, 0x40), (32, 8, 0x40002000), (40, 4, 64)]) with groups := [1#64] }
/-- An index of one list of one passage of dimension 0, and a RERANK by rescore of no candidates. -/
def emptyIndex : List Byte := metaWith [(7, 1, 1), (12, 4, 1), (16, 8, 1), (32, 8, 0x40001000)] ++ List.replicate 64 0#8

/-- `parted` with that index in slots 0 and 63. -/
def indexed : State := { parted with idx := [(0, ⟨emptyIndex, false⟩), (63, ⟨emptyIndex, false⟩)] }

/-- An index of one cold list of one passage of dimension 1 (12 R249); its CRC-32C computed apart. -/
def goodIndex : List Byte :=
  metaWith [(0, 4, 0x58444E49), (4, 2, 1), (7, 1, 1), (8, 2, 1), (10, 1, 1), (12, 4, 1), (16, 8, 1), (24, 4, 160), (28, 4, 0x20031BA2),
    (32, 8, 0x1000000000), (52, 4, 1), (56, 8, 0x1000000040), (64, 8, 0x1000000080), (80, 8, 0x40000000)] ++ List.replicate 32 0#8 ++
  leBytes 8 0x40001000 ++ leBytes 8 0 ++ leBytes 8 0x10000000000 ++ leBytes 8 0

/-- `parted` with 1 GiB of LPDDR5X on facet 0 in a third region, and the directory of that index. -/
def catalogued : State :=
  memWrite (regSet { parted with force := parted.force ++ [(0x50024, 0x100#32), (0x50028, 0x100#32), (0x5002C, 0x80000000#32)],
                                 idx := [(0, ⟨goodIndex, false⟩), (63, ⟨goodIndex, false⟩)] } (fKey 0 0x20004) 0x1000000#32)
    0x1000000000 (leBytes 8 0 ++ leBytes 4 1 ++ leBytes 4 0)

/-- A SEARCH of slot 0 with NPROBE 1 and K 1, its query and its job before and after the choice of lists. -/
def searchReqOf (n : Nat) : Request := reqOf 0x15 (bodyWith [(24, 4, n), (28, 2, 1), (32, 4, 1), (48, 4, 16)])
def query0 : SearchQ := ⟨0, List.replicate 4 0#8, 0, 1, 1, none, none, 0, [(0x40008000, 64)]⟩
def search0 : SearchJob := ⟨query0, none, [], [], 0, none, false, [], false⟩
def searchingOf (s : State) (r : Request) (j : SearchJob) : State := { setRequest s 0 r with searches := [(0, j)] }

theorem hyp_MatrixCommandsComplete_embed : let s := setRequest (troyed (metaWith [(60, 4, 1)])) 0 embedReq
    noService s = false ∧ running s 0 0x14 = some embedReq ∧ gotOf (embedRun 0 s embedReq) = some ([1, 0, 0, 0], .ok) := by decide +kernel

/-- A RERANK by rescore of one candidate, from device memory: its query block holds one token. -/
def rerankReq : Request :=
  { reqOf 0x17 (bodyWith [(16, 8, 0x40003000), (24, 2, 1), (26, 2, 1), (28, 2, 1), (30, 2, 16), (32, 8, 0x40004000), (40, 8, 0x40005000),
      (48, 4, 16), (60, 1, 0xF0)]) with groups := [1#64] }

/-- `indexed` with that query block, and the flash read of the passage's vector of no bytes delivered. -/
def reranking : State :=
  let s := setRequest (memWrite indexed 0x40004000 [1#8]) 0 rerankReq
  { s with flash := { s.flash with finished := [⟨0, List.replicate 16 0#8, [], [], none⟩] } }

theorem hyp_MatrixCommandsComplete_rerank : let s := reranking
    noService s = false ∧ running s 0 0x17 = some rerankReq ∧ (gotOf (rerankRun 0 s rerankReq)).isSome = true := by decide +kernel

/-- An INT8 operation of one tile, a BF16 one, and passes of their tiles: 3 · 1 - 2 · 5 = -7 and 3 · 2 + 2 · 128 = 262. -/
def op8 : MatrixOp := ⟨0, .int8, .int32, 2, 2, 2, 0⟩
def pass8 (err1 err2 : List (Nat × Nat × Int)) : TilePass := ⟨op8, [[3, 0xFE], [0, 0]], [[1, 2], [5, 0x80]], err1, err2, none, 0⟩
def passFlush : TilePass := ⟨⟨1, .bf16, .float 0, 1, 1, 2, 0⟩, [[0x7F00, 0x0080]], [[0x3F80], [0x0080]], [], [], none, 0⟩
def sums8 : List (List Machine.Num) := [[.fin true 7 0, .fin false 262 0], [.fin false 0 0, .fin false 0 0]]

/-- 11 R229, R231, R232: a clean pass, a fault that the recompute clears, and one that it does not. -/
theorem test_tile_pass : passResult (pass8 [] []) 2 2 = (.clean, sums8, 0) ∧ passResult (pass8 [(0, 0, 1)] []) 2 2 = (.cleared, sums8, 0) ∧
    passResult (pass8 [(0, 0, 1)] [(1, 1, -3)]) 2 2 = (.failed, [], 0) := by decide +kernel
/-- 11 R222, R230: 2^-252 beside 2^127 flushes, and the pass is not checked. -/
theorem test_flush_unchecked : passResult passFlush 1 2 = (.unchecked, [[.fin false (2 ^ 127) 0]], 1) := by decide +kernel
/-- 11 R226: 449 rounds to 448, the largest of E4M3; 465 is out of range. INT32 saturates. -/
theorem test_round_out : roundOut (.float 2) (.fin false 449 0) = (0x7E, false) ∧ roundOut (.float 2) (.fin false 465 0) = (0x7E, true) ∧
    roundOut .int32 (.fin true (2 ^ 31 + 1) 0) = (0x80000000, true) := by decide +kernel
/-- 11 R228: seven weight tiles split three ways. -/
theorem test_k_ranges : kRanges 7 3 = [(0, 3), (3, 5), (5, 7)] := by decide

/-- Metadata with an operation table: INT8 2 by 2, BF16 2 by 1, INT8 256 by 2. -/
def opsMeta : List Byte :=
  metaWith [(44, 4, 3), (48, 4, 96), (60, 4, 1)] ++ leBytes 4 0 ++ leBytes 4 2 ++ leBytes 4 2 ++ leBytes 4 0 ++
    leBytes 4 0x2000000 ++ leBytes 4 2 ++ leBytes 4 1 ++ leBytes 4 0 ++ leBytes 4 0 ++ leBytes 4 256 ++ leBytes 4 2 ++ leBytes 4 0

/-- A matrix request of group 0 on that image with no suspect limit, an operation begun on it, and its tile with its sums. -/
def multiplying : State := setRequest (regSet (troyed opsMeta) (fKey 0 0x40100) 0#32) 0 rerankReq
def runOf : ImageRun := ⟨⟨opsMeta, []⟩, 0, none⟩
def begun (o : MatrixOp) : State := redispatch (withOperation multiplying 0 runOf o)
def tileSums (next : Nat) : TileWork := ⟨⟨0, 0, 0, 1⟩, next, List.replicate 2 (List.replicate 2 (.fin false 0 0))⟩

theorem hyp_MatrixCommandsComplete_passes : (matrixRunning multiplying 0).bind (imageRun multiplying 0) = some runOf ∧ opOk op8 = true ∧
    opOfImage runOf op8 = true ∧ opOk passFlush.op = true ∧ opOfImage runOf passFlush.op = true ∧ opOfImage runOf { op8 with k := 3 } = false ∧
    (mtxOf (begun op8) 0).run = some ⟨op8, none, [], [(0, tileSums 0)], [], []⟩ ∧ passShaped (pass8 [] []) (tileSums 0) = true ∧
    ((mtxOf (begun passFlush.op) 0).run.map (fun d => d.busy.map (fun p => passShaped passFlush p.2))) = some [true] ∧
    sliceCols op8 0 = 2 ∧ tileDepth op8 0 = 2 ∧ regFld multiplying (fKey 0 0x40100) 0 8 = 0 ∧
    partTag (begun op8) 0 = some 0 ∧ look (begun op8).requests 0 = some rerankReq ∧ rerankReq.pipe = none := by decide +kernel

/-- That operation with its tile finished, whole and half of K. -/
def finishedTile (o : MatrixOp) : State := setMtx multiplying 0 { mtxReset with run := some ⟨o, none, [], [(0, tileSums 1)], [], []⟩ }

theorem hyp_MatrixCommandsComplete_tiles : [op8, { op8 with entry := 2, k := 256 }].all (fun o =>
    let s := redispatch (finishedTile o)
    let d : MatrixRun := ⟨o, none, [], [(0, tileSums 1)], [], []⟩
    (matrixRunning s 0).isSome && decide ((mtxOf s 0).run = some d) && decide ((joinPart d (tileSums 1)).1 = 1) &&
    decide (tilesK o = if o.k = 2 then 1 else 2)) = true := by
  decide +kernel

theorem hyp_SearchCommandsComplete_start : [0, 63].all (fun n =>
    let r := searchReqOf n
    let s := setRequest indexed 0 r
    decide (running s 0 0x15 = some r) && searchBad r == false && decide (16 * bodyLe r 32 4 ≤ bodyLe r 48 4) &&
    outCheck s r (nbit (bodyB r 36) 4) (bodyLe r 40 8) (16 * bodyLe r 32 4) == none && bodyB r 37 % 16 == 0 && !noService s &&
    (look s.searches 0).isNone && (gotOf (searchInputs s r (ownQuery r))).isSome) = true := by decide +kernel

theorem hyp_SearchCommandsComplete_phases : let s := searchingOf catalogued (searchReqOf 0) search0
    searching s 0 = some (searchReqOf 0, search0) ∧ someEngine s 0 = true ∧ searchBlob s search0 = goodIndex ∧
    (gotOf (centroidReads s 0 goodIndex)).isSome = true ∧ (gotOf (handleRead s 0 (ixDir goodIndex) 16)).isSome = true ∧
    rowLength s goodIndex [0] = 1 ∧ scans s search0 (.similarity 0) = true := by decide +kernel

theorem hyp_SearchCommandsComplete_copy : let s := searchingOf catalogued (searchReqOf 0) search0
    let a := stripeAddr goodIndex (listOf s goodIndex 0) 0
    nextCopy s 0 (searchReqOf 0) search0 goodIndex 0 = some (0, 0x40008000) ∧ search0.entries = none ∧
    rangeLive s a (stripeBytes s goodIndex 0 0) = true ∧ rangeLive s 0x40008000 (stripeBytes s goodIndex 0 0) = true ∧
    cohBusy s a (stripeBytes s goodIndex 0 0) = false := by decide +kernel

theorem hyp_SearchCommandsComplete_scan :
    let j := { search0 with lists := some [0] }
    let s := searchingOf indexed (searchReqOf 0) j
    searching s 0 = some (searchReqOf 0, j) ∧ copyAwaited s 0 (searchReqOf 0) j = false ∧
    gotOf (scanRun s 0 (searchBlob s search0) query0 [] [0]) = some ([], false) := by decide +kernel

theorem hyp_SearchCommandsComplete_deadline :
    let r := { searchReqOf 0 with ext := some (leBytes 4 0 ++ leBytes 4 1 ++ List.replicate 56 0#8), expert := 0xFF }
    let s := searchingOf indexed r { search0 with shards := [⟨15, 63, 4095, none, none⟩] }
    (searching s 0).isSome = true ∧ r.source = .ring ⟨0, 0⟩ 0 0#32 0 4 ∧ extField r 4 (rdLe (extOf r) 4 4) 0 ≠ 0 := by decide +kernel

theorem hyp_SearchCommandsComplete_loads : alive parted = true ∧ parted.srchLd = none ∧ parted.srchUnld = [] ∧ loadState parted = true ∧
    pair (regGet parted) (aKey 0x50000) % 64 = 0 ∧ look parted.idx (fld 0x3F00#32 8 6) = none ∧
    (look indexed.idx (fld 0x3F00#32 8 6)).isSome = true ∧ parted.requests = [] ∧ parted.pools = [] := by decide +kernel

set_option maxRecDepth 40000 in
theorem hyp_SearchCommandsComplete_done : let s := { catalogued with srchLd := some ⟨0, 5, 0, 0, 0, 160⟩ }
    let s0 := backOwner { s with srchLd := none } 0 160
    alive s = true ∧ dirReadable s (goodIndex.take 160) 160 = true ∧ cohBusy s (ixDir goodIndex) (16 * ixNlist goodIndex) = false ∧
    dirReadable s0 (goodIndex.take 160) 160 = true ∧
    indexCheck (engRead s0 0 (ixDir goodIndex) (16 * ixNlist goodIndex)) (goodIndex.take 160) 160 = none ∧
    dirReadable s0 ([].take 160) 160 = false ∧ indexCheck s0 ([].take 160) 160 = some (1, 0) := by decide +kernel

/-- A SELECT with K 1 of no entries, on one unit and on eight. -/
def selectReq (facets : Nat) : Request := reqOf 0x16 (bodyWith [(28, 4, 1), (33, 1, facets)])

theorem hyp_SelectCommandsComplete : [0, 0xFF].all (fun m =>
    let s := setRequest parted 0 (selectReq m)
    decide (running s 0 0x16 = some (selectReq m)) && !noService s && (look s.selects 0).isNone &&
    !noService (spoilScratch (selectCounts (selectInputs s (selectReq m)).1 [0] [] false 1) (selectReq m) 1) &&
    decide (gotOf (selectInputs s (selectReq m)) = some (if m = 0 then [0] else [0, 1, 2, 3, 4, 5, 6, 7], []))) = true ∧
    look { parted with selects := [(0, ⟨[0, 1], [], 0⟩)] }.selects 0 = some ⟨[0, 1], [], 0⟩ ∧
    [0, 1].all (fun f => engineLive parted f 1 && fabricLive parted f) = true ∧ [0].eraseDups.length = 1 := by decide +kernel

/-- A plan of one SELECT with K 1, and a stage input block of no entry; a PIPELINE of stage 4 on them. -/
def plan4 : List Byte := leBytes 1 4 ++ List.replicate 27 0#8 ++ leBytes 4 1 ++ List.replicate 32 0#8
def block4 : List Byte := List.replicate 64 0#8
def pipeReq : Request :=
  { reqOf 0x20 (bodyWith [(16, 8, 0x10000), (24, 4, 64), (28, 1, 0x44), (32, 8, 0x20000), (40, 2, 1), (44, 8, 0x30000), (52, 4, 64)]) with
    hostIn := [⟨0x10000, block4, .good⟩, ⟨0x20000, plan4, .good⟩] }
/-- That pipeline after its checks, and one that goes on to stage 5. -/
def pipe4 : Pipeline := pipeInput (pipeNew 4 4 plan4 block4)
def pipe45 : Pipeline := pipeInput (pipeNew 4 5 plan4 block4)

theorem hyp_PipelineCommandsComplete_start : let s := setRequest parted 0 pipeReq
    running s 0 0x20 = some pipeReq ∧ pipeBad pipeReq = false ∧ hostRead pipeReq (bodyLe pipeReq 32 8) (64 * bodyLe pipeReq 40 2) = .ok plan4 ∧
    gotOf (readAt s pipeReq (nbit (bodyB pipeReq 29) 0) (bodyLe pipeReq 16 8) (bodyLe pipeReq 24 4)) = some block4 ∧
    planShape plan4 4 4 = true ∧ planRules (pipeNew 4 4 plan4 block4) 64 = true ∧ planResolves (notePlan s pipeReq plan4) pipeReq (pipeNew 4 4 plan4 block4) = true ∧
    noService (notePlan s pipeReq plan4) = false ∧ blockShape block4 4 4 = true ∧ blockMain s pipeReq (pipeNew 4 4 plan4 block4) block4 = true := by decide +kernel

theorem hyp_PipelineCommandsComplete_stage : [pipe4, pipe45].all (fun p =>
    let r := { pipeReq with pipe := some p }
    let s := setRequest parted 0 r
    decide (running s 0 0x20 = some r) && p.next == 4 &&
    (match gotOf (stageRun s 0 r p 0) with | some (_, st) => !isFailure st | none => false)) = true := by decide +kernel

/-- A pipeline in stage 4 with a stage before it, and one whose stage 5 has an empty record. -/
def pipe34 : Pipeline := { pipe4 with first := 3 }
def pipe15 : Pipeline := { pipeNew 1 5 (leBytes 1 5 ++ List.replicate 63 0#8) [] with next := 5 }

theorem hyp_PipelineCommandsComplete_spoiled :
    let r := { pipeReq with pipe := some pipe34 }
    let s := setRequest parted 0 r
    running s 0 0x20 = some r ∧ (gotOf (stageRun s 0 r pipe34 0)).isSome = true ∧
    (stageFabric s r pipe34 (0, ⟨[], 0, [0]⟩)).2 = true ∧ (stageFabric s r pipe34 (0, ⟨[], 1, []⟩)).2 = false := by decide +kernel

theorem hyp_PipelineCommandsComplete_fail :
    let r := { pipeReq with pipe := some pipe15 }
    let s := setRequest parted 0 r
    running s 0 0x20 = some r ∧ failOf (stageRun s 0 r pipe15 0) = some .badField := by decide +kernel

/-- A pipeline whose search stage has ended with passage 0 in the lead on facet 0, and that passage's vector extent. -/
def pipe3 : Pipeline :=
  { pipeNew 3 5 (leBytes 1 3 ++ List.replicate 15 0#8 ++ (searchReqOf 0).body) [] with leads := some [(0, 0)] }

theorem hyp_FlashReadCommandsComplete_prefetch :
    let r := { pipeReq with pipe := some pipe3 }
    let s := setRequest catalogued 0 r
    pipe3.next = 3 ∧ (candFor s 0 (stageRequest r pipe3 3) pipe3 (List.replicate 16 0#8)).map (fun c =>
      ((c.facet, c.id, c.lead), (slotFor s 0 c.lead c.facet c.id c.left pipe3).map (fun x => x.2.2))) =
      some ((0, 0, 1), some ⟨0, 0, []⟩) := by decide +kernel

/-! ## Prompts and decode pools -/

/-- A template of one passage segment (14 R294); its CRC-32C computed apart. -/
def template0 : List Byte :=
  (metaWith [(0, 4, 0x4C504D54), (4, 2, 1), (6, 2, 1), (8, 4, 80), (12, 4, 0x5C7359E5), (24, 4, 64), (28, 4, 80), (64, 1, 2)]).take 80

/-- `parted` with the clasp block's registers set for that template. -/
def tplReady : State :=
  regSet (regSet (regSet parted (aKey 0x90008) 80#32) (aKey 0x9000C) 0x40006000#32) clpSt 0#32

set_option maxRecDepth 20000 in
theorem hyp_PromptCommandsComplete_loads : alive tplReady = true ∧ tplReady.tplUnld = [] ∧ look tplReady.tpl (fld 0x3F00#32 8 6) = none ∧
    (regGet tplReady (aKey 0x90008)).toNat = 80 ∧ destOk tplReady (pair (regGet tplReady) (aKey 0x9000C)) 80 = true ∧ loadState tplReady = true ∧
    pair (regGet tplReady) (aKey 0x90000) % 64 = 0 ∧ rangeLive tplReady (pair (regGet tplReady) (aKey 0x9000C)) 80 = true ∧
    tplCheck (template0.take 80) 80 = none ∧ tplCheck ((List.replicate 80 0#8).take 80) 80 = some (1, 0) ∧ tplReady.requests = [] ∧
    tplReady.pools = [] := by decide +kernel

theorem test_group_write_takes_held_partitions : regGet (after (.tenGroupWrite 0 15 false 0xFFFFFFFF#32) parted) (0x48000 + 8 * 15) = 0x201#32 ∧
    regGet (after (.tenGroupWrite 0 15 true 0xFFFFFFFF#32) parted) (0x48000 + 8 * 15 + 4) = 0#32 := by decide +kernel

/-- A PACK of no candidates by template slot 0 and index slot 0. -/
def packReq : Request := reqOf 0x18 (bodyWith [(26, 2, 1), (28, 4, 1), (56, 4, 4), (62, 2, 1)])
def packing : State :=
  { memWrite (setRequest indexed 0 packReq) 0x40006000 template0 with tpl := [(0, ⟨0x40006000, 80, false⟩)] }

theorem hyp_PromptCommandsComplete_pack : running packing 0 0x18 = some packReq ∧ noService packing = false ∧
    gotOf (packRun 0 packing packReq) = some ([0, 0, 0, 0], .ok) := by decide +kernel

/-- A generator of two layers, a vocabulary of 16 tokens, no heads; a PREFILL of 17 tokens of zeros to HBM. -/
def generator : List Byte := metaWith [(6, 1, 2), (32, 2, 2), (56, 4, 16), (60, 4, 32)]
def prefillReq : Request :=
  { reqOf 0x19 (bodyWith [(16, 8, 0x40003000), (24, 4, 17), (44, 1, 0x80), (48, 8, 0x1000000000), (56, 4, 1024)]) with groups := [1#64] }

theorem hyp_PromptCommandsComplete_prefill : let s := setRequest (troyed generator) 0 prefillReq
    running s 0 0x19 = some prefillReq ∧ look s.prefills 0 = none ∧ prefillBad prefillReq false = false ∧ poolValid prefillReq = false ∧
    (match prefillImage s prefillReq 0 with | .ok im => im == ⟨generator, []⟩ | .error _ => false) = true ∧
    promptOk ⟨generator, []⟩ (bodyLe prefillReq 24 4) = true ∧
    gotOf (readAt s prefillReq (nbit (bodyB prefillReq 44) 7) (bodyLe prefillReq 16 8) (4 * bodyLe prefillReq 24 4)) = some (List.replicate 68 0#8) ∧
    noService s = false ∧ (idsOf (List.replicate 68 0#8)).all (fun t => decide (t < tyVocab generator)) = true ∧
    gotOf (prefillTarget s prefillReq ⟨generator, []⟩ 17) = some [] := by decide +kernel

theorem hyp_PromptCommandsComplete_layer :
    let s := setRequest (troyed generator) 0 prefillReq
    let j : PrefillJob := ⟨List.replicate 17 0, ⟨generator, []⟩, 0, .memory, false, [], 0, 0, false⟩
    let s := { s with prefills := [(0, j)] }
    let s0 := segsRead s 0 j.image (layerSegs j.image 0)
    alive s = true ∧ look s.prefills 0 = some j ∧ layerCopied s 0 j.image = true ∧ prefillGroupFault s0 0 = none ∧
    (mtxOf s 0).layers = 0 ∧ layerBad s0 0 j.image 0 = none ∧ 0 + 1 < tyLayers generator ∧
    homeQuiet s (kvAddr s 0) 4096 = true := by decide +kernel

/-- A DECODE_ATTACH of that generator, and a DETACH. -/
def attachReq : Request :=
  { reqOf 0x1A (bodyWith [(32, 8, 0x1000000000), (40, 4, 1), (56, 2, 1), (58, 2, 64)]) with groups := [1#64] }
def detachReq : Request := reqOf 0x1A (bodyWith [(62, 1, 0x80)])
/-- `troyed generator` with room for two 2 MiB units in the HBM region. -/
def decoding : State := { troyed generator with force := mapSet resetWord (troyed generator).force 0x50018 0x400#32 }

theorem hyp_DecodePoolCommandsComplete_attach : let s := setRequest decoding 0 attachReq
    running s 0 0x1A = some attachReq ∧ nbit (bodyB attachReq 62) 7 = false ∧ look s.pools 0 = none ∧
    (match attachCheck s attachReq with | .ok im => im == ⟨generator, []⟩ | .error _ => false) = true ∧ attachReq.ext = none ∧ s.hmk.draining = false ∧
    attachReq.fence = none ∧ s.requests.all (fun p => p.2.started && p.2.fence == none) = true := by decide +kernel

/-- A sequence under way, with tokens chosen up to its limit of 4, and its pool under tag 0. -/
def seq0 : Seq :=
  ⟨none, none, .running, 0, leBytes 8 0x400000000 ++ List.replicate 1272 0#8, 1, [], some [], 0, [], [], [], [], false, false, 0, false, none⟩
def pool0 : Pool := ⟨0, 0, 1#64, 0, 1, ⟨generator, []⟩, 0x100000, 0x200000, 0, 0x1000000000, 1, 0#64, 1, 64, 5, 10, 0, 0, false, none, none, []⟩
def pooled (p : Pool) : State := { setRequest decoding 0 { attachReq with attached := true } with pools := [(0, p)] }

theorem hyp_DecodePoolCommandsComplete_detach : let s := setRequest (pooled pool0) 1 detachReq
    running s 1 0x1A = some detachReq ∧ nbit (bodyB detachReq 62) 7 = true ∧ poolNamed s 0 (bodyB detachReq 62 % 16) = some (0, pool0) ∧
    noService s = false ∧ leavesFirst pool0 1 = false ∧
    noService ((upto 8).foldl (fun s f => regSet s (fKey f 0xF0100) 0xFF00#32) decoding) = true ∧
    poolNamed (setRequest decoding 1 detachReq) 0 0 = none := by decide +kernel

theorem hyp_DecodePoolCommandsComplete_wait : let q := { seq0 with state := .waiting, head := none }
    let p := { pool0 with seqs := [(3, q)] }
    look (pooled p).pools 0 = some p ∧ look p.seqs 3 = some q ∧ alive (pooled p) = true ∧ q.flow = none ∧ q.local_ = none ∧
    p.seqs.all (fun x => decide (x.2.state ≠ .waiting) || x.1 == 3) = true := by decide +kernel

theorem hyp_DecodePoolCommandsComplete_step : let p := { pool0 with seqs := [(0, seq0)] }
    (running (pooled p) 0 0x1A).isSome = true ∧ look (pooled p).pools 0 = some p ∧ look p.seqs 0 = some seq0 ∧ parGrm seq0.params = none ∧
    poolFault (pooled p) p = none ∧ p.closing = false ∧ tyExec p.image.md ≠ 1 ∧
    seq0.chosen = [] ∧ rangeLive (pooled p) p.kvAddr (kvBytes p) = true ∧ layersLost (pooled p) 0 p = [] ∧
    windowWaits (pooled p) 0 p = false := by decide +kernel

theorem hyp_DecodePoolCommandsComplete_window :
    let p := { pool0 with image := ⟨metaWith [(7, 1, 1), (32, 2, 2), (34, 1, 4)], []⟩, seqs := [(0, { seq0 with chosen := [1] })] }
    look (pooled p).pools 0 = some p ∧ (look p.seqs 0).isSome = true ∧ windowWaits (pooled p) 0 p = true := by decide +kernel

theorem hyp_DecodePoolCommandsComplete_mask :
    let q := { seq0 with params := List.replicate 14 0#8 ++ leBytes 1 0x80 ++ List.replicate 1265 0#8 }
    let p := { pool0 with seqs := [(0, q)] }
    (running (pooled p) 0 0x1A).isSome = true ∧ look p.seqs 0 = some q ∧ (parGrm q.params).isSome = true := by decide +kernel

theorem hyp_DecodePoolCommandsComplete_chunk : let q := { seq0 with pend := [0x41#8] }
    let p := { pool0 with seqs := [(0, q)] }
    running (pooled p) 0 0x1A = some { attachReq with attached := true } ∧ chunkFits p q.pend.length = true ∧
    entryRoom (pooled p) attachReq = true ∧ attachReq.source = .ring ⟨0, 0⟩ 0 0#32 0 4 ∧ p.chunkUs ≠ 0 ∧
    hostLive (pooled p) (portFacet 0) = true ∧ p.written % ringBytes p + q.pend.length ≤ ringBytes p := by decide +kernel

theorem hyp_DecodePoolCommandsComplete_consumed :
    let q := { seq0 with pend := [0x41#8], stalled := true }
    let p := { pool0 with seqs := [(0, q)], written := ringBytes pool0 + 7, consumed := 7 }
    look (pooled p).pools 0 = some p ∧ (running (pooled p) 0 0x1A).isSome = true ∧ p.consumed ≤ 7 ∧ 7 ≤ p.written ∧
    chunkFits { p with consumed := 7 } q.pend.length = false ∧ dmaOpen (pooled p) (requestFn attachReq) = true := by decide +kernel

/-! ## Weights and clears -/

/-- Host metadata of an encoder of one layer, one segment of 256 bytes and one operation (15 R321 to R323): its first 308
bytes; the other 3,788 are zeros. Four bytes that no field uses make the CRC register 0 before those zeros. -/
def troyHead (crc : Nat) : List Byte :=
  ([(0, 4, 0x594F5254), (4, 2, 1), (16, 8, 4352), (24, 4, crc), (28, 4, 4096), (32, 2, 1), (34, 1, 1), (36, 4, 1), (40, 4, 256), (44, 4, 1),
    (48, 4, 288), (52, 4, 1), (60, 4, 1), (264, 8, 4096), (280, 8, 256), (292, 4, 1), (296, 4, 1), (304, 4, 0x44DBD47D)] : List (Nat × Nat × Nat)).foldl
      (fun b p => b.take p.1 ++ leBytes p.2.1 p.2.2 ++ b.drop (p.1 + p.2.1)) (List.replicate 308 0#8)
def troyMeta : List Byte := troyHead 0xFFFFFFFF ++ List.replicate 3788 0#8

/-- A load block: 64 KiB on the slices of facet 0, and one source of a kind at address 0x10000. -/
def loadBlock (kind : Nat) : List Byte :=
  leBytes 8 0x40000000 ++ leBytes 8 0x10000 ++ List.replicate 240 0#8 ++ leBytes 1 kind ++ List.replicate 7 0#8 ++ leBytes 8 0x10000 ++
  List.replicate 112 0#8

/-- Zeros leave a CRC register that is 0 as it is. -/
theorem crcFrom_zeros (n : Nat) : crcFrom 0 (List.replicate n 0#8) = 0 := by
  induction n with
  | zero => rfl
  | succ n ih => rw [List.replicate_succ, crcFrom, List.foldl_cons, show crcNatByte 0 0#8 = 0 from rfl]; exact ih

/-- CRC-32C of a blob whose head makes the register 0 and whose rest is zeros. -/
theorem crcBlanked_zeros (hd : List Byte) (n off : Nat) (h : off + 4 ≤ hd.length)
    (h0 : crcFrom 0xFFFFFFFF (hd.take off ++ [0#8, 0#8, 0#8, 0#8] ++ hd.drop (off + 4)) = 0) :
    crcBlanked (hd ++ List.replicate n 0#8) off = 0xFFFFFFFF#32 := by
  apply BitVec.eq_of_toNat_eq
  rw [crcBlanked, crc32c_toNat, List.take_append_of_le_length (by omega), List.drop_append_of_le_length h,
    ← List.append_assoc, crcFrom_append, h0, crcFrom_zeros]
  rfl

set_option maxRecDepth 20000 in
theorem troyMeta_crc : crcBlanked troyMeta 24 = 0xFFFFFFFF#32 :=
  crcBlanked_zeros (troyHead 0xFFFFFFFF) 3788 24 (by decide +kernel) (by decide +kernel)

set_option maxRecDepth 40000 in
theorem troyMeta_header : troyHeaderBad troyMeta = none := by
  unfold troyHeaderBad
  simp only [troyMeta_crc]
  decide +kernel

theorem troyCheck_none (s : State) (m block : List Byte) (h1 : troyHeaderBad m = none) (h2 : segsBad m block (tySegs m) 0 0 = none)
    (h3 : destBad m ((upto (tySegs m)).zip (segsOf m)) [] = none) (h4 : (upto (tyOps m)).findSome? (opBad s m) = none)
    (h5 : windowBad m block = none) : troyCheck s m block = none := by simp only [troyCheck, h1, h2, h3, h4, h5]

theorem troyMeta_good : troyCheck parted troyMeta (loadBlock 1) = none :=
  troyCheck_none _ _ _ troyMeta_header (by decide +kernel) (by decide +kernel) (by decide +kernel) (by decide +kernel)

/-- A LOAD_WEIGHTS of slot 0 with OP and the byte beside it, its load block at 0x40007000; a load under way. -/
def loadReq (op : Nat) : Request := reqOf 0x1B (bodyWith [(20, 1, op), (24, 8, if op = 128 then 0 else 0x40007000)])
def load0 : TroyLoad := ⟨0, .load, loadBlock 1, 0, 0, 0, none, false, [], [], 0, false, none, []⟩
def slotOf (st : TroyState) (im : Option Image) (l : Option TroyLoad) : TroySlot := ⟨st, im, 1, [], l, none, none, none⟩

theorem hyp_WeightCommandsComplete_begin :
    ([(0, slotOf .empty none none), (64, slotOf .ready (some ⟨troyHead 0, List.replicate 384 0#8⟩) none),
      (64 + 32, slotOf .ready (some ⟨troyHead 0, loadBlock 1⟩) none)] : List (Nat × TroySlot)).all (fun x =>
      let r := loadReq x.1
      let s := setRequest (setTroy (memWrite parted 0x40007000 (loadBlock 1)) 0 x.2) 0 r
      decide (running s 0 0x1B = some r) && !loadUnderWay s 0 && !noService s && startRefusal s 0 r == none && someEngine s 5 &&
      checkAccess s 0 (bodyLe r 24 8) 384 == none && anySlice (bodyLe r 24 8) && decide (gotOf (devRead s 0 (bodyLe r 24 8) 384) = some (loadBlock 1)) &&
      blockBad s 0 (loadBlock 1) == none && decide ((srcOf (loadBlock 1) 0).kind ≠ 3) && lwOp r == x.1 / 64 &&
      nbit (bodyB r 20) 5 == decide (x.1 = 96)) = true ∧ placesMeet (List.replicate 384 0#8) (loadBlock 1) = false := by decide +kernel

theorem hyp_WeightCommandsComplete_unload : let r := loadReq 128
    let s := setRequest (setTroy parted 0 (slotOf .ready (some ⟨troyHead 0, loadBlock 1⟩) none)) 0 r
    running s 0 0x1B = some r ∧ loadUnderWay s 0 = false ∧ noService s = false ∧ startRefusal s 0 r = none ∧ lwOp r = 2 ∧ s.requests = [(0, r)] ∧
    r.names = [] ∧ s.pools = [] ∧ s.strand.flows = [] ∧ (troyOf s 0).olds = [] ∧ (troyOf s 0).claim = none ∧
    (troyOf s 0).swapWait = none := by decide +kernel

theorem hyp_WeightCommandsComplete_metadata : let r := { loadReq 0 with hostIn := [⟨0x10000, troyMeta, .good⟩] }
    srcRead parted r load0 0 4096 = (parted, .ok troyMeta) ∧ rdLe troyMeta 28 4 = 4096 ∧ troyCheck parted troyMeta (loadBlock 1) = none ∧
    tyExec troyMeta ≠ 1 ∧ entryMismatch troyMeta (loadBlock 1) = false ∧ bodyLe r 32 4 = 0 := by
  refine ⟨?_, by decide +kernel, troyMeta_good, by decide +kernel, by decide +kernel, by decide +kernel⟩
  have hk : (srcOf load0.block load0.src).kind = 1 := by decide +kernel
  have ha : (srcOf load0.block load0.src).addr = 0x10000 := by decide +kernel
  have hl : troyMeta.length = 4096 := by decide +kernel
  have hr := hostRead_piece { loadReq 0 with hostIn := [⟨0x10000, troyMeta, .good⟩] } troyMeta 0x10000 rfl
  rw [hl] at hr
  simp only [srcRead, srcList, srcGet, hostGet, hk, ha, Nat.add_zero, hr, ne_eq, Nat.reduceEqDiff, not_false_eq_true, if_true]

/-- Metadata of two segments of 4 bytes each, and the image's bytes on the host. -/
def twoSegs : List Byte :=
  metaWith [(36, 4, 2), (40, 4, 64)] ++ List.replicate 32 0#8 |> fun b => b.take 72 ++ leBytes 8 128 ++ leBytes 8 0 ++ leBytes 8 4 ++ leBytes 8 0 ++
    leBytes 8 132 ++ leBytes 8 4 ++ leBytes 8 4

theorem hyp_WeightCommandsComplete_segments : let r := { loadReq 0 with hostIn := [⟨0x10080, List.replicate 8 5#8, .good⟩] }
    let l := { load0 with metaOk := some twoSegs, compared := true }
    let s := setRequest (setTroy parted 0 (slotOf .loading none (some l))) 0 r
    let a := segAddr ⟨twoSegs, l.block⟩ (segOf twoSegs 1)
    alive s = true ∧ (troyOf s 0).load = some l ∧ look s.requests 0 = some r ∧ tySegs twoSegs = 2 ∧ homeQuiet s a 4 = true ∧
    (inFlight twoSegs []).contains 1 = true ∧ memPoison (segmentWrite s 0 a (segOf twoSegs 1) (List.replicate 4 5#8) ⟨[], 0, []⟩) a 4 = none ∧
    (memPoison (segmentWrite s 0 a (segOf twoSegs 1) (List.replicate 4 5#8) ⟨[], 0, [0]⟩) a 4).isSome = true ∧
    checkAccess s 0 (segAddr ⟨twoSegs, l.block⟩ (segOf twoSegs 1)) (segOf twoSegs 1).len = none ∧
    (match (srcRead s r l (segOf twoSegs 1).off (segOf twoSegs 1).len).2 with | .ok b => b == List.replicate 4 5#8 | _ => false) = true ∧
    (segOf twoSegs 1).len = 4 := by decide +kernel

theorem hyp_WeightCommandsComplete_swapStart : let l := { load0 with mode := .inPlace, waiting := true }
    let s := setTroy parted 63 (slotOf .loading none (some l))
    (troyOf s 63).load = some l ∧ nameHeld s (.troy 63 (troyOf s 63).gen) = false := by decide +kernel

theorem hyp_WeightCommandsComplete_window : let m := metaWith [(7, 1, 1), (32, 2, 2), (34, 1, 4)]
    let j : PrefillJob := ⟨[0], ⟨m, []⟩, 0, .memory, false, [], 0, 0, false⟩
    let s := setMtx { parted with prefills := [(0, j)] } 0 { mtxReset with units := 4 }
    alive s = true ∧ look s.prefills 0 = some j ∧ tyExec m = 1 ∧ (mtxOf s 0).units < tyLayers m * tyUnits m ∧
    (mtxOf s 0).units ≤ unitNow m (mtxOf s 0).unitAt + 1 ∧ unitSegs ⟨m, []⟩ 4 = [] ∧
    windowFault s ⟨m, []⟩ 2 (memPoison s) = none ∧ windowFault s ⟨m, []⟩ 4 (fun _ _ => none) = none := by decide +kernel

/-- An image of one segment in unit 0: its copy into the window fails where its home is fenced. -/
def farMeta : List Byte :=
  (metaWith [(7, 1, 1), (32, 2, 2), (34, 1, 4), (36, 4, 1), (40, 4, 64)]).take 88 ++ leBytes 8 256

theorem hyp_WeightCommandsComplete_windowFail : let j : PrefillJob := ⟨[0], ⟨farMeta, loadBlock 1⟩, 0, .memory, false, [], 0, 0, false⟩
    let s := setRequest { regSet parted (fKey 0 0xF0100) 0x10000#32 with prefills := [(0, j)] } 0 (reqOf 0x19 zeros48)
    tyExec farMeta = 1 ∧ (mtxOf s 0).units = 0 ∧ unitSegs ⟨farMeta, loadBlock 1⟩ 0 = [segOf farMeta 0] ∧
    failOf (readEach (fun s g => handleRead s 0 (segAddr ⟨farMeta, loadBlock 1⟩ g) g.len) s (unitSegs ⟨farMeta, loadBlock 1⟩ 0)) = some .tierFenced := by decide +kernel

theorem hyp_TenantClearCompletes : clearRefusal (inHmk .opened) 1 15 = some 1 ∧
    clearRefusal { slicey with hmk := { slicey.hmk with state := .opened } } (fld 0#32 8 7) (fld 0#32 1 4) = none ∧
    clearRefusal slicey 0 0 = some 2 ∧ clearRefusal (inHmk .held) 0 0 = some 4 ∧ alive (inHmk .held) = true ∧
    (regionOf slicey 0 0).base = 0x40000000 ∧ cohBusy slicey 0x40000000 (regionOf slicey 0 0).len = false ∧ rangeLive slicey 0x40000000 0x100000 = true ∧
    ({ slicey with clear := some ⟨0, 0⟩ } : State).clear = some ⟨0, 0⟩ := by decide +kernel

/-! ## Strand -/

/-- `live` as package 0 beside package 1 in the plan in force, with lane 0 UP. -/
def stranded : State :=
  regSetFld { live with plan := ⟨none, some (metaWith [(24, 8, 3)])⟩ } (laneKey 0 0xB0008 4) 0 3 2
/-- `stranded` with lane 0 in a state, its Port ID expected to be "0.0.0". -/
def laneAt (st : Nat) : State :=
  let b := metaWith [(6, 2, 1), (24, 8, 3)]
  regSetFld { live with plan := ⟨none, some (b.take 66 ++ [5#8, 0#8, 48#8, 46#8, 48#8, 46#8, 48#8] ++ b.drop 73)⟩ } (laneKey 0 0xB0008 4) 0 3 st

theorem hyp_StrandLaneCommandsComplete_lanes : laneUsable (laneAt 0) 0 = true ∧ laneState (laneAt 0) 0 = 0 ∧ laneUsable live 15 = true ∧
    laneState live 15 = 0 ∧ laneState (laneAt 1) 0 = 1 ∧ isSealedNow (laneAt 1) = true ∧ (laneExpects (laneAt 1) 0).isSome = true ∧
    laneState (laneAt 2) 0 = 2 ∧ isAcked (laneAt 2) 0 = false ∧ laneState (laneAt 3) 0 = 3 ∧ laneUsable (laneAt 4) 0 = true ∧
    (laneAt 4).strand.flows = [] ∧ alive (laneAt 4) = true ∧ live.supply.powerGood = true := by decide +kernel

/-- What "0.0.0" and the serial in force answer, and another Port ID. -/
theorem test_identity : identityBad (laneAt 1) [48#8, 46#8, 48#8, 46#8, 48#8] 7#8 (hex16 0) 7#8 [48#8, 46#8, 48#8, 46#8, 48#8] = 0 ∧
    identityBad (laneAt 1) [48#8, 46#8, 48#8, 46#8, 48#8] 7#8 (hex16 0) 7#8 [48#8, 46#8, 48#8, 46#8, 49#8] = 2 ∧
    identityBad (laneAt 1) [48#8, 46#8, 48#8, 46#8, 48#8] 7#8 (hex16 1) 7#8 [48#8, 46#8, 48#8, 46#8, 48#8] = 1 ∧
    laneExpects (laneAt 1) 0 = some [48#8, 46#8, 48#8, 46#8, 48#8] := by decide +kernel

/-- A cable plan of one entry, lane 0 of package 0 to "0.0.0" (22 R478); its CRC-32C computed apart. -/
def plan0 : List Byte :=
  let b := metaWith [(0, 4, 0x4E414C50), (4, 2, 1), (6, 2, 1), (8, 4, 96), (12, 4, 0x54C8F57B), (24, 8, 1), (66, 1, 5)]
  b.take 68 ++ [48#8, 46#8, 48#8, 46#8, 48#8] ++ b.drop 73

set_option maxRecDepth 20000 in
theorem hyp_StrandLaneCommandsComplete_plan : let s := regSet (inHmk .opened) 0x70008 96#32
    alive s = true ∧ s.hmk.state = .opened ∧ pair (regGet s) 0x70000 % 64 = 0 ∧ bitOf 1#32 0 = true ∧
    planCheck (plan0.take (regGet s 0x70008).toNat) (regGet s 0x70008).toNat = none ∧
    planCheck ([].take (regGet s 0x70008).toNat) (regGet s 0x70008).toNat = some (1, 0) := by decide +kernel

/-- A frame from package 1 to package 0: flags 8 ACK_VALID, 4 LAST, 2 FIRST, 1 OPENER. -/
def frameOf (typ flags flow seq ack : Nat) (p : List Byte) : List Byte :=
  sealFrame ([BitVec.ofNat 8 (16 + typ), BitVec.ofNat 8 flags, 1#8, 0#8] ++ leBytes 2 flow ++ leBytes 2 p.length ++ leBytes 4 seq ++
    leBytes 4 ack ++ List.replicate 16 0#8 ++ p)

/-- A flow with package 1. -/
def flowOf (mine : Bool) (num kind : Nat) (use : FlowUse) : Flow :=
  ⟨mine, 1, num, kind, use, 0, 0, mine, false, [], [], 0, 0, false, 0, [], [], false, false, false, false, 0⟩
/-- `stranded` with one flow. -/
def flowing (f : Flow) : State := { stranded with strand := ⟨[(f.key, f)], [], [], [], []⟩ }

/-- What every frame of StrandFrameCommandsComplete meets. -/
def frameMeets (s : State) (b : List Byte) : Bool :=
  alive s && decide (laneState s 0 = 2) && isSealedNow s && !frameForeign s b && frameCrcOk b && s.strand.waiting.isEmpty &&
  s.strand.heldOpens.isEmpty && s.strand.tagWaits.isEmpty && s.requests.isEmpty

set_option maxRecDepth 20000 in
theorem hyp_StrandFrameCommandsComplete_control : ([(6, 0), (5, 8), (2, 0), (3, 0), (8, 0), (7, 0)] : List (Nat × Nat)).all (fun x =>
    let b := frameOf x.1 x.2 5 0 0 []
    let s := flowing (flowOf true 5 2 .fresh)
    frameMeets s b && decide ((hdrOf b).typ = x.1) && decide (hdrKey (hdrOf b) = 5) && (hdrOf b).ackValid == decide (x.1 = 5)) = true := by
  decide +kernel

/-- A frame of 8,960 zeros whose header makes the CRC register 0 (the four bytes at 12, ACK, count for nothing without ACK_VALID). -/
def bigFrame (typ flags flow ack : Nat) : List Byte :=
  [BitVec.ofNat 8 (16 + typ), BitVec.ofNat 8 flags, 1#8, 0#8] ++ leBytes 2 flow ++ leBytes 2 8960 ++ leBytes 4 0 ++ leBytes 4 ack ++
    List.replicate 8 0#8 ++ leBytes 4 0xFFFFFFFF ++ leBytes 4 0

theorem frame_of_zeros (hd : List Byte) (h : hd.length = 32) (hl : rdLe hd 6 2 = 8960) (hc : rdLe hd 24 4 = 0xFFFFFFFF)
    (h0 : crcFrom 0xFFFFFFFF (hd.take 24 ++ [0#8, 0#8, 0#8, 0#8] ++ hd.drop 28) = 0) :
    frameCrcOk (hd ++ List.replicate 8960 0#8) = true := by
  have hr : ∀ o n, o + n ≤ 32 → rdLe (hd ++ List.replicate 8960 0#8) o n = rdLe hd o n := by
    intro o n ho
    unfold rdLe slice
    rw [List.drop_append_of_le_length (by omega), List.take_append_of_le_length (by rw [List.length_drop]; omega)]
  have hn : (hd ++ List.replicate 8960 0#8).length = 32 + 8960 := by rw [List.length_append, h, List.length_replicate]
  unfold frameCrcOk
  rw [hr 6 2 (by omega), hr 24 4 (by omega), hl, hc, List.take_of_length_le (Nat.le_of_eq hn), hn,
    crcBlanked_zeros hd 8960 24 (by omega) h0]
  rfl

set_option maxRecDepth 20000 in
theorem hyp_StrandFrameCommandsComplete_data : let b := bigFrame 4 2 5 0xD392DA4E ++ List.replicate 8960 0#8
    let s := flowing (flowOf true 5 2 .fresh)
    frameCrcOk b = true ∧ laneState s 0 = 2 ∧ frameForeign s b = false ∧ hdrOf b = ⟨4, false, false, true, false, 1, 0, 5, 8960, 0, 0xD392DA4E, 0⟩ ∧
    (payloadOf b).length = 8960 :=
  ⟨frame_of_zeros _ (by decide +kernel) (by decide +kernel) (by decide +kernel) (by decide +kernel), by decide +kernel, by decide +kernel,
   by decide +kernel, by decide +kernel⟩

set_option maxRecDepth 20000 in
theorem hyp_StrandFrameCommandsComplete_open : let b := bigFrame 1 3 (4095 + 4096 * 2) 0xA9F2A8F7 ++ List.replicate 8960 0#8
    frameCrcOk b = true ∧ laneState stranded 0 = 2 ∧ frameForeign stranded b = false ∧ stranded.strand = ⟨[], [], [], [], []⟩ ∧ flowBar stranded = none ∧
    hdrOf b = ⟨1, false, false, true, true, 1, 2, 4095, 8960, 0, 0xA9F2A8F7, 0⟩ ∧ (payloadOf b).length = 8960 :=
  ⟨frame_of_zeros _ (by decide +kernel) (by decide +kernel) (by decide +kernel) (by decide +kernel), by decide +kernel, by decide +kernel,
   by decide +kernel, by decide +kernel, by decide +kernel, by decide +kernel⟩

set_option maxRecDepth 20000 in
/-- Every message type as a whole message in one frame: on a flow that carries it (by kind and opener), and the three that open one. -/
theorem hyp_StrandFrameCommandsComplete_messages :
    (([(1, false, 1), (2, false, 1), (0x10, false, 2), (0x11, true, 2), (0x20, false, 3), (0x21, true, 3), (0x30, true, 2)] :
      List (Nat × Bool × Nat)).all (fun x =>
        let m := message x.1 0 []
        let b := frameOf 4 (if x.2.1 then 6 else 7) 4095 0 0 m
        let f := flowOf x.2.1 4095 x.2.2 .fresh
        frameMeets (flowing f) b && decide (hdrKey (hdrOf b) = f.key) && decide (payloadOf b = m) && decide (rdLe m 4 4 = m.length) &&
        zeroAt m 1 3 && decide (rdB m 0 = x.1) && typeAllowed f.kind (!f.mine) x.1 && rising (flowing f).strand.flows &&
        decide ((hdrOf b).typ = 4 ∧ (hdrOf b).first = true ∧ (hdrOf b).last = true ∧ (hdrOf b).ackValid = false)) &&
     ([(1, 1), (2, 1), (0x10, 2), (0x20, 3)] : List (Nat × Nat)).all (fun x =>
        let b := frameOf 1 7 (4096 * x.2) 0 0 (message x.1 0 [])
        frameMeets stranded b && decide ((hdrOf b).typ = 1 ∧ (hdrOf b).opener = true ∧ (hdrOf b).kind = x.2) &&
        typeAllowed x.2 true x.1)) = true := by decide +kernel

/-! ### Messages -/

/-- A message for a flow's user. -/
def withFlow (s : State) (f : Flow) : State := { s with plan := stranded.plan, strand := ⟨[(f.key, f)], [], [], [], []⟩ }

/-- The body of a SEQ_OPEN of one token to pool 0 of tenant 0, with MAX_NEW 1. -/
def seqOpen0 : List Byte :=
  message 1 0 (leBytes 8 0 ++ leBytes 8 0 ++ leBytes 4 1 ++ leBytes 4 0 ++ leBytes 4 0 ++ leBytes 4 1 ++ leBytes 8 0 ++
    leBytes 4 0x3F800000 ++ List.replicate 1260 0#8)

set_option maxRecDepth 20000 in
theorem hyp_StrandMessagesAndTimers_open : let f := flowOf false 7 1 .fresh
    let s := withFlow { pooled { pool0 with acceptPkg := 2#64, seqs := [(0, seq0)] } with voc := [(0, ⟨0x40000000, 0, 16, 0, false, 0, []⟩)] } f
    seqOpenOk seqOpen0 = true ∧ look s.strand.flows f.key = some f ∧ rdB seqOpen0 0 = 1 ∧
    (match openSeq s 1 (rdB seqOpen0 36) (rdB seqOpen0 37) (rdLe seqOpen0 16 8) (rdLe seqOpen0 24 8) (rdLe seqOpen0 32 4) (seqOpen0.drop 40)
      (some f.key) none none with
    | (s1, .ok _) => (look s1.strand.flows f.key).map (·.accepted) == some false
    | _ => false) = true := by decide +kernel

set_option maxRecDepth 20000 in
theorem hyp_StrandMessagesAndTimers_block : let f := flowOf false 7 1 (.pool 0 0)
    let q := { seq0 with state := .receiving, head := none }
    let s := withFlow (pooled { pool0 with seqs := [(0, q)] }) f
    let m := message 2 0 (List.replicate 32 0#8)
    look s.strand.flows f.key = some f ∧ rdB m 0 = 2 ∧ (m.drop 16).length = 32 + rdLe m 40 4 ∧ rdLe m 16 2 ≠ 0xFFFF ∧
    blockFits generator (m.drop 16) = true ∧ blockFits generator (leBytes 2 7 ++ List.replicate 30 0#8) = false ∧
    (look s.pools 0).bind (fun p => look p.seqs 0) = some q := by decide +kernel

/-- A SHARD_QUERY of slot 0 with NPROBE 1 and K 1 and no vector; a serve entry for package 1. -/
def query1 : List Byte := message 0x10 0 (leBytes 4 0 ++ leBytes 2 1 ++ leBytes 2 0 ++ leBytes 4 1 ++ List.replicate 132 0#8)
def serving : State := { indexed with force := mapSet resetWord (mapSet resetWord indexed.force (aKey 0x50300) 0x81000000#32) 0x4C000 16#32 }

set_option maxRecDepth 20000 in
theorem hyp_StrandMessagesAndTimers_query : let f := flowOf false 7 2 (.shardIn 0)
    let s := withFlow serving f
    look s.strand.flows f.key = some f ∧ rdB query1 0 = 0x10 ∧ shardQueryOk query1 = true ∧ (shardServed s 1 query1).isSome = true ∧
    (shardServed s 1 query1).bind (fun x => tagFree s x.1) = some 0 ∧ rdLe query1 20 2 ≤ ixNlist emptyIndex ∧ nbit (rdB query1 19) 0 = false ∧
    noService s = false := by decide +kernel

set_option maxRecDepth 20000 in
theorem hyp_StrandMessagesAndTimers_results : let f := flowOf true 7 2 (.shardOut 0 15)
    let j := { search0 with shards := [⟨15, 1, 7, none, none⟩] }
    let s := withFlow (searchingOf indexed (searchReqOf 0) j) f
    look s.strand.flows f.key = some f ∧ look s.searches 0 = some j ∧ rdLe (message 0x11 0 (List.replicate 16 0#8)) 8 8 = 0 ∧
    rdB (message 0x11 0 (List.replicate 16 0#8)) 0 = 0x11 ∧ shardResult (message 0x11 0 (List.replicate 16 0#8)) j.q.k = some [] ∧
    rdB (statusMsg 0x20 0 0) 0 = 0x30 ∧ statusOf (statusMsg 0x20 0 0) = 0x20 ∧ rdLe (statusMsg 0x20 0 0) 8 8 = 0 := by decide +kernel

set_option maxRecDepth 20000 in
theorem hyp_StrandMessagesAndTimers_weights : let f := flowOf false 7 3 (.serve 0 1)
    let im : Image := ⟨metaWith [(16, 8, 96)], []⟩
    let s := withFlow (setTroy parted 0 (slotOf .ready (some im) none)) f
    let m := message 0x20 0 (leBytes 8 0 ++ leBytes 8 95 ++ leBytes 4 1 ++ leBytes 4 0)
    look s.strand.flows f.key = some f ∧ rdB m 0 = 0x20 ∧ weightReqOk m = true ∧ (troyOf s 0).gen = 1 ∧ (troyOf s 0).image = some im ∧
    rdB m 16 = 0 ∧ rdLe m 24 8 + rdLe m 32 4 ≤ tyLen im.md ∧
    (let ps := servedParts im (rdLe m 24 8) (rdLe m 32 4)
     let s1 := partsRead s (servedTenant s f.key) ps
     ps.all (fun p => rangeLive s1 p.1 p.2 && (memPoison s1 p.1 p.2).isNone) = true) ∧
    (let ld := { load0 with flow := some 7, pieces := [⟨0, [], .good⟩] }
     (troyOf (setTroy parted 0 (slotOf .loading none (some ld))) 0).load = some ld) := by decide +kernel

/-- A flow of this package's with one frame outstanding that has timed out n times. -/
def outstanding (n : Nat) : Flow := { flowOf true 5 2 .fresh with sent := [(0, ⟨⟨1, true, true, []⟩, false, n⟩)], next := 1, retry := true, ackOwed := true }

set_option maxRecDepth 20000 in
theorem hyp_StrandMessagesAndTimers_timers : let s := flowing (outstanding 0)
    alive s = true ∧ isSealedNow s = true ∧ look s.strand.flows (flowKey true 1 5) = some (outstanding 0) ∧ (outstanding 0).key = flowKey true 1 5 ∧
    pkgNo s = some 0 ∧ upLanes s 0 = [0] ∧ look (outstanding 1).sent 0 = some ⟨⟨1, true, true, []⟩, false, 1⟩ ∧
    s.strand = ⟨[(5, outstanding 0)], [], [], [], []⟩ ∧ s.requests = [] ∧
    (let f := { flowOf false 7 2 .fresh with works := true }
     upLanes (flowing f) f.pair = [0] ∧ f.works = true ∧ f.mine = false ∧ f.queue = [] ∧ look (flowing f).strand.flows (flowKey false 1 7) = some f) := by
  decide +kernel

/-! ## Chain -/

/-- `live` with Chain address 127, an owner frame pending in buffer 3 and a CLAIM. -/
def chained : State :=
  let s := regSetFld (regSet live (txbKey 3) 0x07200000#32) (cKey 0x20) 0 7 127
  { s with chain := { s.chain with follows := true, queue := [⟨.claim, 0, 0, false, false⟩, ⟨.owner 3, 2, 15, false, false⟩] } }

theorem hyp_ChainSignalCommandsComplete : alive chained = true ∧ (setChain live { live.chain with gain := some (31, true) }).chain.gain = some (31, true) ∧
    live.chain.lost = false ∧ live.chain.tx.length < 64 ∧ (setChain live { live.chain with tx := List.replicate 64 0#8 }).chain.tx.length = 64 ∧
    (portOf linked 1).up = true ∧ hostLive linked (portFacet 1) = true ∧ live.chain.rx = [] ∧ charOn (regSet live (cKey 0x10) 0x80000000#32) = true ∧ live.chain.sending = none ∧
    txCut live = false ∧ (setChain live { live.chain with rx := [(true, 0xFF#8)] }).chain.rx = (true, 0xFF#8) :: [] := by decide +kernel

/-- The ticks of a character of eight data bits, least significant first, whose stop bit has these ticks. -/
def charTicks (bits : List Bool) (stop : List Bool) : List Bool := ookTicks (false :: bits) ++ stop
/-- The character 0xC4, and a stop bit in which carrier comes on at tick k. -/
def bits0xC4 : List Bool := [false, false, true, false, false, false, true, true]
def onset (k : Nat) : List Bool := List.replicate k false ++ List.replicate (16 - k) true
set_option maxRecDepth 40000 in
/-- 20 R446, R447: the data of a character, its start bit, and its stop bit at the ends of each clause. -/
theorem test_characters : charData ⟨charTicks bits0xC4 (onset 16), false⟩ = 0xC4#8 ∧ startZero ⟨charTicks bits0xC4 (onset 16), false⟩ = true ∧
    startZero ⟨List.replicate 160 false, true⟩ = false ∧
    ([0, 7, 8, 9, 10, 15].map (fun k => (charOnset ⟨charTicks bits0xC4 (onset k), false⟩, stopFails ⟨charTicks bits0xC4 (onset k), false⟩))) =
      [(some 0, true), (some 7, true), (some 8, false), (some 9, false), (some 10, false), (some 15, false)] ∧
    charOnset ⟨charTicks bits0xC4 (onset 16), false⟩ = none ∧ stopFails ⟨charTicks bits0xC4 (onset 16), false⟩ = false := by decide +kernel

/-- 20 R433: an edge at tick 2 and at tick 14 becomes tick 0; at ticks 5 and 11 the bit moves by 2. -/
theorem test_resync : [2, 14, 5, 11].map (fun t => (ookTick ⟨true, t, false, true, true, true, []⟩ true).tick) = [1, 1, 4, 14] := by decide

theorem hyp_ChainSendingCommandsComplete_attempt : alive chained = true ∧ chained.chain.sending = none ∧ chained.chain.follows = true ∧
    txCut chained = false ∧ bestPending chained = some ⟨.claim, 0, 0, false, false⟩ ∧
    bestPending (dropPending chained .claim) = some ⟨.owner 3, 2, 15, false, false⟩ := by decide +kernel

/-- An attempt of buffer 3's frame under way. -/
def attempting : State := setChain chained { chained.chain with sending := some (.owner 3) }

theorem hyp_ChainSendingCommandsComplete_end : alive attempting = true ∧ attempting.chain.sending = some (.owner 3) ∧
    attempting.chain.queue.find? (fun q => q.use == .owner 3) = some ⟨.owner 3, 2, 15, false, false⟩ ∧ txCut attempting = false ∧
    bitOf (regGet chained (cKey 0x24)) 30 = false ∧ attempting.chain.sending.isSome = true := by decide +kernel

/-- GO words of buffer 0: a type 0x20 frame of no bytes at priority 4, and one at priority 3. -/
theorem hyp_ChainSendingCommandsComplete_buffers : let w := 0x84200000#32
    bitOf w 30 = false ∧ regFld chained (txbKey 0) 8 4 = 0 ∧ fld w 24 3 = 4 ∧ fld w 16 6 = 0x20 ∧ lenOk (fld w 0 7) = true ∧ chainAddr chained ≠ 0 ∧
    fld 0x83200000#32 24 3 < 4 ∧ bitOf 0x40000000#32 31 = false ∧ chained.chain.queue.any (fun q => q.use == .owner 0) = false ∧
    chained.chain.queue.find? (fun q => q.use == .owner 3) = some ⟨.owner 3, 2, 15, false, false⟩ ∧ chained.chain.sending ≠ some (.owner 3) := by
  decide +kernel

/-- A frame as it is heard: its OOK part, the sync word of 2-GFSK with one bit wrong, and its data symbols. -/
def heardOf (pri typ src : Nat) (p : List Byte) (lv : Level) : FrameHeard :=
  let i := pri * 2 ^ 13 + typ * 2 ^ 7 + src
  ⟨ookTicks (headBits i none), 0x93B4, symbols false (dataBits p (frameCrc i none p)), lv⟩
def level0 : Level := ⟨200#8, 40, false⟩

set_option maxRecDepth 20000 in
/-- Every kind of frame of ChainFramesComplete is read back from its signal, and an attempt's ticks: it is heard as sent, it loses to
a lower identifier, and the acknowledge slot carries the answer. -/
theorem hyp_ChainFramesComplete_heard : ([(1, [3#8]), (3, List.replicate 12 7#8), (4, List.replicate 16 9#8), (5, List.replicate 8 0#8), (0x20, []),
      (0x3F, [127#8])] : List (Nat × List Byte)).all (fun x =>
        decide (readFrame (heardOf 4 x.1 1 x.2 level0) = some ⟨x.1, 1, x.2, level0⟩)) = true ∧
    readFrame { heardOf 4 0x20 1 [] level0 with sync := 0x93B6 } = none := by decide +kernel

set_option maxRecDepth 20000 in
theorem hyp_ChainSendingCommandsComplete_heard : let s := setChain chained { chained.chain with sending := some (.owner 3) }
    lostArb (pendingHead s (.owner 3)) (ookBits (ookTicks (pendingHead s (.owner 3)))) = false ∧
    lostArb (pendingHead s (.owner 3)) (ookBits (ookTicks (headBits 0 none))) = true ∧
    bitAt (List.replicate 16 true) 0 = false ∧ bitAt (List.replicate 16 false) 0 = true := by decide +kernel

/-- A CAP's payload with a tag that is right for its first eight bytes. -/
def capOf (dest code ctr : Nat) : List Byte :=
  let p := leBytes 1 dest ++ leBytes 1 0 ++ beBytes 2 code ++ beBytes 4 ctr
  p ++ beBytes 8 (capTag chained p).toNat

set_option maxRecDepth 20000 in
theorem hyp_ChainFramesComplete_enumeration : hears chained = true ∧ chained.mfg.serial.toNat + 1 < 2 ^ 64 ∧ beNat (slice (beBytes 8 chained.mfg.serial.toNat ++ [2#8, 0#8, 0#8, 0#8]) 0 8) =
      chained.mfg.serial.toNat ∧ rdB (beBytes 8 chained.mfg.serial.toNat ++ [2#8, 0#8, 0#8, 0#8]) 8 = 2 ∧
    zeroAt (beBytes 8 chained.mfg.serial.toNat ++ [2#8, 0#8, 0#8, 0#8]) 9 3 = true ∧
    beNat (slice (beBytes 8 (chained.mfg.serial.toNat + 1) ++ [127#8, 0#8, 0#8, 0#8]) 0 8) ≠ chained.mfg.serial.toNat := by decide +kernel

set_option maxRecDepth 20000 in
/-- CAP frames at the ends of each clause: good with codes 60 and 240, a code of 59 and of 241, a counter not above the last, a bad tag. -/
theorem hyp_ChainFramesComplete_cap : isSealedNow chained = true ∧ chainAddr chained = 127 ∧ (regGet chained (aKey 0xE010C)).toNat = 0 ∧
    ([(60, 1), (240, 0xFFFFFFFF), (59, 1), (241, 1), (60, 0)] : List (Nat × Nat)).all (fun x =>
      let p := capOf 127 x.1 x.2
      decide (p.length = 16) && decide (rdB p 0 % 128 = 127) && decide (beNat (slice p 2 2) = x.1) && decide (beNat (slice p 4 4) = x.2) &&
      decide (beNat (slice p 8 8) = (capTag chained p).toNat)) = true ∧
    beNat (slice ((capOf 127 60 1).take 8 ++ List.replicate 8 0#8) 8 8) ≠ (capTag chained (capOf 127 60 1)).toNat := by decide +kernel

theorem hyp_ChainFramesComplete_others : inRoster chained 1 = true ∧ lenOk 8 = true ∧ lenOk 9 = false ∧ boundBuffer chained 0x20 = none ∧
    boundBuffer (regSet chained (rxbKey 15) 0x803F0000#32) 0x3F = some 15 ∧ rdB [127#8] 0 % 128 = chainAddr chained ∧
    isForeign chained ⟨0x20, 0, [], ⟨0#8, 0, false⟩⟩ = true ∧ bitOf (regGet (regSet chained (cKey 0x2C) 1#32) (cKey 0x2C)) 0 = true := by decide +kernel

theorem hyp_ChainFramesComplete_claims :
    let s := setChain live { live.chain with claiming := true, claimWait := true }
    let t := regSetFld s (cKey 0x20) 17 1 1
    alive t = true ∧ t.chain.claimWait = true ∧ claims t = true ∧ chainAddr live = 0 ∧ contention live = false ∧ live.chain.sending ≠ some .claim := by
  decide +kernel

theorem hyp_ReceiveBufferClearsNeedTheCurrentSeq : alive live = true ∧
    fld 0xC0000000#32 16 8 = regFld live (rxbKey 16 + 4) 16 8 ∧ fld 0xC0010000#32 16 8 ≠ regFld live (rxbKey 16 + 4) 16 8 := by decide +kernel

theorem hyp_EveryStepKeepsTheCanonicalForm : ({ live with pending := [.fecLock 0 true] } : State).wf = true ∧
    (after (.fecLock 0 true) live).outs = [.lldp 0 (lldpdu live 0 4)] := by decide +kernel

/-- CRC-24 of OpenPGP (21 R453): the check value of the nine digits. -/
theorem test_crc24_check_value :
    crc24 ([0x31, 0x32, 0x33, 0x34, 0x35, 0x36, 0x37, 0x38, 0x39].flatMap (msbFirst 8)) = 0x21CF02#24 := by decide +kernel

/-- FCS of Ethernet (19 R408): the check value of the nine digits. -/
theorem test_fcs_check_value : fcsOf ([0x31, 0x32, 0x33, 0x34, 0x35, 0x36, 0x37, 0x38, 0x39].map (BitVec.ofNat 8)) = 0xCBF43926#32 := by decide +kernel

/-- The ball map's worked example (26): an HBM supply ball, CA2 of channel 29, PCIe port 1 lane 0 and strand lane 5. -/
theorem test_ball_map : ballAt 41 88 = some (.rail .hbm) ∧ ballAt 71 40 = some (.lp 29 (.ca 2)) ∧ ballAt 1 47 = some (.pcie 1 0 true true) ∧
    ballAt 69 17 = some (.strand 5 true true) ∧ ballAt 40 50 = none := by decide +kernel

/-- Three class 2 frames to one class 3 frame, and class 1 before both (19 R425). -/
theorem test_classes_take_turns :
    let fr : FlowFrame := ⟨4, true, true, []⟩
    let ship : Flow := { flowOf true 1 1 .fresh with queue := List.replicate 5 fr }
    let weight : Flow := { flowOf true 2 3 .fresh with queue := List.replicate 5 fr }
    let shard : Flow := { flowOf true 3 2 .fresh with queue := [fr] }
    let s : State := { stranded with strand := ⟨[(1, ship), (2, weight), (3, shard)], [], [], [], []⟩ }
    let left := fun (n : Nat) => (pumpPair n s 0).strand.flows.map (fun f => f.2.queue.length)
    left 1 = [5, 5, 0] ∧ left 4 = [2, 5, 0] ∧ left 5 = [2, 4, 0] ∧ left 8 = [0, 3, 0] := by decide +kernel

end Sys2Proof.Tests
end

section
/-! Proofs of the scope chapter's statements (00): register accesses through the BARs, and expert registers. -/
namespace Sys2Proof.Machine

/-! ## Fields of words built from numbers -/

/-- The low `n` bits of a word are a field that a mask of those bits keeps. -/
theorem fld_and_lowMask (w : Word) (n : Nat) (hn : n ≤ 32) : fld (w &&& BitVec.ofNat 32 (2 ^ n - 1)) 0 n = fld w 0 n := by
  have hmask : (BitVec.ofNat 32 (2 ^ n - 1)).toNat = 2 ^ n - 1 := by
    have : 2 ^ n ≤ 2 ^ 32 := Nat.pow_le_pow_right (by decide) hn
    rw [BitVec.toNat_ofNat, Nat.mod_eq_of_lt (by omega)]
  simp only [fld, BitVec.toNat_and, hmask, Nat.and_two_pow_sub_one_eq_mod, pow_zero, Nat.div_one, Nat.mod_mod]

/-- A number that fits a low field is what the field reads. -/
theorem fld_ofNat_low (v n : Nat) (hn : n ≤ 32) (hv : v < 2 ^ n) : fld (BitVec.ofNat 32 v) 0 n = v := by
  have h32 : v < 2 ^ 32 := hv.trans_le (Nat.pow_le_pow_right (by decide) hn)
  simp only [fld, BitVec.toNat_ofNat, pow_zero, Nat.div_one, Nat.mod_eq_of_lt h32, Nat.mod_eq_of_lt hv]

/-! ## A register write seen apart from the registers -/

/-- A register write changes the register file alone. -/
theorem regSet_withRegs (s : State) (k : Nat) (w : Word) (m : KMap Word) :
    { regSet s k w with regs := m } = { s with regs := m } := rfl

/-- An output after a register write changes the register file and the outputs alone. -/
theorem emit_regSet_frame (s : State) (k : Nat) (w : Word) (o : Out) :
    { emit (regSet s k w) o with regs := s.regs, outs := s.outs } = s := rfl

/-! ## Accesses of a function with a path (16 R351) -/

section Accesses
variable {s : State} {port tn off size : Nat} (bar : Nat) (w : Word)
variable (hr : reachable s ⟨port, tn⟩ = true) (hd : isDead s = false)
include hr hd

theorem exec_registerWrite_wellSized (hw : wellSized off size = true) :
    exec (.registerWrite port tn bar off size w) s = .next (writeBar s ⟨port, tn⟩ bar off w) := by
  have h : exec (.registerWrite port tn bar off size w) s = .next (regWrite s ⟨port, tn⟩ bar off size w) := rfl
  simp [h, regWrite, hr, hd, hw]

theorem exec_registerWrite_malformed (hw : wellSized off size = false) :
    exec (.registerWrite port tn bar off size w) s = .next (badAccess s port) := by
  have h : exec (.registerWrite port tn bar off size w) s = .next (regWrite s ⟨port, tn⟩ bar off size w) := rfl
  simp [h, regWrite, hr, hd, hw]

theorem exec_registerRead_wellSized (hw : wellSized off size = true) :
    exec (.registerRead port tn bar off size) s =
      .next (emit (readBar s ⟨port, tn⟩ bar off).1 (.regValue ⟨port, tn⟩ bar off (readBar s ⟨port, tn⟩ bar off).2)) := by
  have h : exec (.registerRead port tn bar off size) s = .next (regRead s ⟨port, tn⟩ bar off size) := rfl
  simp [h, regRead, hr, hd, hw]

theorem exec_registerRead_malformed (hw : wellSized off size = false) :
    exec (.registerRead port tn bar off size) s =
      .next (emit (badAccess s port) (.regValue ⟨port, tn⟩ bar off 0#32)) := by
  have h : exec (.registerRead port tn bar off size) s = .next (regRead s ⟨port, tn⟩ bar off size) := rfl
  simp [h, regRead, hr, hd, hw]

end Accesses

/-- HST_BAD_ACCESS counts one more malformed access, saturating. -/
theorem regFld_badAccess (s : State) (port : Nat) :
    regFld (badAccess s port) (fKey (portFacet port) 0xC0010) 0 32 =
      min (regFld s (fKey (portFacet port) 0xC0010) 0 32 + 1) (2 ^ 32 - 1) :=
  regFld_bump_same s _ 0 32 1 (by decide)

theorem regGet_badAccess_ne (s : State) (port k : Nat) (h : k ≠ fKey (portFacet port) 0xC0010) :
    regGet (badAccess s port) k = regGet s k :=
  regGet_bump_ne s _ 0 32 1 k h.symm

theorem badAccess_outs (s : State) (port : Nat) : (badAccess s port).outs = s.outs := bump_outs s _ 0 32 1

theorem badAccess_frame (s : State) (port : Nat) : { badAccess s port with regs := s.regs } = s :=
  regSet_withRegs s _ _ s.regs

/-! ## The physical function's windows (00 R9) -/

theorem readBar_owner (s : State) (port off : Nat) : readBar s ⟨port, 0⟩ 0 off = ownerRead s port off := by
  simp [readBar]

theorem writeBar_owner (s : State) (port off : Nat) (w : Word) :
    writeBar s ⟨port, 0⟩ 0 off w = ownerWrite s port off w := by
  simp [writeBar]

theorem ownerRead_global (s : State) (port off : Nat) (h : off < 0x100000) :
    ownerRead s port off = globalRead s port off := if_pos h

theorem ownerWrite_global (s : State) (port off : Nat) (w : Word) (h : off < 0x100000) :
    ownerWrite s port off w = globalWrite s port off w := if_pos h

theorem ownerRead_facet (s : State) (port f o : Nat) (hf : f < 8) (ho : o < 0x100000) :
    ownerRead s port (fKey f o) = facetRead s f o := by
  have hlo : ¬ fKey f o < 0x100000 := by simp only [fKey, facetBase]; omega
  have hhi : fKey f o < 0x900000 := by simp only [fKey, facetBase]; omega
  have hfacet : (fKey f o - 0x100000) / 0x100000 = f := by simp only [fKey, facetBase]; omega
  have hoff : fKey f o % 0x100000 = o := by simp only [fKey, facetBase]; omega
  simp only [ownerRead, if_neg hlo, if_pos hhi, hfacet, hoff]

theorem ownerRead_beyond (s : State) (port off : Nat) (h : 0x900000 ≤ off) : ownerRead s port off = (s, 0#32) := by
  have hlo : ¬ off < 0x100000 := by omega
  have hhi : ¬ off < 0x900000 := by omega
  simp only [ownerRead, if_neg hlo, if_neg hhi]

theorem ownerWrite_beyond (s : State) (port off : Nat) (w : Word) (h : 0x900000 ≤ off) : ownerWrite s port off w = s := by
  have hlo : ¬ off < 0x100000 := by omega
  have hhi : ¬ off < 0x900000 := by omega
  simp only [ownerWrite, if_neg hlo, if_neg hhi]

theorem ownerRings_eq_none {o : Nat} (h : o < 0x60000) : ownerRings o = none := if_neg (by omega)

theorem ownerEvents_eq_none {o : Nat} (h : o < 0x80000) : ownerEvents o = none := if_neg (by omega)

/-! ## Stored registers of a row (00 R10, R12) -/

theorem rowRead_allRc (s : State) (k : Nat) (r : RegRow) (h : r.rc = 0xFFFFFFFF) :
    rowRead s k r = (regSet s k 0#32, regGet s k) := by
  have hmask : ~~~(BitVec.ofNat 32 0xFFFFFFFF) = 0#32 := by decide
  simp only [rowRead, h, hmask, BitVec.and_zero]
  rfl

theorem rowRead_noRc (s : State) (k : Nat) (r : RegRow) (h : r.rc = 0) : rowRead s k r = (s, regGet s k) := by
  simp [rowRead, h]

/-- HMK_IGNORED through the owner's BAR0: all its bits are RC. -/
theorem globalRead_hmkIgnored (s : State) (port : Nat) :
    globalRead s port 0x101C = (regSet s 0x101C 0#32, regGet s 0x101C) := by
  have hsealed : isSealed 0x101C = false := by decide +kernel
  have hrow : findRow globalRows 0x101C = some ⟨0x0101C, 0x0101C, .all, 0, 0xFFFFFFFF⟩ := by decide
  simp [globalRead, ownerRings_eq_none, ownerEvents_eq_none, hsealed, hrow, rowRead_allRc]

/-! ## Facet registers that a read returns as stored -/

/-- Offsets of a facet's window whose value the state computes. -/
def computedOffset (o : Nat) : Bool :=
  decide (o = 0x10010) || decide (o = 0x10018) || decide (o = 0x1001C) || decide (0xA0100 ≤ o ∧ o ≤ 0xA01FC) ||
  decide (0xA0200 ≤ o ∧ o ≤ 0xA03FC) || decide (o = 0xD0014) || (txbAt o).isSome || (rxbAt o).isSome ||
  decide (0xF0000 ≤ o ∧ o ≤ 0xF0014) || decide (o = 0xF0108)

theorem facetComputed_eq_none (s : State) (f o : Nat) (h : computedOffset o = false) : facetComputed s f o = none := by
  simp only [computedOffset, Bool.or_eq_false_iff, decide_eq_false_iff_not] at h
  simp [facetComputed, h]

/-- Offset `o` of every facet's window holds a register that is stored, present in every window and not sealed; its row's
RC bits are `rc`. -/
def storedEverywhere (o rc : Nat) : Bool :=
  decide (o < 0x100000) && !computedOffset o && (upto 8).all (fun f => !isSealed (fKey f o)) &&
  (findRow facetRows o).any (fun r => decide (r.pres = .all ∧ r.rc = rc))

/-- The owner's read of such a register of a live facet is the read of its row. -/
theorem readBar_storedEverywhere {f o rc : Nat} (s : State) (port : Nat) (hf : f < 8) (hl : fabricLive s f = true)
    (h : storedEverywhere o rc = true) :
    ∃ r : RegRow, r.rc = rc ∧ readBar s ⟨port, 0⟩ 0 (fKey f o) = rowRead s (fKey f o) r := by
  simp only [storedEverywhere, Bool.and_eq_true, decide_eq_true_eq, Bool.not_eq_true', List.all_eq_true, mem_upto,
    Option.any_eq_true] at h
  obtain ⟨⟨⟨ho, hcomp⟩, hsealed⟩, r, hrow, hpres, hrc⟩ := h
  have hactive : isSealed (aKey o) = false := hsealed 0 (by decide)
  refine ⟨r, hrc, ?_⟩
  rw [readBar_owner, ownerRead_facet s port f o hf ho]
  simp [facetRead, hl, facetComputed_eq_none s f o hcomp, hsealed f hf, hactive, hrow, present, rowKey, hpres]

/-- Settles O37: an access by its form, then the windows of the owner's BAR0, then the registers named, each by its row. -/
theorem registerAccessesComplete : Obligations.RegisterAccessesComplete := by
  unfold Obligations.RegisterAccessesComplete
  refine ⟨fun s port tn bar off size w hr hd => ⟨fun hw => ?_, fun hw => ⟨?_, ?_⟩, ?_⟩, fun s port => ?_,
    fun s port f o hf hl ho => ?_, fun s port f o hf hl ho => ?_⟩
  · exact ⟨exec_registerWrite_wellSized bar w hr hd hw, exec_registerRead_wellSized bar hr hd hw⟩
  · exact ⟨badAccess s port, exec_registerWrite_malformed bar w hr hd hw, badAccess_frame s port,
      regFld_badAccess s port, regGet_badAccess_ne s port⟩
  · exact ⟨_, exec_registerRead_malformed bar hr hd hw, by rw [emit_outs, badAccess_outs],
      emit_regSet_frame s _ _ _⟩
  · rintro hoff rfl rfl
    rw [writeBar_owner, readBar_owner]
    exact ⟨ownerWrite_beyond s port off w hoff, ownerRead_beyond s port off hoff⟩
  · rw [readBar_owner, ownerRead_global s port _ (by decide), globalRead_hmkIgnored]
  · have hrc : ∀ o ∈ [0x00024, 0x00040, 0x00044, 0x0004C, 0x20010, 0x20014, 0x20018, 0x30030, 0x30034, 0x30038, 0x3003C,
        0x70010, 0x70014], storedEverywhere o 0xFFFFFFFF = true := by decide +kernel
    obtain ⟨r, hr, hread⟩ := readBar_storedEverywhere s port hf hl (hrc o ho)
    rw [hread, rowRead_allRc s _ r hr]
  · have hno : ∀ o ∈ [0x10000, 0x10004, 0x10020, 0x20080, 0x20084], storedEverywhere o 0 = true := by decide +kernel
    obtain ⟨r, hr, hread⟩ := readBar_storedEverywhere s port hf hl (hno o ho)
    rw [hread, rowRead_noRc s _ r hr]

/-! ## Expert registers (00 R13, R14; 18 R401) -/

/-- RNG_POLL_MIN_X through a tenant's ring set-up is a write behind the RING bit. -/
theorem writeBar_view_pollMin (s : State) (port tn : Nat) (w : Word) (ht : 1 ≤ tn) :
    writeBar s ⟨port, tn⟩ 0 0x2900 w = pollGate s ⟨port, tn⟩ (fun s => pollMinWrite s ⟨port, tn⟩ w) := by
  have hvf : tn ≠ 0 := by omega
  simp [writeBar, hvf, viewWrite, ringWrite]

theorem pollMin_pollMinWrite (s : State) (fn : FnId) (w : Word) :
    pollMin (pollMinWrite s fn w) fn = max 1 (min 400 (fld w 0 9)) := by
  have hmin : regGet (pollMinWrite s fn w) (fnBase fn + 0x900) = BitVec.ofNat 32 (clampN 1 400 (fld w 0 9)) := by
    unfold pollMinWrite
    dsimp only
    split <;> simp
  unfold pollMin fnReg
  rw [hmin]
  exact fld_ofNat_low _ 9 (by decide) (by simp only [clampN]; omega)

theorem pollMinWrite_frame (s : State) (fn : FnId) (w : Word) : { pollMinWrite s fn w with regs := s.regs } = s := by
  unfold pollMinWrite
  dsimp only
  split <;> simp only [regSet_withRegs]

/-- No register between TEN_PARTS and the regions' words is sealed (23 R511). -/
theorem isSealed_eq_false_of_gap {k : Nat} (hlo : 0x4D208 ≤ k) (hhi : k < 0x50000) : isSealed k = false := by
  simp only [isSealed, List.any_eq_false, decide_eq_true_eq]
  have hrows : ∀ r ∈ sealRows, r.key + r.step * r.words ≤ 0x4D208 ∨ 0x50000 ≤ r.key := by decide +kernel
  intro r hr hk
  have := hrows r hr
  omega

/-- The owner's write of TEN_EXPERT of a tenant stores its six bits. -/
theorem writeBar_tenExpert (s : State) (port tn : Nat) (w : Word) (hlo : 1 ≤ tn) (hhi : tn ≤ 64) :
    writeBar s ⟨port, 0⟩ 0 (0x4E000 + 4 * tn) w = regSet s (0x4E000 + 4 * tn) (w &&& 0x3F#32) := by
  rw [writeBar_owner, ownerWrite_global _ _ _ _ (by omega)]
  have hrings : ownerRings (0x4E000 + 4 * tn) = none := ownerRings_eq_none (by omega)
  have hevents : ownerEvents (0x4E000 + 4 * tn) = none := ownerEvents_eq_none (by omega)
  have hsealed : isSealed (0x4E000 + 4 * tn) = false := isSealed_eq_false_of_gap (by omega) (by omega)
  have hgroup : ¬ (0x48000 ≤ 0x4E000 + 4 * tn ∧ 0x4E000 + 4 * tn ≤ 0x4A07C) := by omega
  have hexpert : 0x4E000 < 0x4E000 + 4 * tn ∧ 0x4E000 + 4 * tn ≤ 0x4E100 := by omega
  simp only [globalWrite, hrings, hevents, hsealed, Bool.false_eq_true, if_false]
  rw [if_neg (by omega), if_neg (by omega), if_neg (by omega), if_neg hgroup, if_pos hexpert]

theorem expertOf_regSet (s : State) (tn : Nat) (w : Word) (ht : 1 ≤ tn) :
    expertOf (regSet s (0x4E000 + 4 * tn) w) tn = fld w 0 6 := by
  have h0 : tn ≠ 0 := by omega
  simp [expertOf, h0]

/-- Settles O38: the write of RNG_POLL_MIN_X goes through its gate, and the owner's write of TEN_EXPERT stores the bits the
gate reads. -/
theorem expertFieldsNeedTheirBit : Obligations.ExpertFieldsNeedTheirBit := by
  unfold Obligations.ExpertFieldsNeedTheirBit
  intro s port tn w hlo hhi hr hd
  have hwrite := exec_registerWrite_wellSized (off := 0x2900) (size := 4) 0 w hr hd (by decide)
  rw [writeBar_view_pollMin s port tn w hlo] at hwrite
  refine ⟨fun hbit => ?_, fun hbit => ⟨pollMinWrite s ⟨port, tn⟩ w, ?_, pollMin_pollMinWrite s _ w, pollMinWrite_frame s _ w⟩,
    fun p hp => ?_⟩
  · rw [hwrite, pollGate, hbit, if_neg Bool.false_ne_true]
  · rw [hwrite, pollGate, hbit, if_pos rfl]
  · have hsized : wellSized (0x4E000 + 4 * tn) 4 = true := by simp [wellSized]
    refine ⟨_, exec_registerWrite_wellSized 0 w hp hd hsized, ?_, ?_⟩
    · rw [writeBar_tenExpert s p tn w hlo hhi, expertOf_regSet s tn _ hlo]
      exact fld_and_lowMask w 6 (by decide)
    · rw [writeBar_tenExpert s p tn w hlo hhi]
      rfl

end Sys2Proof.Machine
end

section
/-! Proofs of the request path's statements (01): the start of a PIPELINE, and the end of a stage. -/
namespace Sys2Proof.Machine

/-! ## The start of a pipeline (01 R16 to R21) -/

theorem execPipeline_running {s : State} {tag : Nat} {r : Request} (hr : running s tag 0x20 = some r) :
    exec (.pipeline tag) s = .next (pipeStart s tag r) := by
  have h : exec (.pipeline tag) s = execPipeline tag s := rfl
  rw [h, execPipeline, hr]

theorem hostGet_ok {s : State} {r : Request} {a n : Nat} {d : List Byte} (h : hostRead r a n = .ok d) :
    hostGet s r a n = (s, .ok d) := by
  simp only [hostGet, h]

/-- A pipeline whose plan and input have been read goes on to the checks on them. -/
theorem pipeStart_read {s s1 : State} {tag : Nat} {r : Request} {plan input : List Byte} (hnew : r.pipe = none)
    (hbody : pipeBad r = false) (hplan : hostRead r (bodyLe r 32 8) (64 * bodyLe r 40 2) = .ok plan)
    (hinput : readAt s r (nbit (bodyB r 29) 0) (bodyLe r 16 8) (bodyLe r 24 4) = (s1, .ok input)) :
    pipeStart s tag r = pipeChecked (notePlan s1 r plan) tag r plan (.ok input) := by
  simp [pipeStart, hnew, hbody, hostGet_ok hplan, hinput]

/-- A pipeline that passes every check starts its first stage. The stage input block is checked for the stages that take one. -/
theorem pipeChecked_passes {s : State} {tag : Nat} {r : Request} {plan input : List Byte} {p : Pipeline}
    (hp : p = pipeNew (pipeFirst r) (pipeLast r) plan input) (hshape : planShape plan p.first p.last = true)
    (hrules : planRules p (bodyLe r 24 4) = true) (hnames : planResolves s r p = true) (hserve : noService s = false)
    (hblock : 1 ≤ p.first → p.first ≤ 6 → blockShape input p.first p.last = true ∧ blockMain s r p input = true) :
    pipeChecked s tag r plan (.ok input) =
      stageBegin (setRequest s tag { r with pipe := some { pipeInput p with began := s.clk.grains.toNat } }) tag := by
  simp only [pipeChecked, ← hp]
  by_cases hblk : 1 ≤ p.first ∧ p.first ≤ 6
  · obtain ⟨hform, hmain⟩ := hblock hblk.1 hblk.2
    simp [hshape, hrules, hnames, hserve, hform, hmain]
  · have hnone : (decide (1 ≤ p.first) && decide (p.first ≤ 6)) = false := by simpa using hblk
    simp [hshape, hrules, hnames, hserve, hnone]

/-- The input block sets what later stages take and leaves the stage that comes next. -/
theorem pipeInput_next (p : Pipeline) : (pipeInput p).next = p.next := by
  simp only [pipeInput]
  split <;> rfl

/-- A stage other than gather, search and prefill has no steps of its own, so its start leaves the state. -/
theorem stageBegin_stepless {s : State} {tag : Nat} {r : Request} {p : Pipeline} (hr : look s.requests tag = some r)
    (hp : r.pipe = some p) (hgather : p.next ≠ 1) (hsearch : p.next ≠ 3) (hprefill : p.next ≠ 7) : stageBegin s tag = s := by
  simp [stageBegin, hr, hp, hgather, hsearch, hprefill]

/-! ## A stage's output leaves the number of the stage (01 R22) -/

/-- What a stage hands on is of the stage that `p` is in. -/
def StaysIn (p : Pipeline) (x : Staged) : Prop := ∀ q st, x.2 = .ok (q, st) → q.next = p.next

section StaysIn
variable {p : Pipeline}

theorem staysIn_wait (s : State) : StaysIn p (s, .wait) := by
  intro q st h
  cases h

theorem staysIn_fail (s : State) (st : Status) : StaysIn p (s, .fail st) := by
  intro q st' h
  cases h

theorem staysIn_ok (s : State) {q : Pipeline} (st : Status) (h : q.next = p.next) : StaysIn p (s, .ok (q, st)) := by
  intro q' st' he
  cases he
  exact h

theorem staysIn_andThen {α : Type} (x : Reading α) {f : State → α → Staged} (hf : ∀ s a, StaysIn p (f s a)) :
    StaysIn p (Got.andThen x f) := by
  unfold Got.andThen
  split
  · exact hf _ _
  · exact staysIn_wait _
  · exact staysIn_fail _ _

end StaysIn

theorem stage0_staysIn (s : State) (r : Request) (p : Pipeline) (f : Nat) : StaysIn p (stage0 s r p f) := by
  simp only [stage0]
  split
  · exact staysIn_fail _ _
  · split
    · exact staysIn_fail _ _
    · split
      · exact staysIn_wait _
      · exact staysIn_fail _ _
      · exact staysIn_andThen _ fun _ _ => staysIn_ok _ _ rfl

theorem stage1_staysIn (s : State) (tag : Nat) (r : Request) (p : Pipeline) : StaysIn p (stage1 s tag r p) := by
  simp only [stage1]
  split
  · exact staysIn_wait _
  · split
    · exact staysIn_wait _
    · split
      · exact staysIn_fail _ _
      · exact staysIn_ok _ _ rfl

theorem stage2_staysIn (s : State) (tag : Nat) (r : Request) (p : Pipeline) : StaysIn p (stage2 s tag r p) :=
  staysIn_andThen _ fun _ _ => staysIn_ok _ _ rfl

theorem stage4_staysIn (s : State) (r : Request) (p : Pipeline) : StaysIn p (stage4 s r p) := by
  simp only [stage4]
  split
  · exact staysIn_fail _ _
  · split
    · exact staysIn_fail _ _
    · split
      · exact staysIn_fail _ _
      · split
        · exact staysIn_fail _ _
        · exact staysIn_ok _ _ rfl

theorem stage5_staysIn (s : State) (tag : Nat) (r : Request) (p : Pipeline) : StaysIn p (stage5 s tag r p) := by
  simp only [stage5]
  split
  · exact staysIn_fail _ _
  · exact staysIn_andThen _ fun _ _ => staysIn_ok _ _ rfl

theorem stage6_staysIn (s : State) (tag : Nat) (r : Request) (p : Pipeline) : StaysIn p (stage6 s tag r p) := by
  simp only [stage6]
  split
  · exact staysIn_fail _ _
  · exact staysIn_andThen _ fun _ _ => staysIn_ok _ _ rfl

theorem stageRun_staysIn (s : State) (tag : Nat) (r : Request) (p : Pipeline) (unit : Nat) :
    StaysIn p (stageRun s tag r p unit) := by
  simp only [stageRun]
  split
  · exact staysIn_fail _ _
  · split
    · exact stage0_staysIn _ _ _ _
    · exact stage1_staysIn _ _ _ _
    · exact stage2_staysIn _ _ _ _
    · exact stage4_staysIn _ _ _
    · exact stage5_staysIn _ _ _ _
    · exact stage6_staysIn _ _ _ _
    · split
      · exact staysIn_wait _
      · split
        · exact staysIn_ok _ _ rfl
        · exact staysIn_ok _ _ rfl

theorem stageRun_next {s s1 : State} {tag unit : Nat} {r : Request} {p q : Pipeline} {st : Status}
    (h : stageRun s tag r p unit = (s1, .ok (q, st))) : q.next = p.next :=
  stageRun_staysIn s tag r p unit q st (congrArg Prod.snd h)

/-! ## The record of a stage's end (01 R27) -/

/-- The pipeline past its stage: the stage's record made, the next stage in turn. -/
def pastStage (s : State) (p : Pipeline) (st : Status) : Pipeline :=
  { markStage p p.next st (grainsSince s p.began) with
    done := none, next := p.next + 1, began := s.clk.grains.toNat, slots := if p.next = 5 ∧ isFailure st = false then [] else p.slots }

/-- The state past a stage of a request's pipeline: the pipeline in its place, the stage's matrix work gone. -/
def stageLeft (s : State) (tag : Nat) (r : Request) (p : Pipeline) : State :=
  { setRequest s tag { r with pipe := some p } with mtx := remove s.mtx tag }

theorem pastStage_grains {s : State} {p : Pipeline} {st : Status} (h : p.next < p.grains.length) :
    (pastStage s p st).grains.getD p.next 0 = s.clk.grains.toNat - p.began := by
  simp [pastStage, markStage, setAt, grainsSince, List.getD_eq_getElem?_getD, h]

theorem pastStage_run (s : State) (p : Pipeline) (st : Status) : (pastStage s p st).run.testBit p.next = true := by
  simp [pastStage, markStage]

/-- The start of a stage without steps of its own leaves the state past the stage before. -/
theorem stageBegin_stageLeft {s : State} {tag : Nat} {r : Request} {p : Pipeline} (hgather : p.next ≠ 1) (hsearch : p.next ≠ 3)
    (hprefill : p.next ≠ 7) : stageBegin (stageLeft s tag r p) tag = stageLeft s tag r p :=
  stageBegin_stepless (look_place_same s.requests tag { r with pipe := some p }) rfl hgather hsearch hprefill

/-! ## The end of a stage other than search (01 R25) -/

section StageEnd
variable {s : State} {tag : Nat} {r : Request} {p : Pipeline} {st : Status} (hsearch : p.next ≠ 3)
include hsearch

/-- Only the search stage makes a pair with the selection. -/
theorem pairRuns_eq_false : pairRuns p = false := by simp [pairRuns, hsearch]

theorem stageEnd_eq : stageEnd s tag r p st false =
    if isFailure st = true ∨ p.next = p.last then
      pipeClose (stageLeft s tag r (pastStage s p st)) tag r (pastStage s p st) (pipeStatus (pastStage s p st))
    else stageBegin (stageLeft s tag r (pastStage s p st)) tag := by
  have hmark : markEnd s p st false = markStage p p.next st (grainsSince s p.began) := by
    simp [markEnd, pairRuns_eq_false hsearch]
  simp only [stageEnd, hmark, pairRuns_eq_false hsearch, stageLeft, pastStage]
  cases isFailure st <;> simp [markStage]

/-- A failure, and the end of the last stage, end the pipeline. -/
theorem stageEnd_closes (h : isFailure st = true ∨ p.next = p.last) : stageEnd s tag r p st false =
    pipeClose (stageLeft s tag r (pastStage s p st)) tag r (pastStage s p st) (pipeStatus (pastStage s p st)) := by
  rw [stageEnd_eq hsearch, if_pos h]

theorem stageEnd_goesOn (hst : isFailure st = false) (hlast : p.next ≠ p.last) :
    stageEnd s tag r p st false = stageBegin (stageLeft s tag r (pastStage s p st)) tag := by
  rw [stageEnd_eq hsearch, if_neg (by simp [hst, hlast])]

end StageEnd

/-! ## The completion of a stage other than search (01 R22, R25) -/

theorem execStageComplete_running {s : State} {tag unit : Nat} {check : Option Mismatch} {fab : Nat × FabricSeen} {r : Request}
    {p : Pipeline} (hr : running s tag 0x20 = some r) (hp : r.pipe = some p) :
    exec (.stageComplete tag check unit fab) s = .next (stageComplete s tag r p check unit fab) := by
  have h : exec (.stageComplete tag check unit fab) s = execStageComplete tag check unit fab s := rfl
  simp only [h, execStageComplete, hr, hp]

/-- While a partition serves, a failure keeps its own status (02 R51). -/
theorem serviceStatus_served {s : State} (st : Status) (h : noService s = false) : serviceStatus s st = st := by
  simp [serviceStatus, h]

theorem spoilSlots_eq {s : State} {r : Request} {p : Pipeline} (h : p.next ≠ 3) : spoilSlots s r p = s := by
  simp [spoilSlots, h]

theorem dropLosers_eq {s : State} {p : Pipeline} (h : p.next ≠ 3) : dropLosers s p = (s, p) := by
  simp [dropLosers, h]

section StageComplete
variable {s s1 : State} {tag unit : Nat} {r : Request} {p q : Pipeline} {st : Status} {fab : Nat × FabricSeen}
variable (hserve : noService s = false)
include hserve

theorem stageComplete_fail (hrun : stageRun s tag r p unit = (s1, .fail st)) :
    stageComplete s tag r p none unit fab = stageEnd s1 tag r p st false := by
  simp [stageComplete, hrun, serviceStatus_served st hserve]

theorem stageComplete_spoiled (hrun : stageRun s tag r p unit = (s1, .ok (q, st))) (hfab : (stageFabric s1 r p fab).2 = true) :
    stageComplete s tag r p none unit fab = stageEnd (stageFabric s1 r p fab).1 tag r p .poisonFabric false := by
  simp [stageComplete, hrun, hserve, hfab]

theorem stageComplete_ok (hrun : stageRun s tag r p unit = (s1, .ok (q, st))) (hsearch : p.next ≠ 3)
    (hfab : (stageFabric s1 r p fab).2 = false) :
    stageComplete s tag r p none unit fab = stageEnd (stageFabric s1 r p fab).1 tag r q st false := by
  have hq : q.next ≠ 3 := by rwa [stageRun_next hrun]
  simp [stageComplete, hrun, hserve, hfab, meetCheck, spoilSlots_eq hsearch, dropLosers_eq hq]

end StageComplete

/-- Settles O47: the start by its checks in turn; the end of a stage by what the stage and the fabric gave. -/
theorem pipelineCommandsComplete : Obligations.PipelineCommandsComplete := by
  unfold Obligations.PipelineCommandsComplete
  refine ⟨?start, ?stage⟩
  case start =>
    intro s s1 tag r plan input hr hnew hbody hplan hinput p s2 s3 hshape hrules hnames hserve hblock
    have hbegin : exec (.pipeline tag) s = .next (stageBegin s3 tag) := by
      rw [execPipeline_running hr, pipeStart_read hnew hbody hplan hinput,
        pipeChecked_passes rfl hshape hrules hnames hserve hblock]
    refine ⟨hbegin, fun hgather hsearch hprefill => ?_⟩
    have hnext : (pipeInput p).next = p.first := pipeInput_next p
    rw [hbegin, stageBegin_stepless (look_place_same s2.requests tag _) rfl (by rwa [hnext]) (by rwa [hnext]) (by rwa [hnext])]
  case stage =>
    intro s tag unit n fab r p hr hp hn hlt hsearch hserve ended put
    subst hn
    refine ⟨fun s1 q st hrun hst => ?ok, fun s1 st hrun hst => ?fail⟩
    case ok =>
      have hq : q.next = p.next := stageRun_next hrun
      intro x q'
      have hq' : q' = pastStage x.1 q st := by simp only [q', ended, pastStage, hq]
      have hclean (hfab : x.2 = false) :
          exec (.stageComplete tag none unit fab) s = .next (stageEnd x.1 tag r q st false) := by
        rw [execStageComplete_running hr hp, stageComplete_ok hserve hrun hsearch hfab]
      refine ⟨fun hfab hmore => ?_, fun hfab hlast => ?_, fun hfab => ?_, fun hlen => ?_, ?_⟩
      · have hnot : q.next ≠ q.last := by omega
        have hgo : exec (.stageComplete tag none unit fab) s = .next (stageBegin (put x.1 q') tag) := by
          rw [hclean hfab, stageEnd_goesOn (by rwa [hq]) hst hnot, hq']
          rfl
        refine ⟨hgo, fun h0 h2 h6 => ?_⟩
        have hnext : q'.next = p.next + 1 := rfl
        have hstay : stageBegin (put x.1 q') tag = put x.1 q' :=
          stageBegin_stageLeft (by omega) (by omega) (by omega)
        rw [hgo, hstay]
      · rw [hclean hfab, stageEnd_closes (by rwa [hq]) (.inr (by rwa [hq])), hq']
        rfl
      · rw [execStageComplete_running hr hp, stageComplete_spoiled hserve hrun hfab, stageEnd_closes hsearch (.inl rfl)]
        rfl
      · rw [hq', ← hq]
        exact pastStage_grains (by rwa [hq])
      · rw [hq', ← hq]
        exact pastStage_run x.1 q st
    case fail =>
      intro q'
      rw [execStageComplete_running hr hp, stageComplete_fail hserve hrun, stageEnd_closes hsearch (.inl hst)]
      rfl

end Sys2Proof.Machine
end

section
/-! Proof that every step keeps the canonical form (O60): rules for the shapes that the model's operations are written in.

Each operation of the model has one lemma below, named after it, which carries State.Keeps from the state it is given to the state it
leaves. The lemmas stand in the order of the model's files, so that each cites those of the operations it is built from. -/
namespace Sys2Proof.Machine

variable {s0 s : State}

/-- A change of the parts that the invariant does not speak of. -/
theorem keeps_frame {supply nor assay hmk xign clk fabric coh flash ports funcs atc rings parked clear outs freeCount power voc grm
    tokLd tokUnld gathers selects idx srchLd srchUnld searches plan strand troy tpl tplUnld mtx prefills pools mtxCleared chain}
    (h : s0.Keeps s) :
    s0.Keeps { s with
      supply := supply, nor := nor, assay := assay, hmk := hmk, xign := xign, clk := clk, fabric := fabric, coh := coh, flash := flash,
      ports := ports, funcs := funcs, atc := atc, rings := rings, parked := parked, clear := clear, outs := outs,
      freeCount := freeCount, power := power, voc := voc, grm := grm, tokLd := tokLd, tokUnld := tokUnld, gathers := gathers,
      selects := selects, idx := idx, srchLd := srchLd, srchUnld := srchUnld, searches := searches, plan := plan, strand := strand,
      troy := troy, tpl := tpl, tplUnld := tplUnld, mtx := mtx, prefills := prefills, pools := pools, mtxCleared := mtxCleared,
      chain := chain } :=
  keeps_same h rfl rfl rfl rfl rfl rfl

/-- A change of device memory beside its bytes. -/
theorem keeps_memFrame {poison broken weak rowHits copying retired history lastResv liveCh lastPoisonEvent} (h : s0.Keeps s) :
    s0.Keeps { s with mem := { s.mem with poison, broken, weak, rowHits, copying, retired, history, lastResv, liveCh, lastPoisonEvent } } :=
  keeps_same h rfl rfl rfl rfl rfl rfl

theorem keeps_ite_fst {α : Type} {p : Prop} [Decidable p] {a b : State × α} (ha : s0.Keeps a.1) (hb : s0.Keeps b.1) :
    s0.Keeps (if p then a else b).1 := by
  split <;> assumption

theorem keeps_ite_snd {α : Type} {p : Prop} [Decidable p] {a b : α × State} (ha : s0.Keeps a.2) (hb : s0.Keeps b.2) :
    s0.Keeps (if p then a else b).2 := by
  split <;> assumption

/-- A fold that carries a result beside the state. -/
theorem keeps_foldl_fst {α β : Type} {x : State × β} (f : State × β → α → State × β) (hf : ∀ y a, s0.Keeps y.1 → s0.Keeps (f y a).1)
    (l : List α) (h : s0.Keeps x.1) : s0.Keeps (l.foldl f x).1 := foldl_inv (fun y => s0.Keeps y.1) f hf l x h

/-- A pair already taken apart, its state first. -/
theorem keeps_fst {α : Type} {x : State × α} {u : State} {a : α} (e : x = (u, a)) (h : s0.Keeps x.1) : s0.Keeps u := by
  rwa [e] at h

/-- A pair already taken apart, its state second. -/
theorem keeps_snd {α : Type} {x : α × State} {u : State} {a : α} (e : x = (a, u)) (h : s0.Keeps x.2) : s0.Keeps u := by
  rwa [e] at h

/-- An operation done on a condition. -/
theorem keeps_if {t : State} {p : Prop} [Decidable p] (f : s0.Keeps s → s0.Keeps t) (h : s0.Keeps s) : s0.Keeps (if p then t else s) :=
  keeps_ite (f h) h

/-- An operation left out on a condition. -/
theorem keeps_unless {t : State} {p : Prop} [Decidable p] (f : s0.Keeps s → s0.Keeps t) (h : s0.Keeps s) : s0.Keeps (if p then s else t) :=
  keeps_ite h (f h)

/-- One more register in a chain of register offsets. -/
theorem keeps_ite_some {p : Prop} [Decidable p] {u : State} {x : Option State} (hu : s0.Keeps u) (hx : ∀ t, x = some t → s0.Keeps t) :
    ∀ t, (if p then some u else x) = some t → s0.Keeps t := by
  intro t ht
  split at ht
  · exact Option.some.inj ht ▸ hu
  · exact hx t ht

theorem keeps_none : ∀ t : State, none = some t → s0.Keeps t := by
  rintro _ ⟨⟩

theorem keeps_none_fst {α : Type} : ∀ z : State × α, none = some z → s0.Keeps z.1 := by
  rintro _ ⟨⟩

/-- One more register in a chain of register offsets that read. -/
theorem keeps_ite_some_fst {α : Type} {p : Prop} [Decidable p] {y : State × α} {x : Option (State × α)} (hy : s0.Keeps y.1)
    (hx : ∀ z, x = some z → s0.Keeps z.1) : ∀ z, (if p then some y else x) = some z → s0.Keeps z.1 := by
  intro z hz
  split at hz
  · exact Option.some.inj hz ▸ hy
  · exact hx z hz

/-- A command leads only to states that keep what stands in `s0`; a refusal or a fault leads to none. -/
def Leads (s0 : State) (r : Result) : Prop := ∀ t, r = .next t → s0.Keeps t

theorem leads_next (h : s0.Keeps s) : Leads s0 (.next s) := by
  rintro t ⟨⟩
  exact h

end Sys2Proof.Machine
end

section
/-! What the operations that every meaning shares keep (O60). -/
namespace Sys2Proof.Machine

variable {s0 s : State}

/-! ## Ops -/

theorem forgetPages_keeps (fn : FnId) (gone : Nat → Bool) (h : s0.Keeps s) : s0.Keeps (forgetPages s fn gone) :=
  setAtc_keeps _ _ h

theorem askOwner_keeps (a n : Nat) (h : s0.Keeps s) : s0.Keeps (askOwner s a n) := keeps_ite (hostAsk_keeps _ _ _ h) h

theorem backOwner_keeps (a n : Nat) (h : s0.Keeps s) : s0.Keeps (backOwner s a n) := hostBack_keeps _ _ _ h

theorem draw_keeps (h : s0.Keeps s) : s0.Keeps (draw s).2 := keeps_frame h

theorem evtWrite_keeps (fn : FnId) (e : Event) (h : s0.Keeps s) : s0.Keeps (evtWrite s fn e) :=
  keeps_if (sendMsix_keeps _ _) (setEvt_keeps _ _ (hostSend_keeps _ _ _ h))

theorem evtLose_keeps (fn : FnId) (seq : Nat) (h : s0.Keeps s) : s0.Keeps (evtLose s fn seq) := setEvt_keeps _ _ h

theorem evtPut_keeps (fn : FnId) (e : Event) (h : s0.Keeps s) : s0.Keeps (evtPut s fn e) :=
  keeps_ite (setEvt_keeps _ _ (evtReport_keeps _ h)) (keeps_ite (evtWrite_keeps _ _ (evtReport_keeps _ h)) (evtLose_keeps _ _
      (evtReport_keeps _ h)))

theorem evtDrain_keeps (fn : FnId) (f : State → Event → State) (h : s0.Keeps s)
    (hf : ∀ (t : State) (e : Event), s0.Keeps t → s0.Keeps (f t e)) :
    s0.Keeps (evtDrain s fn f) :=
  keeps_foldl _ (fun _ _ ht => hf _ _ ht) _ (setEvt_keeps _ _ h)

theorem evtDrop_keeps (fn : FnId) (h : s0.Keeps s) : s0.Keeps (evtDrop s fn) :=
  evtDrain_keeps _ _ h (fun _ _ ht => evtLose_keeps _ _ ht)

theorem evtResume_keeps (fn : FnId) (h : s0.Keeps s) : s0.Keeps (evtResume s fn) :=
  keeps_ite (evtDrain_keeps _ _ (evtReport_keeps _ h) (fun _ _ ht => evtPut_keeps _ _ ht)) (evtDrop_keeps _ h)

theorem deliverOwner_keeps (e : Event) (h : s0.Keeps s) : s0.Keeps (deliverOwner s e) :=
  keeps_ite (keeps_ite (keeps_frame h) (keeps_foldl _ (fun _ _ ht => evtLose_keeps _ _ ht) _ h)) (keeps_foldl _ (fun _ _ ht
      => evtPut_keeps _ _ ht) _ h)

theorem deliverTenant_keeps (t : Nat) (e : Event) (h : s0.Keeps s) : s0.Keeps (deliverTenant s t e) :=
  keeps_foldl _ (fun _ _ ht => keeps_ite (evtPut_keeps _ _ ht) (evtLose_keeps _ _ ht)) _ h

theorem fabricMeets_keeps (f : Nat) (seen : FabricSeen) (fresh : List Nat) (isFca : Bool) (addr : Nat → Nat)
    (tenant : Option Nat) (h : s0.Keeps s) :
    s0.Keeps (fabricMeets s f seen fresh isFca addr tenant) :=
  keeps_foldl _ (fun _ _ ht => poisoning_keeps _ _ _ _ _ ht) _ (keeps_unless (bump_keeps _ _ _ _) (keeps_unless (bump_keeps _
      _ _ _) (keeps_foldl _ (fun _ _ ht => keeps_ite (bump_keeps _ _ _ _ ht) ht) _ h)))

theorem writeEntry_keeps (r : Request) (fn : FnId) (a : Nat) (bytes : List Byte) (h : s0.Keeps s) :
    s0.Keeps (writeEntry s r fn a bytes) :=
  keeps_ite h (hostSend_keeps _ _ _ h)

theorem signalCq_keeps (fn : FnId) (ck : Nat) (h : s0.Keeps s) : s0.Keeps (signalCq s fn ck) :=
  keeps_ite (sendMsix_keeps _ _ h) h

theorem countWaste_keeps (j : SearchJob) (h : s0.Keeps s) : s0.Keeps (countWaste s j) :=
  keeps_foldl _ (fun _ _ ht => keeps_ite ht (bump_keeps _ _ _ _ ht)) _ h

/-! ## Chain -/

theorem setChain_keeps (c : Chain) (h : s0.Keeps s) : s0.Keeps (setChain s c) := keeps_frame h

theorem chainEvent_keeps (c : EventCode) (detail : Nat) (h : s0.Keeps s) : s0.Keeps (chainEvent s c detail) :=
  raise_keeps _ _ _ _ _ _ h

theorem driveEnum_keeps (h : s0.Keeps s) : s0.Keeps (driveEnum s) := keeps_ite h (emit_keeps _ (regSetFld_keeps _ _ _ _ h))

theorem showTx_keeps (u : ChainUse) (st : Nat) (h : s0.Keeps s) : s0.Keeps (showTx s u st) := by
  unfold showTx
  split
  · exact regSetFld_keeps _ _ _ _ h
  · exact h

theorem setPending_keeps (p : ChainPending) (h : s0.Keeps s) : s0.Keeps (setPending s p) := setChain_keeps _ h

theorem dropPending_keeps (u : ChainUse) (h : s0.Keeps s) : s0.Keeps (dropPending s u) := setChain_keeps _ h

theorem addPending_keeps (u : ChainUse) (h : s0.Keeps s) : s0.Keeps (addPending s u) :=
  keeps_ite (setChain_keeps _ h) (showTx_keeps _ _ (setChain_keeps _ h))

theorem withdraw_keeps (u : ChainUse) (h : s0.Keeps s) : s0.Keeps (withdraw s u) := by
  unfold withdraw
  split
  · exact h
  · exact keeps_ite (setPending_keeps _ h) (showTx_keeps _ _ (dropPending_keeps _ h))

theorem attemptFailed_keeps (won : Bool) (h : s0.Keeps s) : s0.Keeps (attemptFailed s won) := by
  unfold attemptFailed
  split
  · exact h
  · extract_lets +onlyGivenNames _ s1
    have h1 : s0.Keeps s1 := setChain_keeps _ h
    split
    · exact h1
    · exact keeps_ite (showTx_keeps _ _ (dropPending_keeps _ (keeps_ite (chainEvent_keeps _ _ h1) h1))) (showTx_keeps _ _
        (setPending_keeps _ (keeps_ite (chainEvent_keeps _ _ h1) h1)))

theorem attemptAbandoned_keeps (h : s0.Keeps s) : s0.Keeps (attemptAbandoned s) := attemptFailed_keeps _ h

theorem settleClaim_keeps (h : s0.Keeps s) : s0.Keeps (settleClaim s) :=
  keeps_ite (keeps_ite h (addPending_keeps _ h)) (withdraw_keeps _ h)

theorem setAddress_keeps (a : Nat) (h : s0.Keeps s) : s0.Keeps (setAddress s a) :=
  driveEnum_keeps (regSetFld_keeps _ _ _ _ (regSetFld_keeps _ _ _ _ h))

/-! ## Coherence -/

theorem recvCache_keeps {m : CohMsg} {t : State} (l p : Nat) (want : CohMsg → Bool) (h : s0.Keeps s)
    (ht : recvCache s l p want = some (m, t)) :
    s0.Keeps t := by
  unfold recvCache at ht
  dsimp only at ht
  split at ht
  · cases ht
    exact setCoh_keeps _ h
  · cases ht

theorem recvHome_keeps {m : CohMsg} {t : State} (l p : Nat) (want : CohMsg → Bool) (h : s0.Keeps s)
    (ht : recvHome s l p want = some (m, t)) :
    s0.Keeps t := by
  unfold recvHome at ht
  dsimp only at ht
  split at ht
  · cases ht
    exact setCoh_keeps _ h
  · cases ht

theorem lineToMem_keeps (l : Nat) (d : List Byte × Option Origin) (h : s0.Keeps s) : s0.Keeps (lineToMem s l d) :=
  memWriteP_keeps _ _ _ h

theorem countStale_keeps (l : Nat) (h : s0.Keeps s) : s0.Keeps (countStale s l) := by
  unfold countStale
  split
  · exact bump_keeps _ _ _ _ h
  · exact h

theorem ioResult_keeps (id : Nat) (d : List Byte × Option Origin) (h : s0.Keeps s) : s0.Keeps (ioResult s id d) :=
  setCoh_keeps _ h

theorem awaitFrom_keeps (l : Nat) (req : LineReq) (ps : List Nat) (h : s0.Keeps s) : s0.Keeps (awaitFrom s l req ps) :=
  setCoh_keeps _ h

theorem partFault_keeps (p : Nat) (st : Status) (h : s0.Keeps s) : s0.Keeps (partFault s p st) := by
  unfold partFault
  extract_lets +onlyGivenNames _ s1
  have h1 : s0.Keeps s1 := setCoh_keeps _ h
  split
  · split
    · split
      · exact setRequest_keeps _ _ h1
      · exact finish_keeps _ _ _ h1
    · exact h1
  · exact h1

theorem failReq_keeps (req : LineReq) (h : s0.Keeps s) : s0.Keeps (failReq s req) := by
  unfold failReq
  dsimp only
  split
  · exact partFault_keeps _ _ (setCache_keeps _ _ h)
  · exact partFault_keeps _ _ (setCache_keeps _ _ h)
  · exact partFault_keeps _ _ (setCache_keeps _ _ h)
  · exact setCoh_keeps _ h
  · exact partFault_keeps _ _ h
  · exact partFault_keeps _ _ h
  · exact h

theorem startQueued_keeps (l : Nat) (req : LineReq) (h : s0.Keeps s) : s0.Keeps (startQueued s l req) :=
  keeps_ite (startReq_keeps _ _ h) (failReq_keeps _ h)

theorem serveQueue_keeps (n l : Nat) (h : s0.Keeps s) : s0.Keeps (serveQueue n s l) := by
  induction n generalizing s with
  | zero => exact h
  | succ n ih =>
    unfold serveQueue
    refine keeps_ite h ?_
    split
    · exact h
    · exact ih (startQueued_keeps _ _ (setCoh_keeps _ h))

theorem admitWaits_keeps (n : Nat) (h : s0.Keeps s) : s0.Keeps (admitWaits n s) := by
  induction n generalizing s with
  | zero => exact h
  | succ n ih =>
    unfold admitWaits
    split
    · exact h
    · exact ih (submitReq_keeps _ _ (setCoh_keeps _ h))

theorem settleFences_keeps (h : s0.Keeps s) : s0.Keeps (settleFences s) := setCoh_keeps _ h

theorem tryFinish_keeps (l : Nat) (h : s0.Keeps s) : s0.Keeps (tryFinish s l) := by
  unfold tryFinish
  split
  · exact h
  · refine keeps_ite h ?_
    extract_lets +onlyGivenNames _ _ s1
    have h1 : s0.Keeps s1 := setCoh_keeps _ h
    extract_lets +onlyGivenNames s2
    have h2 : s0.Keeps s2 := by
      dsimp only [s2]
      split
      · exact keeps_ite (lineToMem_keeps _ _ h1) h1
      · exact noteLine_keeps _ _ h1
    extract_lets +onlyGivenNames _ s3
    have h3 : s0.Keeps s3 := by
      dsimp only [s3]
      split
      · exact h2
      · exact keeps_ite (setDir_keeps _ _ h2) h2
    exact settleFences_keeps (admitWaits_keeps _ (serveQueue_keeps _ _ (keeps_ite (grantReq_keeps _ _ _ _ h3) (grantReq_keeps
        _ _ _ _ h3))))

theorem answerTxn_keeps (l p : Nat) (d : Option (List Byte × Option Origin)) (keeps : Bool) (h : s0.Keeps s) :
    s0.Keeps (answerTxn s l p d keeps) := by
  unfold answerTxn
  split
  · exact h
  · exact keeps_ite h (tryFinish_keeps _ (setCoh_keeps _ h))

theorem takeWb_keeps {t : State} (l : Nat) (tid : Tid) (d : List Byte × Option Origin) (h : s0.Keeps s)
    (ht : takeWb s l tid d = some t) :
    s0.Keeps t := by
  unfold takeWb at ht
  dsimp only at ht
  split at ht
  · exact Option.some.inj ht ▸ cohSend_keeps _ (countStale_keeps _ (setCoh_keeps _ h))
  · split at ht
    · exact Option.some.inj ht ▸ answerTxn_keeps _ _ _ _ (cohSend_keeps _ (setCoh_keeps _ (lineToMem_keeps _ _ h)))
    · split at ht
      · exact Option.some.inj ht ▸ cohSend_keeps _ (setDir_keeps _ _ (lineToMem_keeps _ _ h))
      · cases ht

theorem answerFwd_keeps (l p : Nat) (tid : Tid) (keep : Bool) (h : s0.Keeps s) : s0.Keeps (answerFwd s l p tid keep) := by
  unfold answerFwd
  dsimp only
  split
  · exact cohSend_keeps _ (setCache_keeps _ _ h)
  · exact cohSend_keeps _ h
  · exact h

theorem dropCache_keeps (p : Nat) (h : s0.Keeps s) : s0.Keeps (dropCache s p) := by
  unfold dropCache
  extract_lets +onlyGivenNames _ _ _ _ _ _ _ _ _ _
  refine keeps_foldl _ (fun _ _ ht => ?_) _ (keeps_foldl _ (fun _ _ ht => keeps_ite (setDir_keeps _ _ ht) ht) _ (keeps_foldl
      _ (fun _ _ ht => answerTxn_keeps _ _ _ _ ht) _ (keeps_foldl _ (fun _ _ ht => poisonRange_keeps _ _ _ ht) _
      (setCoh_keeps _ (setCache_keeps _ _ h)))))
  split
  · exact setDir_keeps _ _ ht
  · exact ht

/-! ## Reserve -/

theorem grantValue_keeps (periodic : Bool) (f : Nat) (tier : Tier) (t v : Nat) (h : s0.Keeps s) :
    s0.Keeps (grantValue periodic s f tier t v) :=
  keeps_if (fun ht => keeps_unless (raise_keeps _ _ _ _ _ _) (raise_keeps _ _ _ _ _ _ ht)) (regSetFld_keeps _ _ _ _
      (keeps_frame h))

theorem evalTier_keeps (periodic : Bool) (f : Nat) (tier : Tier) (h : s0.Keeps s) : s0.Keeps (evalTier periodic s f tier) :=
  keeps_foldl _ (fun _ _ ht => grantValue_keeps _ _ _ _ _ ht) _ (regSetFld_keeps _ _ _ _ h)

theorem evalGrants_keeps (h : s0.Keeps s) : s0.Keeps (evalGrants s) :=
  keeps_foldl _ (fun _ _ ht => keeps_foldl _ (fun _ _ hu => evalTier_keeps _ _ _ hu) _ ht) _ h

theorem evalNow_keeps (h : s0.Keeps s) : s0.Keeps (evalNow s) :=
  keeps_foldl _ (fun _ _ ht => keeps_foldl _ (fun _ _ hu => evalTier_keeps _ _ _ hu) _ ht) _ h

/-! ## Nand -/

theorem setQueue_keeps (lun : Nat) (q : List NandCmd) (h : s0.Keeps s) : s0.Keeps (setQueue s lun q) := keeps_frame h

theorem setFlight_keeps (lun : Nat) (c : Option NandFlight) (h : s0.Keeps s) : s0.Keeps (setFlight s lun c) := keeps_frame h

theorem placeRead_keeps (id : Nat) (r : ExtentRead) (h : s0.Keeps s) : s0.Keeps (placeRead s id r) := keeps_frame h

theorem enqueue_keeps (op : NandOp) (cls : NandClass) (tenant : Nat) (data : List Byte) (h : s0.Keeps s) :
    s0.Keeps (enqueue s op cls tenant data) :=
  keeps_frame (setQueue_keeps _ _ h)

theorem setLevel_keeps (lun code : Nat) (h : s0.Keeps s) : s0.Keeps (setLevel s lun code) :=
  keeps_ite h (emit_keeps _ (keeps_frame h))

theorem selectCw_keeps (lun fca : Nat) (h : s0.Keeps s) : s0.Keeps (selectCw s lun fca) := emit_keeps _ h

theorem ensureRead_keeps (id : Nat) (r : ExtentRead) (h : s0.Keeps s) : s0.Keeps (ensureRead s id r) := by
  unfold ensureRead
  dsimp only
  split
  · exact keeps_if (selectCw_keeps _ _) (placeRead_keeps _ _ h)
  · exact keeps_ite (enqueue_keeps _ _ _ _ (placeRead_keeps _ _ h)) (keeps_frame (setQueue_keeps _ _ (placeRead_keeps _ _
      h)))

theorem releaseLun_keeps (lun : Nat) (h : s0.Keeps s) : s0.Keeps (releaseLun s lun) := by
  unfold releaseLun
  split
  · exact h
  · exact keeps_ite (setFlight_keeps _ _ h) h

theorem jobStatus_keeps (f st reason entry : Nat) (h : s0.Keeps s) : s0.Keeps (jobStatus s f st reason entry) :=
  regSet_keeps _ _ h

theorem setJob_keeps (f : Nat) (j : FlashJob) (h : s0.Keeps s) : s0.Keeps (setJob s f j) := keeps_frame h

theorem orphanJob_keeps (f : Nat) (h : s0.Keeps s) : s0.Keeps (orphanJob s f) := keeps_frame h

theorem jobStopped_keeps (f : Nat) (j : FlashJob) (h : s0.Keeps s) : s0.Keeps (jobStopped s f j) :=
  keeps_ite (jobStatus_keeps _ _ _ _ (orphanJob_keeps _ (keeps_frame h))) (jobStatus_keeps _ _ _ _ (orphanJob_keeps _
      (keeps_frame h)))

theorem jobAsk_keeps (f : Nat) (h : s0.Keeps s) : s0.Keeps (jobAsk s f) := by
  unfold jobAsk
  split
  · exact keeps_ite (hostAsk_keeps _ _ _ h) h
  · exact h

theorem entryDone_keeps (f : Nat) (h : s0.Keeps s) : s0.Keeps (entryDone s f) := by
  unfold entryDone
  split
  · exact h
  · exact keeps_ite (jobStopped_keeps _ _ h) (keeps_ite (jobAsk_keeps _ (jobStatus_keeps _ _ _ _ (setJob_keeps _ _ h)))
      (jobStatus_keeps _ _ _ _ (orphanJob_keeps _ (keeps_frame h))))

theorem jobFlush_keeps (f : Nat) (h : s0.Keeps s) : s0.Keeps (jobFlush s f) := by
  unfold jobFlush
  split
  · split
    · exact keeps_ite (entryDone_keeps _ (hostSend_keeps _ _ _ h)) h
    · exact h
  · exact h

theorem dropUpdates_keeps (f : Nat) (h : s0.Keeps s) : s0.Keeps (dropUpdates s f) := keeps_frame h

theorem stopJob_keeps (f reason : Nat) (h : s0.Keeps s) : s0.Keeps (stopJob s f reason) := by
  unfold stopJob
  split
  · exact h
  · exact keeps_ite (setJob_keeps _ _ (dropUpdates_keeps _ h)) (jobStopped_keeps _ _ (dropUpdates_keeps _ h))

theorem stopJobs_keeps (reason : Nat) (h : s0.Keeps s) : s0.Keeps (stopJobs s reason) :=
  keeps_foldl _ (fun _ _ ht => stopJob_keeps _ _ ht) _ h

theorem killJobs_keeps (h : s0.Keeps s) : s0.Keeps (killJobs s) := by
  unfold killJobs
  refine keeps_foldl _ (fun _ _ ht => ?_) _ h
  split
  · exact jobStopped_keeps _ _ (dropUpdates_keeps _ ht)
  · exact ht

theorem jobReadEnds_keeps (f : Nat) (r : ExtentRead) (st : Option Status) (h : s0.Keeps s) :
    s0.Keeps (jobReadEnds s f r st) := by
  unfold jobReadEnds
  split
  · exact h
  · split
    · split
      · exact jobFlush_keeps _ (setJob_keeps _ _ h)
      · exact stopJob_keeps _ _ h
      · exact stopJob_keeps _ _ (draw_keeps h)
    · exact h

theorem endRead_keeps (id : Nat) (r : ExtentRead) (st : Option Status) (h : s0.Keeps s) : s0.Keeps (endRead s id r st) :=
  keeps_if (jobReadEnds_keeps _ _ _) (keeps_frame h)

theorem dropDead_keeps (h : s0.Keeps s) : s0.Keeps (dropDead s) :=
  keeps_frame (keeps_foldl _ (fun _ _ ht => keeps_ite ht (endRead_keeps _ _ _ ht)) _ h)

theorem flashLost_keeps (f : Nat) (h : s0.Keeps s) : s0.Keeps (flashLost s f) := by
  unfold flashLost
  extract_lets +onlyGivenNames _ s1
  have h1 : s0.Keeps s1 := dropDead_keeps h
  refine keeps_ite ?_ h1
  split
  · exact stopJob_keeps _ _ (setJob_keeps _ _ h1)
  · exact h1

/-! ## Wire -/

theorem setLane_keeps (l st : Nat) (h : s0.Keeps s) : s0.Keeps (setLane s l st) := regSetFld_keeps _ _ _ _ h

theorem sendLldp_keeps (l ttl : Nat) (h : s0.Keeps s) : s0.Keeps (sendLldp s l ttl) := emit_keeps _ h

theorem laneDown_keeps (l : Nat) (linkHolds : Bool) (h : s0.Keeps s) : s0.Keeps (laneDown s l linkHolds) :=
  keeps_ite h (bump_keeps _ _ _ _ (regSetFld_keeps _ _ _ _ (regSetFld_keeps _ _ _ _ (setLane_keeps _ _ (keeps_ite
      (sendLldp_keeps _ _ h) h)))))

theorem identify_keeps (l : Nat) (h : s0.Keeps s) : s0.Keeps (identify s l) :=
  keeps_ite h (keeps_ite (setLane_keeps _ _ h) (setLane_keeps _ _ h))

theorem identifyAll_keeps (h : s0.Keeps s) : s0.Keeps (identifyAll s) :=
  keeps_foldl _ (fun _ _ ht => identify_keeps _ (regSetFld_keeps _ _ _ _ ht)) _ h

theorem strandStop_keeps (h : s0.Keeps s) : s0.Keeps (strandStop s) :=
  keeps_frame (keeps_foldl _ (fun _ _ ht => keeps_ite ht (setLane_keeps _ _ ht)) _ h)

theorem laneCount_keeps (l off : Nat) (h : s0.Keeps s) : s0.Keeps (laneCount s l off) := bump_keeps _ _ _ _ h

theorem foreign_keeps (l : Nat) (h : s0.Keeps s) : s0.Keeps (foreign s l) := bump_keeps _ _ _ _ h

theorem setFlow_keeps (f : Flow) (h : s0.Keeps s) : s0.Keeps (setFlow s f) := keeps_frame h

theorem putFrame_keeps (f : Flow) (fr : FlowFrame) (seq : Nat) (h : s0.Keeps s) : s0.Keeps (putFrame s f fr seq).1 := by
  unfold putFrame
  split
  · exact h
  · exact emit_keeps _ h
  · exact h

theorem control_keeps (f : Flow) (typ : Nat) (payload : List Byte) (h : s0.Keeps s) : s0.Keeps (control s f typ payload) :=
  keeps_if (setFlow_keeps _) (putFrame_keeps _ _ _ h)

theorem noteTurn_keeps (f : Flow) (c : Nat) (h : s0.Keeps s) : s0.Keeps (noteTurn s f c) := keeps_frame h

theorem sendHead_keeps (f : Flow) (h : s0.Keeps s) : s0.Keeps (sendHead s f) := by
  unfold sendHead
  split
  · exact h
  · exact noteTurn_keeps _ _ (peak_keeps _ _ _ _ (setFlow_keeps _ (putFrame_keeps _ _ _ h)))

theorem pumpN_keeps (n k : Nat) (h : s0.Keeps s) : s0.Keeps (pumpN n s k) := by
  induction n generalizing s with
  | zero => exact h
  | succ n ih =>
    unfold pumpN
    split
    · exact h
    · exact keeps_ite (ih (sendHead_keeps _ h)) h

theorem pumpPair_keeps (n p : Nat) (h : s0.Keeps s) : s0.Keeps (pumpPair n s p) := by
  induction n generalizing s with
  | zero => exact h
  | succ n ih =>
    unfold pumpPair
    refine keeps_ite ?_ h
    split
    · exact ih (sendHead_keeps _ h)
    · exact h

theorem pumpAll_keeps (h : s0.Keeps s) : s0.Keeps (pumpAll s) := keeps_foldl _ (fun _ _ ht => pumpPair_keeps _ _ ht) _ h

theorem sendMessage_keeps (k : Nat) (m : List Byte) (h : s0.Keeps s) : s0.Keeps (sendMessage s k m) := by
  unfold sendMessage
  split
  · exact h
  · exact pumpN_keeps _ _ (setFlow_keeps _ h)

theorem sendFin_keeps (k : Nat) (h : s0.Keeps s) : s0.Keeps (sendFin s k) := by
  unfold sendFin
  split
  · exact h
  · exact keeps_ite h (pumpN_keeps _ _ (setFlow_keeps _ h))

theorem dropFlow_keeps (k : Nat) (h : s0.Keeps s) : s0.Keeps (dropFlow s k) := keeps_frame h

theorem abandonFlow_keeps (k st : Nat) (h : s0.Keeps s) : s0.Keeps (abandonFlow s k st) := by
  unfold abandonFlow
  split
  · exact h
  · exact dropFlow_keeps _ (control_keeps _ _ _ h)

theorem finOrphans_keeps (h : s0.Keeps s) : s0.Keeps (finOrphans s) := by
  unfold finOrphans
  refine keeps_foldl _ (fun _ _ ht => ?_) _ h
  split
  · exact sendFin_keeps _ (setFlow_keeps _ ht)
  · exact ht

theorem openFlow_keeps (peer kind : Nat) (use : FlowUse) (m : List Byte) (h : s0.Keeps s) :
    s0.Keeps (openFlow s peer kind use m).1 := by
  unfold openFlow
  extract_lets +onlyGivenNames s1
  have h1 : s0.Keeps s1 := finOrphans_keeps h
  split
  · exact keeps_frame h1
  · exact pumpN_keeps _ _ (setFlow_keeps _ h1)

theorem retryWaiting_keeps (n : Nat) (h : s0.Keeps s) : s0.Keeps (retryWaiting n s) := by
  induction n generalizing s with
  | zero => exact h
  | succ n ih =>
    unfold retryWaiting
    split
    · exact h
    · exact keeps_ite h (ih (openFlow_keeps _ _ _ _ (keeps_frame h)))

theorem progressFrom_keeps (peer : Nat) (h : s0.Keeps s) : s0.Keeps (progressFrom s peer) := keeps_frame h

theorem takeAck_keeps (k : Nat) (h' : Hdr) (h : s0.Keeps s) : s0.Keeps (takeAck s k h').1 := by
  unfold takeAck
  split
  · exact h
  · exact keeps_ite_fst h (keeps_if (progressFrom_keeps _) (setFlow_keeps _ h))

theorem takeNumbered_keeps (k : Nat) (h' : Hdr) (fr : FlowFrame) (h : s0.Keeps s) : s0.Keeps (takeNumbered s k h' fr).1 := by
  unfold takeNumbered
  split
  · exact h
  · refine keeps_ite_fst (control_keeps _ _ _ h) ?_
    refine keeps_ite_fst h ?_
    extract_lets +onlyGivenNames s1
    have h1 : s0.Keeps s1 := progressFrom_keeps _ h
    dsimp only
    split
    · exact abandonFlow_keeps _ _ h1
    · exact keeps_unless (control_keeps _ _ _) (setFlow_keeps _ h1)

theorem resetUnknown_keeps (l : Nat) (h' : Hdr) (h : s0.Keeps s) : s0.Keeps (resetUnknown s l h') := control_keeps _ _ _ h

theorem takeOpen_keeps (l : Nat) (h' : Hdr) (b : List Byte) (h : s0.Keeps s) : s0.Keeps (takeOpen s l h' b).1 := by
  unfold takeOpen
  dsimp only
  split
  · exact control_keeps _ _ _ h
  · exact takeNumbered_keeps _ _ _ (setFlow_keeps _ h)

theorem openArrives_keeps (l : Nat) (h' : Hdr) (b : List Byte) (h : s0.Keeps s) : s0.Keeps (openArrives s l h' b).1 := by
  unfold openArrives
  split
  · exact keeps_ite_fst (control_keeps _ _ _ h) (resetUnknown_keeps _ _ h)
  · exact keeps_ite_fst h (keeps_ite_fst (keeps_frame h) (takeOpen_keeps _ _ _ h))

theorem followPair_keeps (k l : Nat) (h : s0.Keeps s) : s0.Keeps (followPair s k l) := by
  unfold followPair
  split
  · exact keeps_ite h (setFlow_keeps _ h)
  · exact h

theorem setLost_keeps (peer : Nat) (v : Bool) (h : s0.Keeps s) : s0.Keeps (setLost s peer v) := regSetFld_keeps _ _ _ _ h

theorem frameWork_keeps (l : Nat) (h' : Hdr) (b : List Byte) (h : s0.Keeps s) : s0.Keeps (frameWork s l h' b).1 := by
  unfold frameWork
  refine keeps_ite_fst (openArrives_keeps _ _ _ h) ?_
  split
  · exact keeps_ite_fst (resetUnknown_keeps _ _ h) h
  · extract_lets +onlyGivenNames s1
    have h1 : s0.Keeps s1 := followPair_keeps _ _ h
    split
    · exact keeps_ite_fst h1 (takeAck_keeps _ _ (setFlow_keeps _ (progressFrom_keeps _ (setLost_keeps _ _ h1))))
    · exact keeps_ite_fst h1 (dropFlow_keeps _ (progressFrom_keeps _ h1))
    · exact takeAck_keeps _ _ h1
    · exact progressFrom_keeps _ h1
    · exact keeps_ite_fst (setFlow_keeps _ h1) (dropFlow_keeps _ h1)
    · exact takeNumbered_keeps _ _ _ (takeAck_keeps _ _ h1)
    · exact takeNumbered_keeps _ _ _ (takeAck_keeps _ _ h1)
    · exact foreign_keeps _ h1

theorem reapFlows_keeps (h : s0.Keeps s) : s0.Keeps (reapFlows s).1 := keeps_foldl _ (fun _ _ ht => dropFlow_keeps _ ht) _ h

theorem frameArrives_keeps (l : Nat) (b : List Byte) (fits : Hdr → Bool) (h : s0.Keeps s) :
    s0.Keeps (frameArrives s l b fits).1 := by
  unfold frameArrives
  rcases hw : frameWork s l (hdrOf b) b with ⟨u, es⟩
  rcases hr : reapFlows (pumpAll u) with ⟨v, ds⟩
  have hv := keeps_fst hr (reapFlows_keeps (pumpAll_keeps (keeps_fst hw (frameWork_keeps l (hdrOf b) b h))))
  dsimp only
  rw [hr]
  exact keeps_ite_fst h (keeps_ite_fst (foreign_keeps _ h) (keeps_ite_fst (foreign_keeps _ h)
    (keeps_ite_fst (laneCount_keeps _ _ h) (retryWaiting_keeps _ hv))))

theorem admitFlow_keeps (k : Nat) (use : FlowUse) (h : s0.Keeps s) : s0.Keeps (admitFlow s k use) := by
  unfold admitFlow
  split
  · exact h
  · exact control_keeps _ _ _ (setLost_keeps _ _ (setFlow_keeps _ h))

theorem refuseFlow_keeps (k st : Nat) (h : s0.Keeps s) : s0.Keeps (refuseFlow s k st) := by
  unfold refuseFlow
  split
  · exact h
  · exact dropFlow_keeps _ (control_keeps _ _ _ h)

theorem setWorks_keeps (k : Nat) (v : Bool) (h : s0.Keeps s) : s0.Keeps (setWorks s k v) := by
  unfold setWorks
  split
  · exact setFlow_keeps _ h
  · exact h

/-! ## Stop -/

theorem hmkEvent_keeps (h : s0.Keeps s) : s0.Keeps (hmkEvent s) := raise_keeps _ _ _ _ _ _ h

theorem endWork_keeps (st : Status) (h : s0.Keeps s) : s0.Keeps (endWork s st) := strandStop_keeps (endAll_keeps _ h)

theorem enterHeld_keeps (st : Status) (reason : Nat) (h : s0.Keeps s) : s0.Keeps (enterHeld s st reason) :=
  hmkEvent_keeps (keeps_frame (regSet_keeps _ _ (stopJobs_keeps _ (endWork_keeps _ h))))

end Sys2Proof.Machine
end

section
/-! What the operations of requests, images, fences and selection keep (O60). -/
namespace Sys2Proof.Machine

variable {s0 s : State}

/-! ## Operands -/

theorem spoilArea_keeps (a n : Nat) (h : s0.Keeps s) : s0.Keeps (spoilArea s a n) := keeps_frame (memWrite_keeps _ _ h)

theorem finishStage_keeps (tag : Nat) (words : List Nat) (st : Status) (h : s0.Keeps s) :
    s0.Keeps (finishStage s tag words st) := by
  unfold finishStage
  split
  · exact h
  · split
    · exact setRequest_keeps _ _ h
    · exact finish_keeps _ _ _ h

/-! ## Troy -/

theorem segsRead_keeps (t : Nat) (im : Image) (gs : List Seg) (h : s0.Keeps s) : s0.Keeps (segsRead s t im gs) :=
  keeps_foldl _ (fun _ _ ht => keeps_ite (engRead_keeps _ _ _ ht) ht) _ h

theorem slotLost_keeps (n f : Nat) (h : s0.Keeps s) : s0.Keeps (slotLost s n f) :=
  keeps_foldl _ (fun _ _ ht => raise_keeps _ _ _ _ _ _ ht) _ (raise_keeps _ _ _ _ _ _ (setTroy_keeps _ _ h))

theorem swapRefused_keeps (n : Nat) (t : TroySlot) (h : s0.Keeps s) : s0.Keeps (swapRefused s n t) := by
  unfold swapRefused
  extract_lets +onlyGivenNames s1
  have h1 : s0.Keeps s1 := setTroy_keeps _ _ h
  split
  · exact slotLost_keeps _ _ h1
  · exact h1

theorem loadFail_keeps (n : Nat) (st : Status) (place : Nat) (h : s0.Keeps s) : s0.Keeps (loadFail s n st place) := by
  unfold loadFail
  dsimp only
  split
  · exact h
  · refine finish_keeps _ _ _ ?_
    refine keeps_ite ?_ ?_
    · refine swapRefused_keeps _ _ ?_
      split
      · exact abandonFlow_keeps _ _ h
      · exact h
    · refine setTroy_keeps _ _ ?_
      split
      · exact abandonFlow_keeps _ _ h
      · exact h

theorem imagesLost_keeps (kind u : Nat) (h : s0.Keeps s) : s0.Keeps (imagesLost s kind u) := by
  unfold imagesLost
  refine keeps_ite h ?_
  refine keeps_foldl _ (fun _ _ hu => ?_) _ h
  extract_lets +onlyGivenNames _ s1
  have h1 : s0.Keeps s1 := by
    dsimp only [s1]
    split
    · exact keeps_ite (slotLost_keeps _ _ hu) hu
    · exact hu
  split
  · split
    · exact keeps_ite (loadFail_keeps _ _ _ h1) h1
    · exact h1
  · exact h1

/-! ## Fencing -/

theorem fenceEvents_keeps (kind n cause : Nat) (h : s0.Keeps s) : s0.Keeps (fenceEvents s kind n cause) :=
  keeps_foldl _ (fun _ _ ht => raise_keeps _ _ _ _ _ _ ht) _ (raise_keeps _ _ _ _ _ _ h)

theorem markFenced_keeps (kind n cause : Nat) (h : s0.Keeps s) : s0.Keeps (markFenced s kind n cause) := by
  unfold markFenced
  refine keeps_ite h ?_
  extract_lets +onlyGivenNames s1
  have h1 : s0.Keeps s1 := keeps_foldl _ (fun _ _ hu => regSet_keeps _ _ hu) _ h
  exact imagesLost_keeps _ _ (fenceEvents_keeps _ _ _ (keeps_ite (dropCache_keeps _ h1) (keeps_ite (flashLost_keeps _
      (regSetFld_keeps _ _ _ _ h1)) (keeps_ite (flashLost_keeps _ h1) (keeps_ite (laneDown_keeps _ _ h1) h1)))))

theorem fenceIsland_keeps (f cause : Nat) (h : s0.Keeps s) : s0.Keeps (fenceIsland s f cause) :=
  keeps_ite h (keeps_foldl _ (fun _ _ ht => markFenced_keeps _ _ _ ht) _ (markFenced_keeps _ _ _ h))

theorem fenceIsolated_keeps (home : Nat) (h : s0.Keeps s) : s0.Keeps (fenceIsolated s home) :=
  keeps_foldl _ (fun _ _ ht => fenceIsland_keeps _ _ ht) _ h

theorem goDead_keeps (c : DeadCause) (h : s0.Keeps s) : s0.Keeps (goDead s c) :=
  driveEnum_keeps (keeps_frame (attemptAbandoned_keeps (killJobs_keeps (endWork_keeps _ h))))

theorem controllerLost_keeps (cause : Nat) (h : s0.Keeps s) : s0.Keeps (controllerLost s cause) := by
  unfold controllerLost
  split
  · exact h
  · exact keeps_ite (fenceIsolated_keeps _ (raise_keeps _ _ _ _ _ _ (keeps_frame (attemptAbandoned_keeps (markFenced_keeps _
      _ _ (enterHeld_keeps _ _ (keeps_frame h))))))) (goDead_keeps _ h)

theorem afterFence_keeps (h : s0.Keeps s) : s0.Keeps (afterFence s) := by
  unfold afterFence
  extract_lets +onlyGivenNames s1
  have h1 : s0.Keeps s1 := by
    dsimp only [s1]
    split
    · exact keeps_ite (fenceIsolated_keeps _ h) h
    · exact h
  extract_lets +onlyGivenNames s2
  have h2 : s0.Keeps s2 := by
    dsimp only [s2]
    split
    · exact keeps_ite h1 (controllerLost_keeps _ h1)
    · exact h1
  exact evalNow_keeps h2

theorem fenceUnit_keeps (kind n cause : Nat) (h : s0.Keeps s) : s0.Keeps (fenceUnit s kind n cause) :=
  keeps_ite h (afterFence_keeps (keeps_ite (fenceIsland_keeps _ _ h) (markFenced_keeps _ _ _ h)))

theorem unitCheck_keeps (kind n mismatches : Nat) (h : s0.Keeps s) : s0.Keeps (unitCheck s kind n mismatches) := by
  unfold unitCheck
  dsimp only
  split
  · exact h
  · exact bump_keeps _ _ _ _ h
  · exact fenceUnit_keeps _ _ _ (bump_keeps _ _ _ _ h)

theorem meetCheck_keeps (takesPart : CheckedUnit → Bool) (check : Option Mismatch) (h : s0.Keeps s) :
    s0.Keeps (meetCheck s takesPart check).1 := by
  unfold meetCheck
  split
  · exact keeps_ite_fst (unitCheck_keeps _ _ _ h) h
  · exact h

/-! ## Select -/

theorem selectCounts_keeps (units : List Nat) (row : List Entry) (asc : Bool) (k : Nat) (h : s0.Keeps s) :
    s0.Keeps (selectCounts s units row asc k) :=
  keeps_foldl _ (fun _ _ ht => bump_keeps _ _ _ _ (bump_keeps _ _ _ _ ht)) _ h

theorem selectFinish_keeps (r : Request) (units : List Nat) (row : List Entry) (comp : Nat) (h : s0.Keeps s) :
    s0.Keeps (selectFinish s r units row comp).1 :=
  (writeOut_keeps _ _ _ _ h)

theorem selectInputs_keeps (r : Request) (h : s0.Keeps s) : s0.Keeps (selectInputs s r).1 := by
  unfold selectInputs
  refine keeps_ite_fst h ?_
  refine keeps_ite_fst h ?_
  refine keeps_ite_fst h ?_
  split
  · exact h
  · split
    · exact h
    · refine keeps_andThen _ _ (readAt_keeps _ _ _ _ h) (fun _ _ hw => ?_)
      split
      · exact hw
      · split <;> exact hw

theorem spoilScratch_keeps (r : Request) (u : Nat) (h : s0.Keeps s) : s0.Keeps (spoilScratch s r u) :=
  keeps_ite h (keeps_frame (engWrite_keeps _ _ _ h))

theorem selectShares_keeps (tag : Nat) (r : Request) (us : List Nat) (row : List Entry) (h : s0.Keeps s) :
    s0.Keeps (selectShares s tag r us row) := by
  unfold selectShares
  extract_lets +onlyGivenNames _ _ s1
  have h1 : s0.Keeps s1 := spoilScratch_keeps _ _ (selectCounts_keeps _ _ _ _ h)
  exact keeps_ite (conclude_keeps _ _ h1 (selectFinish_keeps _ _ _ _ h1)) (keeps_frame h1)

theorem selectStart_keeps (tag : Nat) (r : Request) (check : Option Mismatch) (h : s0.Keeps s) :
    s0.Keeps (selectStart s tag r check) := by
  unfold selectStart
  refine keeps_ite h ?_
  extract_lets +onlyGivenNames s1
  have h1 : s0.Keeps s1.1 := selectInputs_keeps _ h
  split
  · exact keepReads_keeps _ h
  · exact finish_keeps _ _ _ h1
  · exact keeps_ite (finish_keeps _ _ _ h) (keeps_ite (finish_keeps _ _ _ (meetCheck_keeps _ _ h1)) (selectShares_keeps _ _ _
      _ (meetCheck_keeps _ _ h1)))

theorem execSelectRow_keeps (tag : Nat) (check : Option Mismatch) (h : s0.Keeps s) : Leads s0 (execSelectRow tag check s) := by
  refine leads_next ?_
  split
  · exact selectStart_keeps _ _ _ h
  · exact h

theorem selectAgain_keeps (tag : Nat) (r : Request) (j : SelectJob) (live : Nat → Bool) (h : s0.Keeps s) :
    s0.Keeps (selectAgain s tag r j live) := by
  unfold selectAgain
  extract_lets +onlyGivenNames s1
  have h1 : s0.Keeps s1 := keeps_frame h
  split
  · exact finish_keeps _ _ _ h1
  · exact selectShares_keeps _ _ _ _ h1

theorem selectMerge_keeps (tag : Nat) (r : Request) (check : Option Mismatch) (h : s0.Keeps s) :
    s0.Keeps (selectMerge s tag r check) := by
  unfold selectMerge
  split
  · exact h
  · exact keeps_ite (selectAgain_keeps _ _ _ _ h) (keeps_ite (finish_keeps _ _ _ (keeps_frame (meetCheck_keeps _ _ h)))
      (conclude_keeps _ _ (keeps_frame (meetCheck_keeps _ _ h)) (selectFinish_keeps _ _ _ _ (keeps_frame (meetCheck_keeps _ _
      h)))))

theorem execSelectMerge_keeps (done : UnitDone) (h : s0.Keeps s) : Leads s0 (execSelectMerge done s) := by
  refine leads_next ?_
  split
  · exact selectMerge_keeps _ _ _ h
  · exact h

/-! ## Search -/

theorem handleRead_keeps (t a n : Nat) (h : s0.Keeps s) : s0.Keeps (handleRead s t a n).1 := by
  unfold handleRead
  refine keeps_ite_fst h ?_
  refine keeps_ite_fst h ?_
  refine keeps_ite_fst h ?_
  extract_lets +onlyGivenNames _
  split <;> exact (engRead_keeps _ _ _ h)

theorem scanReads_keeps (t : Nat) (b : List Byte) (q : SearchQ) (copies : List ListCopy) (lists : List Nat) (h : s0.Keeps s) :
    s0.Keeps (scanReads s t b q copies lists).1 :=
  keeps_foldl_fst _ (fun _ _ ht => keeps_andThen _ _ ht (fun _ _ hu => keeps_andThen _ _ (handleRead_keeps _ _ _ hu) (fun _ _
      hv => hv))) _ h

theorem scanCompacts_keeps (f k n : Nat) (h : s0.Keeps s) : s0.Keeps (scanCompacts s f k n) :=
  keeps_ite h (bump_keeps _ _ _ _ (keeps_frame h))

theorem scanCounts_keeps (cb b : List Byte) (q : SearchQ) (copies : List ListCopy) (lists : List Nat) (h : s0.Keeps s) :
    s0.Keeps (scanCounts s cb b q copies lists) :=
  keeps_foldl _ (fun _ _ ht => bump_keeps _ _ _ _ (bump_keeps _ _ _ _ (bump_keeps _ _ _ _ ht))) _ h

theorem postFilter_keeps (t : Nat) (b : List Byte) (q : SearchQ) (es : List Entry) (h : s0.Keeps s) :
    s0.Keeps (postFilter s t b q es).1 := by
  unfold postFilter
  split
  · exact h
  · exact keeps_foldl_fst _ (fun _ _ ht => keeps_andThen _ _ ht (fun _ _ hu => keeps_andThen _ _ (handleRead_keeps _ _ _ hu)
      (fun _ _ hv => hv))) _ h

theorem selectAndFilter_keeps (t : Nat) (cb b : List Byte) (q : SearchQ) (copies : List ListCopy) (lists : List Nat)
    (keep : Nat) (h : s0.Keeps s) :
    s0.Keeps (selectAndFilter s t cb b q copies lists keep).1 :=
  keeps_andThen _ _ (postFilter_keeps _ _ _ _ h) (fun _ _ ht => ht)

theorem scanOnce_keeps (t : Nat) (b : List Byte) (q : SearchQ) (copies : List ListCopy) (lists : List Nat) (keep : Nat)
    (h : s0.Keeps s) :
    s0.Keeps (scanOnce s t b q copies lists keep).1 :=
  keeps_ite_fst h (keeps_andThen _ _ (scanReads_keeps _ _ _ _ _ (collect_keeps _ _ _ h)) (fun _ _ ht => selectAndFilter_keeps
      _ _ _ _ _ _ _ (keeps_foldl _ (fun _ _ hu => scanCompacts_keeps _ _ _ hu) _ (scanCounts_keeps _ _ _ _ _ ht))))

theorem scanRun_keeps (t : Nat) (b : List Byte) (q : SearchQ) (copies : List ListCopy) (lists : List Nat) (h : s0.Keeps s) :
    s0.Keeps (scanRun s t b q copies lists).1 :=
  keeps_andThen _ _ (scanOnce_keeps _ _ _ _ _ _ h) (fun _ _ ht => keeps_ite_fst (keeps_andThen _ _ (scanOnce_keeps _ _ _ _ _
      _ ht) (fun _ _ hu => hu)) ht)

theorem readAuxBlock_keeps (r : Request) (b : List Byte) (h : s0.Keeps s) : s0.Keeps (readAuxBlock s r b).1 := by
  unfold readAuxBlock
  refine keeps_ite_fst h ?_
  split
  · exact h
  · refine keeps_ite_fst h ?_
    refine keeps_andThen _ _ (devRead_keeps _ _ _ h) (fun _ _ hv => ?_)
    split
    · exact hv
    · exact keeps_ite_fst hv (keeps_ite_fst hv hv)

theorem searchInputs_keeps (r : Request) (query : State → List Byte → Reading (List Byte × Nat)) (h : s0.Keeps s)
    (hquery : ∀ (t : State) (b : List Byte), s0.Keeps t → s0.Keeps (query t b).1) :
    s0.Keeps (searchInputs s r query).1 := by
  unfold searchInputs
  refine keeps_ite_fst h ?_
  dsimp only
  split
  · exact h
  · exact keeps_ite_fst h (keeps_ite_fst h (keeps_andThen _ _ (readAuxBlock_keeps _ _ h) (fun _ _ hu => keeps_andThen _ _
      (hquery _ _ hu) (fun _ _ hv => hv))))

/-! ## Passage -/

theorem passageVector_keeps (tag t : Nat) (b : List Byte) (id : Nat) (h : s0.Keeps s) :
    s0.Keeps (passageVector s tag t b id).1 :=
  keeps_andThen _ _ (handleRead_keeps _ _ _ h) (fun _ _ ht => ht)

theorem recordHead_keeps (tag t : Nat) (b : List Byte) (id : Nat) (h : s0.Keeps s) : s0.Keeps (recordHead s tag t b id).1 :=
  keeps_andThen _ _ (handleRead_keeps _ _ _ h) (fun _ _ ht => keeps_ite_fst ht (keeps_andThen _ _ ht (fun _ _ hu =>
      keeps_ite_fst hu hu)))

theorem readEach_keeps {α β : Type} (f : State → α → Reading β) (hf : ∀ t a, s0.Keeps t → s0.Keeps (f t a).1) (l : List α)
    (h : s0.Keeps s) :
    s0.Keeps (readEach f s l).1 := by
  induction l generalizing s with
  | nil => exact h
  | cons a l ih => exact keeps_andThen _ _ (hf _ _ h) (fun _ _ ht => keeps_andThen _ _ (ih ht) (fun _ _ hu => hu))

/-! ## Matrix -/

theorem setMtx_keeps (tag : Nat) (j : MtxJob) (h : s0.Keeps s) : s0.Keeps (setMtx s tag j) := keeps_frame h

theorem seqRows_keeps (r : Request) (rows : Nat) (h : s0.Keeps s) : s0.Keeps (seqRows s r rows).1 := by
  unfold seqRows
  refine keeps_ite_fst h ?_
  split
  · exact h
  · exact keeps_ite_fst h (keeps_andThen _ _ (devRead_keeps _ _ _ h) (fun _ _ hu => hu))

theorem encodeAll_keeps (r : Request) (im : Image) (lens : List Nat) (rows : List Byte) (h : s0.Keeps s) :
    s0.Keeps (encodeAll s r im lens rows).1 := by
  unfold encodeAll
  extract_lets +onlyGivenNames _ _
  split <;> exact (segsRead_keeps _ _ _ h)

theorem embedEnd_keeps (tag : Nat) (r : Request) (vs : List (List Byte)) (h : s0.Keeps s) :
    s0.Keeps (embedEnd s tag r vs).1 := by
  unfold embedEnd
  split <;> exact h

theorem embedStage_keeps (tag : Nat) (r : Request) (g : Nat) (rows : List Byte) (h : s0.Keeps s) :
    s0.Keeps (embedStage s tag r g rows).1 := by
  unfold embedStage
  refine keeps_ite_fst h ?_
  split
  · exact h
  · exact keeps_ite_fst h (keeps_andThen _ _ (encodeAll_keeps _ _ _ _ h) (fun _ _ hu => keeps_andThen _ _ (embedEnd_keeps _ _
      _ hu) (fun _ _ hv => hv)))

theorem embedRun_keeps (tag : Nat) (r : Request) (h : s0.Keeps s) : s0.Keeps (embedRun tag s r).1 := by
  unfold embedRun
  refine keeps_ite_fst h ?_
  split
  · exact h
  · refine keeps_ite_fst h ?_
    refine keeps_andThen _ _ (seqRows_keeps _ _ h) (fun _ _ hv => ?_)
    refine keeps_ite_fst hv ?_
    refine keeps_andThen _ _ (readAt_keeps _ _ _ _ hv) (fun _ _ hx => ?_)
    split
    · exact hx
    · exact keeps_andThen _ _ (encodeAll_keeps _ _ _ _ hx) (fun _ _ hx => keeps_andThen _ _ (embedEnd_keeps _ _ _ hx) (fun _
        _ hx => (keeps_foldl _ (fun _ _ hx => writeOut_keeps _ _ _ _ hx) _ hx)))

theorem execEmbed_keeps (tag : Nat) (h : s0.Keeps s) : Leads s0 (execEmbed tag s) :=
  leads_next (runOp_keeps _ _ _ (fun _ => embedRun_keeps _ _ h) h)

theorem rescoreAll_keeps (tag t : Nat) (x : RerankIn) (h : s0.Keeps s) : s0.Keeps (rescoreAll s tag t x).1 :=
  keeps_andThen _ _ (readEach_keeps _ (fun _ _ ht => passageVector_keeps _ _ _ _ ht) _ h) (fun _ _ ht => ht)

theorem crossOne_keeps (tag t : Nat) (x : RerankIn) (im : Image) (bytes : List Byte) (maxSeq : Nat) (c : Entry)
    (h : s0.Keeps s) :
    s0.Keeps (crossOne tag t x im bytes maxSeq s c).1 :=
  keeps_andThen _ _ (recordHead_keeps _ _ _ _ h) (fun _ _ ht => keeps_andThen _ _ ht (fun _ _ hu => keeps_ite_fst hu hu))

theorem rerankRank_keeps (tag : Nat) (r : Request) (x : RerankIn) (kept : List Entry) (h : s0.Keeps s) :
    s0.Keeps (rerankRank s tag r x kept).1 := by
  unfold rerankRank
  split
  · exact h
  · extract_lets +onlyGivenNames s1
    have h1 : s0.Keeps s1 := segsRead_keeps _ _ _ h
    split
    · exact h1
    · exact keeps_andThen _ _ (readEach_keeps _ (fun _ _ ht => crossOne_keeps _ _ _ _ _ _ _ ht) _ h1) (fun _ _ ht => ht)

theorem rerankWork_keeps (tag : Nat) (r : Request) (x : RerankIn) (h : s0.Keeps s) : s0.Keeps (rerankWork s tag r x).1 := by
  unfold rerankWork
  split
  · exact h
  · refine keeps_ite_fst h ?_
    refine keeps_andThen _ _ (keeps_ite_fst (rescoreAll_keeps _ _ _ h) h) (fun _ _ hu => ?_)
    refine keeps_andThen _ _ (rerankRank_keeps _ _ _ _ hu) (fun _ _ hv => ?_)
    dsimp only
    split
    · exact bump_keeps _ _ _ _ hv
    · exact bump_keeps _ _ _ _ hv
    · exact hv

theorem rerankStage_keeps (tag : Nat) (r : Request) (g : Nat) (cands : List Entry) (toks : List Nat) (vec : List Byte)
    (vfmt : Nat) (h : s0.Keeps s) :
    s0.Keeps (rerankStage s tag r g cands toks vec vfmt).1 := by
  unfold rerankStage
  refine keeps_ite_fst h ?_
  split
  · exact h
  · exact keeps_ite_fst h (rerankWork_keeps _ _ _ h)

theorem queryBlock_keeps (r : Request) (b : List Byte) (h : s0.Keeps s) : s0.Keeps (queryBlock s r b).1 :=
  keeps_andThen _ _ (readAt_keeps _ _ _ _ h) (fun _ _ ht => keeps_ite_fst ht (keeps_andThen _ _ (readAt_keeps _ _ _ _ ht)
      (fun _ _ hu => keeps_andThen _ _ (keeps_ite_fst hu (readAt_keeps _ _ _ _ hu)) (fun _ _ hv => hv))))

theorem rerankRun_keeps (tag : Nat) (r : Request) (h : s0.Keeps s) : s0.Keeps (rerankRun tag s r).1 := by
  unfold rerankRun
  refine keeps_ite_fst h ?_
  dsimp only
  split
  · exact h
  · refine keeps_ite_fst h ?_
    split
    · exact h
    · refine keeps_andThen _ _ (readAt_keeps _ _ _ _ h) (fun _ _ hv => ?_)
      refine keeps_andThen _ _ (queryBlock_keeps _ _ hv) (fun _ _ hw => ?_)
      split
      · exact hw
      · exact keeps_andThen _ _ (rerankWork_keeps _ _ _ hw) (fun _ _ hx => writeOut_keeps _ _ _ _ hx)

theorem execRerank_keeps (tag : Nat) (h : s0.Keeps s) : Leads s0 (execRerank tag s) :=
  leads_next (runOp_keeps _ _ _ (fun _ => rerankRun_keeps _ _ h) h)

end Sys2Proof.Machine
end

section
/-! What the operations of clocks, rings, slots, pools and prefill keep (O60). -/
namespace Sys2Proof.Machine

variable {s0 s : State}

/-! ## Clocks -/

theorem retarget_keeps (p : Nat) (h : s0.Keeps s) : s0.Keeps (retarget s p) := regSetFld_keeps _ _ _ _ h

theorem pmaxWrite_keeps (f : Nat) (high : Bool) (w : Word) (h : s0.Keeps s) : s0.Keeps (pmaxWrite s f high w) :=
  keeps_foldl _ (fun _ _ ht => retarget_keeps _ ht) _ (regSet_keeps _ _ h)

theorem execClkPmaxWrite_keeps (facet : Nat) (high : Bool) (w : Word) (h : s0.Keeps s) :
    Leads s0 (execClkPmaxWrite facet high w s) :=
  leads_next (keeps_ite (pmaxWrite_keeps _ _ _ h) h)

theorem dcoStep_keeps (p : Nat) (h : s0.Keeps s) : s0.Keeps (dcoStep s p) := retarget_keeps _ (regSetFld_keeps _ _ _ _ h)

theorem execDcoStep_keeps (part : Nat) (h : s0.Keeps s) : Leads s0 (execDcoStep part s) :=
  leads_next (keeps_ite (dcoStep_keeps _ h) h)

theorem execDcoFault_keeps (part : Nat) (h : s0.Keeps s) : Leads s0 (execDcoFault part s) :=
  leads_next (keeps_ite (fenceUnit_keeps _ _ _ (regSetFld_keeps _ _ _ _ h)) h)

theorem execPllLockLost_keeps (h : s0.Keeps s) : Leads s0 (execPllLockLost s) :=
  leads_next (keeps_ite (enterHeld_keeps _ _ (keeps_frame h)) h)

theorem clearSchedule_keeps (h : s0.Keeps s) : s0.Keeps (clearSchedule s) :=
  keeps_foldl _ (fun _ _ ht => regsFilter_keeps _ (regSet_keeps _ _ (regSet_keeps _ _ (regSet_keeps _ _ ht)))) _ (keeps_frame h)

theorem relock_keeps (gapUs : Nat) (h : s0.Keeps s) : s0.Keeps (relock s gapUs) :=
  raise_keeps _ _ _ _ _ _ (memFilter_keeps _ _ rfl (clearSchedule_keeps (keeps_frame h)))

/-! ## Rings -/

theorem hostPoison_keeps (fn : FnId) (n : Nat) (h : s0.Keeps s) : s0.Keeps (hostPoison s fn n) :=
  keeps_foldl _ (fun _ _ ht => poisoning_keeps _ _ _ _ _ (draw_keeps ht)) _ h

theorem setLine_keeps (fn : FnId) (d : Nat) (v : DoorLine) (h : s0.Keeps s) : s0.Keeps (setLine s fn d v) := keeps_frame h

theorem ringFaultEvent_keeps (fn : FnId) (r : Nat) (f : RingFault) (h : s0.Keeps s) : s0.Keeps (ringFaultEvent s fn r f) :=
  keeps_unless (raise_keeps _ _ _ _ _ _) (raise_keeps _ _ _ _ _ _ h)

theorem takeIndex_keeps (fn : FnId) (r : Nat) (pi : Word) (h : s0.Keeps s) : s0.Keeps (takeIndex s fn r pi) :=
  keeps_ite h (keeps_ite (setSq_keeps _ _ h) (ringFaultEvent_keeps _ _ _ (setSq_keeps _ _ h)))

theorem dbMiss_keeps (fn : FnId) (d : Nat) (h : s0.Keeps s) : s0.Keeps (dbMiss s fn d) := bump_keeps _ _ _ _ h

theorem endPoll_keeps (fn : FnId) (d : Nat) (changed : Bool) (h : s0.Keeps s) : s0.Keeps (endPoll s fn d changed) :=
  setLine_keeps _ _ _ h

theorem pollData_keeps (fn : FnId) (d : Nat) (line : List Byte) (st : ReadStatus) (h : s0.Keeps s) :
    s0.Keeps (pollData s fn d line st) := by
  unfold pollData
  split
  · exact endPoll_keeps _ _ _ (hostPoison_keeps _ _ h)
  · exact endPoll_keeps _ _ _ (dbMiss_keeps _ _ h)
  · exact keeps_ite (setLine_keeps _ _ _ (dbMiss_keeps _ _ h)) (endPoll_keeps _ _ _ (keeps_foldl _ (fun _ _ ht =>
      takeIndex_keeps _ _ _ ht) _ h))

theorem poll_keeps (fn : FnId) (d : Nat) (h : s0.Keeps s) : s0.Keeps (poll s fn d) :=
  keeps_ite h (hostAsk_keeps _ _ _ (setLine_keeps _ _ _ h))

theorem execDoorbellPoll_keeps (port tenant line : Nat) (h : s0.Keeps s) : Leads s0 (execDoorbellPoll port tenant line s) :=
  leads_next (poll_keeps _ _ h)

theorem execDoorbellPollData_keeps (port tenant line : Nat) (data : List Byte) (st : ReadStatus) (h : s0.Keeps s) :
    Leads s0 (execDoorbellPollData port tenant line data st s) :=
  leads_next (keeps_ite h (keeps_unless (fun ht => settle_keeps (pollData_keeps _ _ _ _ ht)) (refusedPages_keeps _ _ _ _
      (hostBack_keeps _ _ _ h))))

theorem takeTag_keeps (fn : FnId) (ring : Nat) (index : Word) (e : List Byte) (ext : Option (List Byte)) (body : List Byte)
    (st bodySt : ReadStatus) (h : s0.Keeps s) :
    s0.Keeps (takeTag s fn ring index e ext body st bodySt) := by
  unfold takeTag
  dsimp only
  split
  · exact h
  · exact setRequest_keeps _ _ (setCq_keeps _ _ (keeps_ite (noteExt_keeps _ _ _ _ h) h))

theorem countIf_keeps (fn : FnId) (st : ReadStatus) (n : Nat) (h : s0.Keeps s) : s0.Keeps (countIf s fn st n) :=
  keeps_ite (hostPoison_keeps _ _ h) h

theorem readEntry_keeps (fn : FnId) (ring : Nat) (st : ReadStatus) (h : s0.Keeps s) : s0.Keeps (readEntry s fn ring st) :=
  readNow_keeps _ _ _ _ h

theorem fetchEntry_keeps (fn : FnId) (ring : Nat) (e : List Byte) (st : ReadStatus) (body : List Byte) (bodySt : ReadStatus)
    (h : s0.Keeps s) :
    s0.Keeps (fetchEntry s fn ring e st body bodySt) := by
  unfold fetchEntry
  extract_lets +onlyGivenNames _ _ _ s2
  have h2 : s0.Keeps s2 := setSq_keeps _ _ (countIf_keeps _ _ _ (readEntry_keeps _ _ _ h))
  split
  · exact takeTag_keeps _ _ _ _ _ _ _ _ (setSq_keeps _ _ h2)
  · exact keeps_ite (setSq_keeps _ _ h2) (takeTag_keeps _ _ _ _ _ _ _ _ (keeps_ite (countIf_keeps _ _ _ (readNow_keeps _ _ _
      _ h2)) h2))

theorem cqHead_keeps (fn : FnId) (c head : Nat) (h : s0.Keeps s) : s0.Keeps (cqHead s fn c head) :=
  keeps_ite h (setCq_keeps _ _ h)

theorem evtHead_keeps (fn : FnId) (head : Nat) (h : s0.Keeps s) : s0.Keeps (evtHead s fn head) :=
  keeps_ite h (keeps_if (evtReport_keeps _) (setEvt_keeps _ _ h))

theorem execCqHeadReread_keeps (port tenant : Nat) (cq : Option Nat) (head : Nat) (st : ReadStatus) (h : s0.Keeps s) :
    Leads s0 (execCqHeadReread port tenant cq head st s) := by
  refine leads_next ?_
  refine keeps_ite h ?_
  extract_lets +onlyGivenNames s1
  have h1 : s0.Keeps s1 := readNow_keeps _ _ _ _ h
  split
  · exact hostPoison_keeps _ _ h1
  · exact h1
  · split
    · exact cqHead_keeps _ _ _ h1
    · exact evtHead_keeps _ _ h1

theorem modExpiry_keeps (fn : FnId) (cq : Option Nat) (h : s0.Keeps s) : s0.Keeps (modExpiry s fn cq) := by
  unfold modExpiry
  split
  · exact keeps_ite (signalCq_keeps _ _ (setCq_keeps _ _ h)) h
  · exact keeps_ite (sendMsix_keeps _ _ (setEvt_keeps _ _ h)) h

theorem execModUsExpiry_keeps (port tenant : Nat) (cq : Option Nat) (h : s0.Keeps s) :
    Leads s0 (execModUsExpiry port tenant cq s) :=
  leads_next (keeps_ite (modExpiry_keeps _ _ h) h)

theorem fnStore_keeps (fn : FnId) (off mask : Nat) (w : Word) (h : s0.Keeps s) : s0.Keeps (fnStore s fn off mask w) :=
  regSet_keeps _ _ h

theorem enableRead_keeps (fn : FnId) (d : Nat) (line : List Byte) (st : ReadStatus) (h : s0.Keeps s) :
    s0.Keeps (enableRead s fn d line st).1 := by
  unfold enableRead
  have hread := readNow_keeps fn (fnPair s fn (0x800 + 16 * d)) 64 st h
  cases st <;> dsimp only
  case poisoned => exact hostPoison_keeps _ _ hread
  case xlate => exact hread
  case good => exact keeps_ite_fst hread (dbMiss_keeps _ _ hread)

theorem sqConfigFault_keeps (fn : FnId) (ring : Nat) (w : Word) (h : s0.Keeps s) : s0.Keeps (sqConfigFault s fn ring w) :=
  setSq_keeps _ _ (fnStore_keeps _ _ _ _ h)

theorem sqWrite_keeps (fn : FnId) (ring : Nat) (w : Word) (line : List Byte) (st : ReadStatus) (h : s0.Keeps s) :
    s0.Keeps (sqWrite s fn ring w line st) :=
  keeps_ite (keeps_ite h (settle_keeps (setSq_keeps _ _ (fnStore_keeps _ _ _ _ h)))) (keeps_ite (fnStore_keeps _ _ _ _ h)
      (keeps_ite (sqConfigFault_keeps _ _ _ h) (keeps_ite (sqConfigFault_keeps _ _ _ (enableRead_keeps _ _ _ _ h))
      (setSq_keeps _ _ (fnStore_keeps _ _ _ _ (enableRead_keeps _ _ _ _ h))))))

theorem execRngSqEnable_keeps (port tenant ring : Nat) (w : Word) (line : List Byte) (st : ReadStatus) (h : s0.Keeps s) :
    Leads s0 (execRngSqEnable port tenant ring w line st s) :=
  leads_next (keeps_ite (sqWrite_keeps _ _ _ _ _ h) h)

theorem cqWrite_keeps (fn : FnId) (c : Nat) (w : Word) (h : s0.Keeps s) : s0.Keeps (cqWrite s fn c w) :=
  keeps_ite (keeps_ite (fnStore_keeps _ _ _ _ h) (keeps_ite h (fnStore_keeps _ _ _ _ h))) (keeps_ite (setCq_keeps _ _
      (fnStore_keeps _ _ _ _ h)) (fnStore_keeps _ _ _ _ h))

theorem execRngCqEnable_keeps (port tenant ring : Nat) (w : Word) (h : s0.Keeps s) :
    Leads s0 (execRngCqEnable port tenant ring w s) :=
  leads_next (keeps_ite (cqWrite_keeps _ _ _ h) h)

theorem dbWrite_keeps (fn : FnId) (d : Nat) (w : Word) (h : s0.Keeps s) : s0.Keeps (dbWrite s fn d w) :=
  keeps_ite (keeps_ite (fnStore_keeps _ _ _ _ h) (keeps_ite h (setLine_keeps _ _ _ (fnStore_keeps _ _ _ _ h)))) (keeps_ite
      (setLine_keeps _ _ _ (fnStore_keeps _ _ _ _ h)) (fnStore_keeps _ _ _ _ h))

theorem execRngDbEnable_keeps (port tenant line : Nat) (w : Word) (h : s0.Keeps s) :
    Leads s0 (execRngDbEnable port tenant line w s) :=
  leads_next (keeps_ite (dbWrite_keeps _ _ _ h) h)

theorem releaseHeld_keeps (fn : FnId) (h : s0.Keeps s) : s0.Keeps (releaseHeld s fn) :=
  keeps_foldl _ (fun _ _ ht => evtPut_keeps _ _ ht) _ (evtReport_keeps _ (keeps_frame h))

theorem evtWriteCfg_keeps (fn : FnId) (w : Word) (h : s0.Keeps s) : s0.Keeps (evtWriteCfg s fn w) :=
  keeps_ite (keeps_ite (fnStore_keeps _ _ _ _ h) (evtDrop_keeps _ (fnStore_keeps _ _ _ _ h))) (keeps_ite (keeps_ite
      (releaseHeld_keeps _ (setEvt_keeps _ _ (fnStore_keeps _ _ _ _ h))) (keeps_if (evtReport_keeps _) (setEvt_keeps _ _
      (fnStore_keeps _ _ _ _ h)))) (fnStore_keeps _ _ _ _ h))

theorem execEvtEnable_keeps (port tenant : Nat) (w : Word) (h : s0.Keeps s) : Leads s0 (execEvtEnable port tenant w s) :=
  leads_next (keeps_ite (evtWriteCfg_keeps _ _ h) h)

theorem ringDisable_keeps (fn : FnId) (kind : RingKind) (i : Nat) (w : Word) (h : s0.Keeps s) :
    s0.Keeps (ringDisable s fn kind i w) := by
  unfold ringDisable
  split
  · exact keeps_ite (sqWrite_keeps _ _ _ _ _ h) h
  · exact keeps_ite (cqWrite_keeps _ _ _ h) h
  · exact keeps_ite (dbWrite_keeps _ _ _ h) h
  · exact evtWriteCfg_keeps _ _ h

theorem execRingDisable_keeps (port tenant : Nat) (kind : RingKind) (index : Nat) (w : Word) (h : s0.Keeps s) :
    Leads s0 (execRingDisable port tenant kind index w s) :=
  leads_next (keeps_ite (ringDisable_keeps _ _ _ _ h) h)

theorem execNop_keeps (tag : Nat) (h : s0.Keeps s) : Leads s0 (execNop tag s) := by
  refine leads_next ?_
  split
  · exact finish_keeps _ _ _ h
  · exact h

theorem execFence_keeps (tag : Nat) (h : s0.Keeps s) : Leads s0 (execFence tag s) := by
  refine leads_next ?_
  split
  · refine keeps_ite (finish_keeps _ _ _ h) ?_
    split
    · exact settle_keeps (setRequest_keeps _ _ h)
    · exact h
  · exact h

theorem tagReads_keeps (tag : Nat) (gone : HostAsk → Bool) (h : s0.Keeps s) : s0.Keeps (tagReads s tag gone) :=
  keeps_foldl _ (fun _ _ ht => freeReads_keeps _ _ ht) _ h

theorem hostPiece_keeps (tag addr : Nat) (data : List Byte) (st : ReadStatus) (h : s0.Keeps s) :
    s0.Keeps (hostPiece s tag addr data st) := by
  unfold hostPiece
  split
  · exact tagReads_keeps _ _ h
  · exact tagReads_keeps _ _ (countIf_keeps _ _ _ (refusedPages_keeps _ _ _ _ (setRequest_keeps _ _ h)))

theorem execHostReadCompletion_keeps (tag addr : Nat) (data : List Byte) (st : ReadStatus) (h : s0.Keeps s) :
    Leads s0 (execHostReadCompletion tag addr data st s) :=
  leads_next (keeps_ite (hostPiece_keeps _ _ _ _ h) h)

theorem execCompletionTimeout_keeps (tag addr len : Nat) (h : s0.Keeps s) : Leads s0 (execCompletionTimeout tag addr len s) :=
  leads_next (keeps_ite (hostPiece_keeps _ _ _ _ h) h)

/-! ## Token -/

theorem blobRead_keeps (t dest : Nat) (parts : List (Nat × Nat)) (h : s0.Keeps s) : s0.Keeps (blobRead s t dest parts) :=
  keeps_foldl _ (fun _ _ ht => engRead_keeps _ _ _ ht) _ h

theorem tokenizeCore_keeps (t : Nat) (v : VocSlot) (p : TokParams) (cap : Nat) (inp : List Byte) (h : s0.Keeps s) :
    s0.Keeps (tokenizeCore s t v p cap inp).1 := by
  unfold tokenizeCore
  refine keeps_ite_fst h ?_
  dsimp only
  split <;> exact blobRead_keeps _ _ _ h

theorem countFallback_keeps (f n : Nat) (h : s0.Keeps s) : s0.Keeps (countFallback s f n) := bump_keeps _ _ _ _ h

theorem tokenizeRun_keeps (f : Nat) (r : Request) (h : s0.Keeps s) : s0.Keeps (tokenizeRun f s r).1 := by
  unfold tokenizeRun
  refine keeps_ite_fst h ?_
  dsimp only
  split
  · exact h
  · split
    · exact h
    · exact h
    · refine keeps_andThen _ _ (readAt_keeps _ _ _ _ h) (fun _ _ hu => ?_)
      refine keeps_andThen _ _ (tokenizeCore_keeps _ _ _ _ _ hu) (fun _ _ hv => ?_)
      split
      · exact keeps_frame hv
      · exact countFallback_keeps _ _ (writeOut_keeps _ _ _ _ (keeps_frame hv))

theorem execTokenize_keeps (tag unit : Nat) (h : s0.Keeps s) : Leads s0 (execTokenize tag unit s) :=
  leads_next (runOp_keeps _ _ _ (fun _ => tokenizeRun_keeps _ _ h) h)

theorem readStops_keeps (r : Request) (dev : Bool) (a : Nat) (h : s0.Keeps s) : s0.Keeps (readStops s r dev a).1 := by
  unfold readStops
  refine keeps_ite_fst h ?_
  refine keeps_andThen _ _ (readAt_keeps _ _ _ _ h) (fun _ _ hu => ?_)
  refine keeps_ite_fst hu ?_
  refine keeps_andThen _ _ (readAt_keeps _ _ _ _ hu) (fun _ _ hw => ?_)
  split <;> exact hw

theorem readRecord_keeps (r : Request) (a : Nat) (reset : Bool) (h : s0.Keeps s) : s0.Keeps (readRecord s r a reset).1 := by
  unfold readRecord
  refine keeps_ite_fst h ?_
  split
  · exact h
  · split
    · exact keeps_ite_fst h (keeps_andThen _ _ (devRead_keeps _ _ _ h) (fun _ _ hu => hu))
    · exact h

theorem detokenizeRun_keeps (f : Nat) (r : Request) (h : s0.Keeps s) : s0.Keeps (detokenizeRun f s r).1 := by
  unfold detokenizeRun
  refine keeps_ite_fst h ?_
  dsimp only
  split
  · exact h
  · split
    · exact h
    · exact h
    · refine keeps_andThen _ _ (readAt_keeps _ _ _ _ h) (fun _ _ hu => ?_)
      refine keeps_andThen _ _ (readStops_keeps _ _ _ hu) (fun _ _ hv => ?_)
      refine keeps_andThen _ _ (readRecord_keeps _ _ _ hv) (fun _ _ hw => ?_)
      refine keeps_ite_fst hw ?_
      refine keeps_ite_fst hw ?_
      split
      · exact blobRead_keeps _ _ _ hw
      · refine keeps_ite_fst (blobRead_keeps _ _ _ hw) ?_
        split
        · exact blobRead_keeps _ _ _ hw
        · exact keeps_unless (fun hx => keeps_frame (engWrite_keeps _ _ _ hx)) (writeOut_keeps _ _ _ _ (blobRead_keeps _ _ _
            hw))

theorem execDetokenize_keeps (tag unit : Nat) (h : s0.Keeps s) : Leads s0 (execDetokenize tag unit s) :=
  leads_next (runOp_keeps _ _ _ (fun _ => detokenizeRun_keeps _ _ h) h)

/-! ## Slots -/

theorem risingFrom_mapValues {α : Type} (f : Nat × α → Nat × α) (hf : ∀ p, (f p).1 = p.1) :
    ∀ (m : KMap α) (lo : Nat), risingFrom lo m = true → risingFrom lo (m.map f) = true
  | [], _, _ => rfl
  | p :: m, lo, h => by
    obtain ⟨a, v⟩ := p
    simp only [risingFrom, Bool.and_eq_true, List.map_cons, hf] at h ⊢
    exact ⟨h.1, risingFrom_mapValues f hf m (a + 1) h.2⟩

theorem mapRequests_keeps (f : Nat × Request → Nat × Request) (hf : ∀ p, (f p).1 = p.1) (h : s0.Keeps s) :
    s0.Keeps { s with requests := s.requests.map f } := by
  refine keeps_trans h ⟨fun hw => ?_, rfl, rfl⟩
  rw [wf_iff] at hw ⊢
  obtain ⟨hmem, hregs, hforce, hrequests⟩ := hw
  exact ⟨hmem, hregs, hforce, risingFrom_mapValues f hf _ _ hrequests⟩

theorem pinNames_keeps (hit : SlotName → Bool) (h : s0.Keeps s) : s0.Keeps (pinNames s hit) :=
  mapRequests_keeps _ (fun _ => rfl) h

theorem ldEnd_keeps (k reason loc : Nat) (h : s0.Keeps s) : s0.Keeps (ldEnd s k reason loc) :=
  regSet_keeps _ _ (regSet_keeps _ _ h)

theorem ldDone_keeps (k : Nat) (busy : Bool) (h : s0.Keeps s) : s0.Keeps (ldDone s k busy) :=
  keeps_ite (regSet_keeps _ _ (regSet_keeps _ _ h)) (ldEnd_keeps _ _ _ h)

theorem unldEnd_keeps (k : Nat) (busy : Bool) (h : s0.Keeps s) : s0.Keeps (unldEnd s k busy) :=
  keeps_ite h (ldEnd_keeps _ _ _ h)

theorem ldOpen_keeps (k : Nat) (h : s0.Keeps s) : s0.Keeps (ldOpen s k) := regSet_keeps _ _ (draw_keeps h)

theorem tokLoad_keeps (h : s0.Keeps s) : s0.Keeps (tokLoad s) :=
  keeps_ite h (keeps_unless (fun ht => keeps_ite (ldEnd_keeps _ _ _ h) (keeps_ite (ldEnd_keeps _ _ _ h) (keeps_ite
      (ldEnd_keeps _ _ _ h) (keeps_ite ht (askOwner_keeps _ _ (regSet_keeps _ _ (keeps_frame h))))))) (ldEnd_keeps _ _ _ h))

theorem ctrlStore_keeps (k mask : Nat) (w : Word) (h : s0.Keeps s) : s0.Keeps (ctrlStore s k mask w) := regSet_keeps _ _ h

theorem execTokLdLoad_keeps (w : Word) (h : s0.Keeps s) : Leads s0 (execTokLdLoad w s) :=
  leads_next (keeps_ite (tokLoad_keeps (ctrlStore_keeps _ _ _ h)) h)

theorem tokPlace_keeps (j : LoadJob) (b : List Byte) (h : s0.Keeps s) : s0.Keeps (tokPlace s j b) :=
  keeps_ite (regSet_keeps _ _ (regSet_keeps _ _ (regSet_keeps _ _ (keeps_frame h)))) (regSet_keeps _ _ (keeps_frame h))

theorem tokDone_keeps (blob : List Byte) (st : ReadStatus) (h : s0.Keeps s) : s0.Keeps (tokDone s blob st) := by
  unfold tokDone
  split
  · exact h
  · extract_lets +onlyGivenNames s1
    have h1 : s0.Keeps s1 := backOwner_keeps _ _ (keeps_frame h)
    split
    · exact ldEnd_keeps _ _ _ (hostPoison_keeps _ _ h1)
    · exact ldOpen_keeps _ h1
    · refine keeps_ite (ldEnd_keeps _ _ _ h1) ?_
      extract_lets +onlyGivenNames _ s2
      have h2 : s0.Keeps s2 := engWrite_keeps _ _ _ h1
      refine keeps_ite (ldEnd_keeps _ _ _ h2) ?_
      split
      · exact ldEnd_keeps _ _ _ h2
      · exact ldDone_keeps _ _ (tokPlace_keeps _ _ h2)

theorem execTokLoadDone_keeps (blob : List Byte) (st : ReadStatus) (h : s0.Keeps s) : Leads s0 (execTokLoadDone blob st s) :=
  leads_next (keeps_ite (tokDone_keeps _ _ h) h)

theorem tokEmptyOne_keeps (x : Nat × Nat) (h : s0.Keeps s) : s0.Keeps (tokEmptyOne s x) :=
  keeps_ite h (unldEnd_keeps _ _ (keeps_ite (regSet_keeps _ _ (regSet_keeps _ _ (regSet_keeps _ _ (keeps_frame (keeps_frame
      h))))) (regSet_keeps _ _ (keeps_frame (keeps_frame h)))))

theorem tokEmpty_keeps (h : s0.Keeps s) : s0.Keeps (tokEmpty s) := keeps_foldl _ (fun _ _ ht => tokEmptyOne_keeps _ ht) _ h

theorem tokUnload_keeps (h : s0.Keeps s) : s0.Keeps (tokUnload s) := by
  unfold tokUnload
  refine keeps_ite h ?_
  refine keeps_ite (ldEnd_keeps _ _ _ h) ?_
  refine keeps_ite (ldEnd_keeps _ _ _ h) ?_
  extract_lets +onlyGivenNames s1
  have h1 : s0.Keeps s1 := pinNames_keeps _ h
  extract_lets +onlyGivenNames s2
  have h2 : s0.Keeps s2 := by
    dsimp only [s2]
    refine keeps_ite ?_ ?_
    · split
      · exact keeps_frame h1
      · exact h1
    · split
      · exact keeps_frame h1
      · exact h1
  exact tokEmpty_keeps (regSet_keeps _ _ (keeps_frame h2))

theorem execTokLdUnload_keeps (w : Word) (h : s0.Keeps s) : Leads s0 (execTokLdUnload w s) :=
  leads_next (keeps_ite (tokUnload_keeps (ctrlStore_keeps _ _ _ h)) h)

theorem srchLoad_keeps (h : s0.Keeps s) : s0.Keeps (srchLoad s) :=
  keeps_ite h (keeps_ite (ldEnd_keeps _ _ _ h) (keeps_ite (ldEnd_keeps _ _ _ h) (keeps_ite (ldEnd_keeps _ _ _ h)
      (askOwner_keeps _ _ (regSet_keeps _ _ (keeps_frame h))))))

theorem execSrchLdLoad_keeps (w : Word) (h : s0.Keeps s) : Leads s0 (execSrchLdLoad w s) :=
  leads_next (keeps_ite (srchLoad_keeps (ctrlStore_keeps _ _ _ h)) h)

theorem srchDone_keeps (blob : List Byte) (st : ReadStatus) (h : s0.Keeps s) : s0.Keeps (srchDone s blob st) := by
  unfold srchDone
  split
  · exact h
  · refine keeps_ite h ?_
    extract_lets +onlyGivenNames s1
    have h1 : s0.Keeps s1 := backOwner_keeps _ _ (keeps_frame h)
    split
    · exact ldEnd_keeps _ _ _ (hostPoison_keeps _ _ h1)
    · exact ldOpen_keeps _ h1
    · extract_lets +onlyGivenNames _ s2
      have h2 : s0.Keeps s2 := keeps_ite (engRead_keeps _ _ _ h1) h1
      split
      · exact ldEnd_keeps _ _ _ h2
      · exact ldDone_keeps _ _ (regSet_keeps _ _ (keeps_frame h2))

theorem execSrchLoadDone_keeps (blob : List Byte) (st : ReadStatus) (h : s0.Keeps s) : Leads s0 (execSrchLoadDone blob st s) :=
  leads_next (keeps_ite (srchDone_keeps _ _ h) h)

theorem srchEmptyOne_keeps (slot : Nat) (h : s0.Keeps s) : s0.Keeps (srchEmptyOne s slot) :=
  keeps_ite h (unldEnd_keeps _ _ (regSet_keeps _ _ (keeps_frame h)))

theorem srchEmpty_keeps (h : s0.Keeps s) : s0.Keeps (srchEmpty s) := keeps_foldl _ (fun _ _ ht => srchEmptyOne_keeps _ ht) _ h

theorem srchUnload_keeps (h : s0.Keeps s) : s0.Keeps (srchUnload s) := by
  unfold srchUnload
  refine keeps_ite h ?_
  extract_lets +onlyGivenNames s1
  have h1 : s0.Keeps s1 := pinNames_keeps _ h
  extract_lets +onlyGivenNames s2
  have h2 : s0.Keeps s2 := by
    dsimp only [s2]
    split
    · exact regSetFld_keeps _ _ _ _ (keeps_frame h1)
    · exact h1
  exact srchEmpty_keeps (regSet_keeps _ _ (keeps_frame h2))

theorem execSrchLdUnload_keeps (w : Word) (h : s0.Keeps s) : Leads s0 (execSrchLdUnload w s) :=
  leads_next (keeps_ite (srchUnload_keeps (ctrlStore_keeps _ _ _ h)) h)

theorem clpLoad_keeps (blob : List Byte) (st : ReadStatus) (h : s0.Keeps s) : s0.Keeps (clpLoad s blob st) := by
  unfold clpLoad
  refine keeps_ite (ldEnd_keeps _ _ _ h) ?_
  refine keeps_ite (ldEnd_keeps _ _ _ h) ?_
  refine keeps_ite (ldEnd_keeps _ _ _ h) ?_
  refine keeps_ite (ldEnd_keeps _ _ _ h) ?_
  extract_lets +onlyGivenNames s1
  have h1 : s0.Keeps s1 := backOwner_keeps _ _ (askOwner_keeps _ _ h)
  split
  · exact ldEnd_keeps _ _ _ (hostPoison_keeps _ _ h1)
  · exact ldOpen_keeps _ h1
  · refine keeps_ite (ldEnd_keeps _ _ _ h1) ?_
    extract_lets +onlyGivenNames _ s2
    have h2 : s0.Keeps s2 := engWrite_keeps _ _ _ h1
    refine keeps_ite (ldEnd_keeps _ _ _ h2) ?_
    split
    · exact ldEnd_keeps _ _ _ h2
    · exact ldDone_keeps _ _ (regSet_keeps _ _ (keeps_frame h2))

theorem execClpLdLoad_keeps (w : Word) (blob : List Byte) (st : ReadStatus) (h : s0.Keeps s) :
    Leads s0 (execClpLdLoad w blob st s) :=
  leads_next (keeps_ite (clpLoad_keeps _ _ (ctrlStore_keeps _ _ _ h)) h)

theorem clpEmptyOne_keeps (slot : Nat) (h : s0.Keeps s) : s0.Keeps (clpEmptyOne s slot) :=
  keeps_ite h (unldEnd_keeps _ _ (regSet_keeps _ _ (keeps_frame h)))

theorem clpEmpty_keeps (h : s0.Keeps s) : s0.Keeps (clpEmpty s) := keeps_foldl _ (fun _ _ ht => clpEmptyOne_keeps _ ht) _ h

theorem clpUnload_keeps (h : s0.Keeps s) : s0.Keeps (clpUnload s) := by
  unfold clpUnload
  extract_lets +onlyGivenNames _ s1
  have h1 : s0.Keeps s1 := pinNames_keeps _ h
  extract_lets +onlyGivenNames s2
  have h2 : s0.Keeps s2 := by
    dsimp only [s2]
    split
    · exact keeps_frame h1
    · exact h1
  exact clpEmpty_keeps (regSet_keeps _ _ (keeps_frame h2))

theorem execClpLdUnload_keeps (w : Word) (h : s0.Keeps s) : Leads s0 (execClpLdUnload w s) :=
  leads_next (keeps_ite (clpUnload_keeps (ctrlStore_keeps _ _ _ h)) h)

theorem emptyTables_keeps (h : s0.Keeps s) : s0.Keeps (emptyTables s) := keeps_frame (regsFilter_keeps _ h)

theorem execClockRelock_keeps (gapUs : Nat) (h : s0.Keeps s) : Leads s0 (execClockRelock gapUs s) :=
  leads_next (keeps_ite (relock_keeps _ (emptyTables_keeps h)) h)

/-! ## Pack -/

theorem groupWrite_keeps (t g : Nat) (high : Bool) (w : Word) (h : s0.Keeps s) : s0.Keeps (groupWrite s t g high w) :=
  regSet_keeps _ _ h

theorem execTenGroupWrite_keeps (tenant group : Nat) (high : Bool) (w : Word) (h : s0.Keeps s) :
    Leads s0 (execTenGroupWrite tenant group high w s) :=
  leads_next (keeps_ite (groupWrite_keeps _ _ _ _ h) h)

theorem packChoose_keeps (tag t : Nat) (b : List Byte) (extra maxP policy minTok : Nat) (acc : PackAcc) (cs : List Entry)
    (h : s0.Keeps s) :
    s0.Keeps (packChoose tag t b extra maxP policy minTok s acc cs).1 := by
  induction cs generalizing s acc with
  | nil => exact h
  | cons c cs ih =>
    unfold packChoose
    refine keeps_ite_fst h (keeps_ite_fst h (keeps_andThen _ _ (recordHead_keeps _ _ _ _ h) (fun t hd ht => ?_)))
    refine keeps_ite_fst (keeps_andThen _ _ ht (fun _ _ hu => ih _ hu)) (keeps_ite_fst ?_ (keeps_ite_fst (ih _ ht) ht))
    exact keeps_ite_fst (keeps_andThen _ _ ht (fun _ _ hu => hu)) ht

theorem packWork_keeps (tag : Nat) (r : Request) (tp : TplSlot) (b : List Byte) (cands : List Entry) (query : List Nat)
    (h : s0.Keeps s) :
    s0.Keeps (packWork s tag r tp b cands query).1 :=
  keeps_andThen _ _ (handleRead_keeps _ _ _ h) (fun _ _ ht => keeps_ite_fst ht (keeps_andThen _ _ (packChoose_keeps _ _ _ _ _
      _ _ _ _ ht) (fun _ _ hu => hu)))

theorem packCount_keeps (u : Nat) (x : Reading α) (hx : s0.Keeps x.1) : s0.Keeps (packCount u x).1 := by
  unfold packCount
  split
  · exact hx
  · exact bump_keeps _ _ _ _ hx

theorem packStage_keeps (tag : Nat) (r : Request) (cands : List Entry) (query : List Nat) (vtag : Option Nat) (facet : Nat)
    (h : s0.Keeps s) :
    s0.Keeps (packStage s tag r cands query vtag facet).1 := by
  unfold packStage
  refine keeps_ite_fst h ?_
  split
  · exact h
  · exact packCount_keeps _ _ (packWork_keeps _ _ _ _ _ _ h)

theorem packRun_keeps (tag : Nat) (r : Request) (h : s0.Keeps s) : s0.Keeps (packRun tag s r).1 := by
  unfold packRun
  refine keeps_ite_fst h ?_
  refine keeps_ite_fst h ?_
  split
  · exact h
  · split
    · exact h
    · refine packCount_keeps _ _ ?_
      refine keeps_andThen _ _ (readAt_keeps _ _ _ _ h) (fun _ _ hw => ?_)
      refine keeps_andThen _ _ (readAt_keeps _ _ _ _ hw) (fun _ _ hx => ?_)
      split
      · exact hx
      · exact keeps_andThen _ _ (packWork_keeps _ _ _ _ _ _ hx) (fun _ _ hx => keeps_foldl _ (fun _ _ hx => writeOut_keeps _
          _ _ _ hx) _ hx)

theorem execPackPrompt_keeps (tag : Nat) (h : s0.Keeps s) : Leads s0 (execPackPrompt tag s) :=
  leads_next (runOp_keeps _ _ _ (fun _ => packRun_keeps _ _ h) h)

/-! ## Pools -/

theorem setPool_keeps (tag : Nat) (p : Pool) (h : s0.Keeps s) : s0.Keeps (setPool s tag p) := keeps_frame h

theorem setSeq_keeps (tag n : Nat) (q : Seq) (h : s0.Keeps s) : s0.Keeps (setSeq s tag n q) := by
  unfold setSeq
  split
  · exact setPool_keeps _ _ h
  · exact h

theorem dropSeq_keeps (tag n : Nat) (h : s0.Keeps s) : s0.Keeps (dropSeq s tag n) := by
  unfold dropSeq
  split
  · exact setPool_keeps _ _ h
  · exact h

theorem writeChunk_keeps (r : Request) (p : Pool) (d : List Byte) (h : s0.Keeps s) : s0.Keeps (writeChunk s r p d) :=
  writeOut_keeps _ _ _ _ (writeOut_keeps _ _ _ _ h)

theorem postChunk_keeps (tag n : Nat) (h : s0.Keeps s) : s0.Keeps (postChunk s tag n) := by
  unfold postChunk
  split
  · split
    · exact h
    · exact keeps_ite (setSeq_keeps _ _ _ h) (keeps_ite (setSeq_keeps _ _ _ (keeps_ite h (bump_keeps _ _ _ _ h))) (keeps_ite
        (setSeq_keeps _ _ _ (keeps_ite h (bump_keeps _ _ _ _ h))) (keeps_ite (dropSeq_keeps _ _ (setPool_keeps _ _
        (postEntry_keeps _ _ _ _ (writeChunk_keeps _ _ _ h)))) (setSeq_keeps _ _ _ (setPool_keeps _ _ (postEntry_keeps _ _ _
        _ (writeChunk_keeps _ _ _ h)))))))
  · exact h

theorem spoilCache_keeps (tag : Nat) (h : s0.Keeps s) : s0.Keeps (spoilCache s tag) := by
  unfold spoilCache
  split
  · exact spoilBytes_keeps _ _ h
  · exact h

theorem putBlock_keeps (tag n : Nat) (b : List Byte) (h : s0.Keeps s) : s0.Keeps (putBlock s tag n b) := by
  unfold putBlock
  split
  · exact h
  · exact keeps_ite h (keeps_ite (setSeq_keeps _ _ _ h) (setSeq_keeps _ _ _ (spoilCache_keeps _ h)))

theorem freeFlows_keeps (tag : Nat) (h : s0.Keeps s) : s0.Keeps (freeFlows s tag) := keeps_frame h

theorem prefillEnds_keeps (tag : Nat) (j : PrefillJob) (h : s0.Keeps s) : s0.Keeps (prefillEnds s tag j) :=
  finishStage_keeps _ _ _ (freeFlows_keeps _ (keeps_frame h))

theorem admitSeq_keeps (tag n : Nat) (h : s0.Keeps s) : s0.Keeps (admitSeq s tag n) := by
  unfold admitSeq
  split
  · exact h
  · extract_lets +onlyGivenNames s1
    have h1 : s0.Keeps s1 := setSeq_keeps _ _ _ h
    split
    · exact admitFlow_keeps _ _ h1
    · split
      · exact keeps_if (prefillEnds_keeps _ _) (keeps_foldl _ (fun _ _ ht => putBlock_keeps _ _ _ ht) _ (keeps_frame h1))
      · exact h1
    · exact h1

theorem prefillFails_keeps (tag : Nat) (st : Status) (h : s0.Keeps s) : s0.Keeps (prefillFails s tag st) :=
  keeps_ite h (finishStage_keeps _ _ _ (keeps_frame h))

theorem refuseSeq_keeps (tag n : Nat) (st : Status) (h : s0.Keeps s) : s0.Keeps (refuseSeq s tag n st) := by
  unfold refuseSeq
  split
  · exact h
  · extract_lets +onlyGivenNames s1
    have h1 : s0.Keeps s1 := dropSeq_keeps _ _ h
    split
    · exact refuseFlow_keeps _ _ h1
    · exact prefillFails_keeps _ _ h1
    · exact h1

theorem admitN_keeps (n tag : Nat) (h : s0.Keeps s) : s0.Keeps (admitN n s tag) := by
  induction n generalizing s with
  | zero => exact h
  | succ n ih =>
    unfold admitN
    split
    · exact h
    · split
      · exact keeps_ite (ih (admitSeq_keeps _ _ h)) h
      · exact h

theorem poolClose_keeps (tag : Nat) (h : s0.Keeps s) : s0.Keeps (poolClose s tag) := by
  unfold poolClose
  split
  · exact h
  · refine keeps_ite ?_ h
    extract_lets +onlyGivenNames s1
    have h1 : s0.Keeps s1 := finish_keeps _ _ _ h
    split
    · exact finish_keeps _ _ _ h1
    · exact h1

theorem poolSettle_keeps (tag : Nat) (h : s0.Keeps s) : s0.Keeps (poolSettle s tag) := by
  unfold poolSettle
  split
  · exact h
  · exact poolClose_keeps _ (admitN_keeps _ _ h)

theorem openSeq_keeps (srcPkg t id seqId imageId inTokens : Nat) (params : List Byte) (flow local_ : Option Nat)
    (shape : Option (List Byte)) (h : s0.Keeps s) :
    s0.Keeps (openSeq s srcPkg t id seqId imageId inTokens params flow local_ shape).1 := by
  unfold openSeq
  split
  · exact h
  · exact keeps_ite_fst h (keeps_if (admitSeq_keeps _ _) (setSeq_keeps _ _ _ h))

theorem admitExpiry_keeps (tag n : Nat) (h : s0.Keeps s) : s0.Keeps (admitExpiry s tag n) := by
  unfold admitExpiry
  split
  · exact keeps_ite (poolSettle_keeps _ (refuseSeq_keeps _ _ _ h)) h
  · exact h

theorem execAdmitMsX_keeps (tag seq : Nat) (h : s0.Keeps s) : Leads s0 (execAdmitMsX tag seq s) :=
  leads_next (keeps_ite (admitExpiry_keeps _ _ h) h)

theorem takeBlock_keeps (tag n : Nat) (b : List Byte) (h : s0.Keeps s) : s0.Keeps (takeBlock s tag n b) := by
  unfold takeBlock
  split
  · exact h
  · exact keeps_if (fun ht => poolSettle_keeps _ (postChunk_keeps _ _ ht)) (putBlock_keeps _ _ _ h)

theorem discardSeq_keeps (tag n : Nat) (h : s0.Keeps s) : s0.Keeps (discardSeq s tag n) := by
  unfold discardSeq
  split
  · exact h
  · exact keeps_ite h (poolSettle_keeps _ (keeps_if (bump_keeps _ _ _ _) (dropSeq_keeps _ _ h)))

theorem afterStep_keeps (tag n : Nat) (p : Pool) (q : Seq) (h : s0.Keeps s) : s0.Keeps (afterStep s tag n p q) :=
  keeps_if (postChunk_keeps _ _) (setSeq_keeps _ _ _ h)

theorem sampleReads_keeps (p : Pool) (q : Seq) (h : s0.Keeps s) : s0.Keeps (sampleReads s p q) := by
  unfold sampleReads
  extract_lets +onlyGivenNames s1
  have h1 : s0.Keeps s1 := by
    dsimp only [s1]
    split
    · exact engRead_keeps _ _ _ h
    · exact h
  split
  · exact engRead_keeps _ _ _ h1
  · exact h1

theorem sampleSeq_keeps (tag n : Nat) (p : Pool) (q : Seq) (h : s0.Keeps s) : s0.Keeps (sampleSeq s tag n p q) := by
  unfold sampleSeq
  extract_lets +onlyGivenNames s1
  have h1 : s0.Keeps s1 := sampleReads_keeps _ _ h
  split
  · exact afterStep_keeps _ _ _ _ h1
  · exact afterStep_keeps _ _ _ _ (keeps_ite h1 (bump_keeps _ _ _ _ h1))

theorem stepSeq_keeps (tag : Nat) (fault : Option Status) (bad : List (Nat × Status)) (n : Nat) (h : s0.Keeps s) :
    s0.Keeps (stepSeq s tag fault bad n) := by
  unfold stepSeq
  split
  · exact h
  · refine keeps_ite h ?_
    split
    · exact afterStep_keeps _ _ _ _ h
    · exact afterStep_keeps _ _ _ _ h
    · exact keeps_ite (bump_keeps _ _ _ _ (setSeq_keeps _ _ _ h)) (sampleSeq_keeps _ _ _ _ h)

theorem decodeStep_keeps (tag : Nat) (bad : List (Nat × Status)) (h : s0.Keeps s) : s0.Keeps (decodeStep s tag bad) := by
  unfold decodeStep
  split
  · exact h
  · exact keeps_ite h (poolSettle_keeps _ (keeps_foldl _ (fun _ _ ht => stepSeq_keeps _ _ _ _ ht) _ (keeps_if
      (spoilCache_keeps _) (keeps_if (setMtx_keeps _ _) (segsRead_keeps _ _ _ h)))))

theorem execDecodeStep_keeps (tag : Nat) (bad : List (Nat × Status)) (h : s0.Keeps s) : Leads s0 (execDecodeStep tag bad s) :=
  leads_next (keeps_ite (decodeStep_keeps _ _ h) h)

theorem maskReady_keeps (tag n grains : Nat) (h : s0.Keeps s) : s0.Keeps (maskReady s tag n grains) := by
  unfold maskReady
  split
  · exact h
  · exact keeps_ite h (keeps_ite (poolSettle_keeps _ (sampleSeq_keeps _ _ _ _ (peak_keeps _ _ _ _ h))) (setSeq_keeps _ _ _
      (peak_keeps _ _ _ _ h)))

theorem execMaskReady_keeps (tag seq grains : Nat) (h : s0.Keeps s) : Leads s0 (execMaskReady tag seq grains s) :=
  leads_next (keeps_ite (maskReady_keeps _ _ _ h) h)

theorem chunkTimer_keeps (tag n : Nat) (h : s0.Keeps s) : s0.Keeps (chunkTimer s tag n) := by
  unfold chunkTimer
  split
  · exact h
  · exact keeps_ite h (poolSettle_keeps _ (postChunk_keeps _ _ h))

theorem execChunkUs_keeps (tag seq : Nat) (h : s0.Keeps s) : Leads s0 (execChunkUs tag seq s) :=
  leads_next (keeps_ite (chunkTimer_keeps _ _ h) h)

theorem retryChunks_keeps (tag : Nat) (h : s0.Keeps s) : s0.Keeps (retryChunks s tag) := by
  unfold retryChunks
  split
  · exact h
  · exact poolSettle_keeps _ (keeps_foldl _ (fun _ _ ht => postChunk_keeps _ _ ht) _ h)

theorem consumedRead_keeps (tag : Nat) (r : Request) (v : Nat) (st : ReadStatus) (h : s0.Keeps s) :
    s0.Keeps (consumedRead s tag r v st) := by
  unfold consumedRead
  split
  · exact h
  · refine keeps_ite h ?_
    extract_lets +onlyGivenNames s1
    have h1 : s0.Keeps s1 := readNow_keeps _ _ _ _ h
    split
    · exact hostPoison_keeps _ _ h1
    · exact h1
    · exact retryChunks_keeps _ (keeps_ite (setPool_keeps _ _ h1) h1)

theorem execTextConsumedReread_keeps (tag consumed : Nat) (st : ReadStatus) (h : s0.Keeps s) :
    Leads s0 (execTextConsumedReread tag consumed st s) := by
  refine leads_next ?_
  split
  · exact consumedRead_keeps _ _ _ _ h
  · exact h

theorem attach_keeps (tag : Nat) (r : Request) (h : s0.Keeps s) : s0.Keeps (attach s tag r) := by
  unfold attach
  refine keeps_ite h ?_
  split
  · exact finish_keeps _ _ _ h
  · exact poolSettle_keeps _ (settle_keeps (setRequest_keeps _ _ (setPool_keeps _ _ h)))

theorem execDecodeAttach_keeps (tag : Nat) (h : s0.Keeps s) : Leads s0 (execDecodeAttach tag s) := by
  refine leads_next ?_
  split
  · exact keeps_ite h (attach_keeps _ _ h)
  · exact h

theorem claimPool_keeps (tag : Nat) (r : Request) (h : s0.Keeps s) : s0.Keeps (claimPool s tag r) := by
  unfold claimPool
  refine keeps_ite h ?_
  split
  · exact h
  · exact keeps_ite h (keeps_foldl _ (fun _ _ hu => refuseSeq_keeps _ _ _ hu) _ (setPool_keeps _ _ h))

theorem detach_keeps (tag : Nat) (r : Request) (h : s0.Keeps s) : s0.Keeps (detach s tag r) := by
  unfold detach
  split
  · exact finish_keeps _ _ _ h
  · exact keeps_ite (keeps_ite h (finish_keeps _ _ _ h)) (poolSettle_keeps _ (keeps_if (keeps_foldl _ (fun _ _ hu => keeps_if
      (postChunk_keeps _ _) (setSeq_keeps _ _ _ hu)) _) (keeps_foldl _ (fun _ _ ht => refuseSeq_keeps _ _ _ ht) _
      (setPool_keeps _ _ h))))

theorem drainPools_keeps (h : s0.Keeps s) : s0.Keeps (drainPools s) :=
  keeps_foldl _ (fun _ _ ht => poolSettle_keeps _ (keeps_foldl _ (fun _ _ hu => refuseSeq_keeps _ _ _ hu) _ (setPool_keeps _
      _ ht))) _ h

theorem abortPools_keeps (h : s0.Keeps s) : s0.Keeps (abortPools s) :=
  keeps_foldl _ (fun _ _ ht => keeps_foldl _ (fun _ _ hu => keeps_if (postChunk_keeps _ _) (setSeq_keeps _ _ _ hu)) _ ht) _ h

theorem execDetach_keeps (tag : Nat) (h : s0.Keeps s) : Leads s0 (execDetach tag s) := by
  refine leads_next ?_
  split
  · exact keeps_ite h (keeps_ite (finish_keeps _ _ _ h) (detach_keeps _ _ h))
  · exact h

/-! ## Prefill -/

theorem prefillTarget_keeps (r : Request) (im : Image) (n : Nat) (h : s0.Keeps s) : s0.Keeps (prefillTarget s r im n).1 := by
  unfold prefillTarget
  refine keeps_ite_fst ?_ ?_
  · split
    · exact h
    · exact keeps_ite_fst h (keeps_andThen _ _ (devRead_keeps _ _ _ h) (fun _ _ hu => keeps_ite_fst hu hu))
  · refine keeps_ite_fst h ?_
    split
    · exact h
    · exact keeps_ite_fst h h

theorem setPrefill_keeps (tag : Nat) (j : PrefillJob) (h : s0.Keeps s) : s0.Keeps (setPrefill s tag j) := keeps_frame h

theorem prefillBegin_keeps (tag : Nat) (r : Request) (im : Image) (toks : List Nat) (params : List Byte) (h : s0.Keeps s) :
    s0.Keeps (prefillBegin s tag r im toks params) := by
  unfold prefillBegin
  refine keeps_ite (setPrefill_keeps _ _ h) ?_
  refine keeps_ite ?_ ?_
  · extract_lets +onlyGivenNames s1
    have h1 : s0.Keeps s1 := setPrefill_keeps _ _ h
    split
    · rename_i hp2
      replace hp2 := keeps_fst hp2 (openSeq_keeps _ _ _ _ _ _ _ _ _ _ h1)
      exact prefillFails_keeps _ _ hp2
    · rename_i hp2
      replace hp2 := keeps_fst hp2 (openSeq_keeps _ _ _ _ _ _ _ _ _ _ h1)
      split
      · exact setPrefill_keeps _ _ hp2
      · exact hp2
  · split
    · exact prefillFails_keeps _ _ (setPrefill_keeps _ _ h)
    · exact setPrefill_keeps _ _ (openFlow_keeps _ _ _ _ h)

theorem prefillStart_keeps (tag : Nat) (r : Request) (im : Image) (toks : List Nat) (h : s0.Keeps s) :
    s0.Keeps (prefillStart s tag r im toks) := by
  unfold prefillStart
  refine keeps_ite h ?_
  refine keeps_ite (finishStage_keeps _ _ _ h) ?_
  refine keeps_ite (finishStage_keeps _ _ _ h) ?_
  refine keeps_ite (finishStage_keeps _ _ _ h) ?_
  extract_lets +onlyGivenNames s1
  have h1 : s0.Keeps s1.1 := prefillTarget_keeps _ _ _ h
  split
  · exact h
  · exact finishStage_keeps _ _ _ h1
  · exact prefillBegin_keeps _ _ _ _ _ h1

theorem prefillStage_keeps (tag : Nat) (r : Request) (g : Nat) (toks : List Nat) (h : s0.Keeps s) :
    s0.Keeps (prefillStage s tag r g toks) := by
  unfold prefillStage
  refine keeps_ite (finishStage_keeps _ _ _ h) ?_
  split
  · exact finishStage_keeps _ _ _ h
  · exact prefillStart_keeps _ _ _ _ h

theorem prefillRun_keeps (tag : Nat) (r : Request) (h : s0.Keeps s) : s0.Keeps (prefillRun s tag r) := by
  unfold prefillRun
  refine keeps_ite h ?_
  refine keeps_ite (finish_keeps _ _ _ h) ?_
  split
  · exact finish_keeps _ _ _ h
  · refine keeps_ite (finish_keeps _ _ _ h) ?_
    extract_lets +onlyGivenNames s1
    have h1 : s0.Keeps s1.1 := readAt_keeps _ _ _ _ h
    split
    · exact keepReads_keeps _ h
    · exact finish_keeps _ _ _ h1
    · exact prefillStart_keeps _ _ _ _ h1

theorem execPrefill_keeps (tag : Nat) (h : s0.Keeps s) : Leads s0 (execPrefill tag s) := by
  refine leads_next ?_
  split
  · exact prefillRun_keeps _ _ h
  · exact h

theorem prefillBreaks_keeps (tag : Nat) (st : Status) (h : s0.Keeps s) : s0.Keeps (prefillBreaks s tag st) := by
  unfold prefillBreaks
  extract_lets +onlyGivenNames s1
  have h1 : s0.Keeps s1 := keeps_foldl _ (fun _ _ ht => abandonFlow_keeps _ _ ht) _ h
  extract_lets +onlyGivenNames s2
  have h2 : s0.Keeps s2 := by
    dsimp only [s2]
    split
    · exact discardSeq_keeps _ _ h1
    · exact h1
  exact prefillFails_keeps _ _ h2

theorem shipBlocks_keeps (tag : Nat) (h : s0.Keeps s) : s0.Keeps (shipBlocks s tag) := by
  unfold shipBlocks
  split
  · exact h
  · refine keeps_ite h ?_
    extract_lets +onlyGivenNames s1
    have h1 : s0.Keeps s1 := setPrefill_keeps _ _ h
    split
    · exact keeps_if (sendFin_keeps _) (keeps_foldl _ (fun _ _ hu => sendMessage_keeps _ _ hu) _ h1)
    · exact keeps_if (prefillEnds_keeps _ _) (keeps_foldl _ (fun _ _ hu => takeBlock_keeps _ _ _ hu) _ h1)
    · exact h1

theorem writeBlocks_keeps (t base off : Nat) (bs : List (List Byte)) (h : s0.Keeps s) :
    s0.Keeps (writeBlocks s t base off bs).1 := by
  induction bs generalizing s off with
  | nil => exact h
  | cons b bs ih => exact ih _ (engWrite_keeps _ _ _ h)

theorem layerDone_keeps (tag : Nat) (j : PrefillJob) (h : s0.Keeps s) : s0.Keeps (layerDone s tag j) := by
  unfold layerDone
  refine keeps_ite h ?_
  extract_lets +onlyGivenNames _ s1
  have h1 : s0.Keeps s1 := segsRead_keeps _ _ _ h
  split
  · exact prefillBreaks_keeps _ _ h1
  · exact prefillBreaks_keeps _ _ h1
  · extract_lets +onlyGivenNames _ _ s2
    have h2 : s0.Keeps s2 := setMtx_keeps _ _ h1
    dsimp only
    split
    · exact keeps_ite (prefillEnds_keeps _ _ (writeBlocks_keeps _ _ _ _ h2)) (setPrefill_keeps _ _ (writeBlocks_keeps _ _ _ _
        h2))
    · exact shipBlocks_keeps _ (setPrefill_keeps _ _ h2)

theorem execPrefillLayerDone_keeps (tag : Nat) (h : s0.Keeps s) : Leads s0 (execPrefillLayerDone tag s) := by
  refine leads_next ?_
  refine keeps_ite h ?_
  split
  · exact layerDone_keeps _ _ h
  · exact h

theorem bindFlow_keeps (k tag : Nat) (h : s0.Keeps s) : s0.Keeps (bindFlow s k tag) := by
  unfold bindFlow
  split
  · exact keeps_ite (setPrefill_keeps _ _ h) h
  · exact h

theorem prefillAcked_keeps (k tag : Nat) (h : s0.Keeps s) : s0.Keeps (prefillAcked s k tag) := by
  unfold prefillAcked
  extract_lets +onlyGivenNames s1
  have h1 : s0.Keeps s1 := bindFlow_keeps _ _ h
  split
  · refine keeps_ite h1 ?_
    extract_lets +onlyGivenNames _ s3
    have h3 : s0.Keeps s3 := shipBlocks_keeps _ (keeps_ite h1 (setPrefill_keeps _ _ h1))
    split
    · exact keeps_ite (prefillEnds_keeps _ _ h3) h3
    · exact h3
  · exact h1

theorem prefillClosed_keeps (tag st : Nat) (h : s0.Keeps s) : s0.Keeps (prefillClosed s tag st) := prefillFails_keeps _ _ h

/-! ## SpiNor -/

theorem norRead_keeps (area : Nat × Nat) (h : s0.Keeps s) : s0.Keeps (norRead s area) := emit_keeps _ h

theorem norWrite_keeps (area : Nat × Nat) (h : s0.Keeps s) : s0.Keeps (norWrite s area) := emit_keeps _ h

theorem norKeep_keeps (n : Nor) (h : s0.Keeps s) : s0.Keeps (norKeep s n) := norWrite_keeps _ (keeps_frame h)

theorem norImage_keeps (copy : Bool) (h : s0.Keeps s) : s0.Keeps (norImage s copy) := norRead_keeps _ (norWrite_keeps _ h)

theorem norBootReads_keeps (again : Bool) (h : s0.Keeps s) : s0.Keeps (norBootReads s again) :=
  keeps_if (norRead_keeps _) (norRead_keeps _ (norRead_keeps _ (norRead_keeps _ (emit_keeps _ h))))

end Sys2Proof.Machine
end

section
/-! What the operations of flash, weights, search and arrays keep (O60). -/
namespace Sys2Proof.Machine

variable {s0 s : State}

/-! ## Flash -/

theorem extentRead_keeps (id tag : Nat) (eng : FlashEngine) (e : List Byte) (h : s0.Keeps s) :
    s0.Keeps (extentRead s id tag eng e) := by
  unfold extentRead
  split
  · exact h
  · refine keeps_ite h ?_
    dsimp only
    split
    · exact endRead_keeps _ _ _ h
    · exact ensureRead_keeps _ _ h

theorem nandIssue_keeps (lun : Nat) (t : NandTurn) (h : s0.Keeps s) : s0.Keeps (nandIssue s lun t) := by
  unfold nandIssue
  refine keeps_ite h ?_
  split
  · exact h
  · split
    · exact h
    · exact emit_keeps _ (setFlight_keeps _ _ (setQueue_keeps _ _ (setLevel_keeps _ _ h)))

theorem execNandCommandIssue_keeps (lun : Nat) (turn : NandTurn) (h : s0.Keeps s) :
    Leads s0 (execNandCommandIssue lun turn s) :=
  leads_next (keeps_ite (nandIssue_keeps _ _ h) h)

theorem nandEffect_keeps (c : NandCmd) (h : s0.Keeps s) : s0.Keeps (nandEffect s c) := by
  unfold nandEffect
  split
  · exact h
  · exact keeps_frame h
  · exact keeps_frame h

theorem updateEnded_keeps (lun : Nat) (h : s0.Keeps s) : s0.Keeps (updateEnded s lun) := by
  unfold updateEnded
  split
  · exact keeps_ite (entryDone_keeps _ h) h
  · exact h

theorem updateFailed_keeps (lun : Nat) (op : NandOp) (h : s0.Keeps s) : s0.Keeps (updateFailed s lun op) := by
  unfold updateFailed
  extract_lets +onlyGivenNames _ _ _ _ s1
  have h1 : s0.Keeps s1 := keeps_frame h
  extract_lets +onlyGivenNames _ _ s2
  have h2 : s0.Keeps s2 := keeps_ite h1 (keeps_ite (keeps_frame h1) (norKeep_keeps _ h1))
  dsimp only
  split
  · exact dropUpdates_keeps _ (setJob_keeps _ _ (raise_keeps _ _ _ _ _ _ h2))
  · exact raise_keeps _ _ _ _ _ _ h2

theorem updateParts_keeps (lun : Nat) (f : NandFlight) (which : List Nat) (h : s0.Keeps s) :
    s0.Keeps (updateParts s lun f which) :=
  updateEnded_keeps _ (keeps_foldl _ (fun _ _ ht => keeps_ite (updateFailed_keeps _ _ ht) (nandEffect_keeps _ ht)) _
      (setFlight_keeps _ _ h))

theorem targetLost_keeps (lun : Nat) (h : s0.Keeps s) : s0.Keeps (targetLost s lun) :=
  keeps_ite (fenceUnit_keeps _ _ _ (markFenced_keeps _ _ _ h)) (evalNow_keeps (markFenced_keeps _ _ _ h))

theorem nandTimeout_keeps (lun : Nat) (h : s0.Keeps s) : s0.Keeps (nandTimeout s lun) := by
  unfold nandTimeout
  split
  · exact h
  · exact keeps_ite h (keeps_ite (targetLost_keeps _ h) (emit_keeps _ (emit_keeps _ (setFlight_keeps _ _ h))))

theorem readReady_keeps (lun : Nat) (f : NandFlight) (h : s0.Keeps s) : s0.Keeps (readReady s lun f) := by
  unfold readReady
  extract_lets +onlyGivenNames _ _ s2
  have h2 : s0.Keeps s2 := keeps_foldl _ (fun _ _ ht => selectCw_keeps _ _ ht) _ (setFlight_keeps _ _ h)
  extract_lets +onlyGivenNames _ s3
  have h3 : s0.Keeps s3 := by
    dsimp only [s3]
    split
    · split
      · exact keeps_ite (jobFlush_keeps _ (setJob_keeps _ _ h2)) (setJob_keeps _ _ h2)
      · exact h2
    · exact h2
  exact releaseLun_keeps _ h3

theorem statusPoll_keeps (lun : Nat) (st : NandStatus) (h : s0.Keeps s) : s0.Keeps (statusPoll s lun st) := by
  unfold statusPoll
  split
  · exact h
  · refine keeps_ite h ?_
    extract_lets +onlyGivenNames s1
    have h1 : s0.Keeps s1 := emit_keeps _ h
    split
    · exact h1
    · exact nandTimeout_keeps _ h1
    · exact keeps_ite (updateEnded_keeps _ (keeps_foldl _ (fun _ _ hu => nandEffect_keeps _ hu) _ (setFlight_keeps _ _ h1)))
        (readReady_keeps _ _ h1)
    · exact keeps_ite (updateParts_keeps _ _ _ h1) (readReady_keeps _ _ h1)

theorem execReadStatusPoll_keeps (lun : Nat) (st : NandStatus) (h : s0.Keeps s) : Leads s0 (execReadStatusPoll lun st s) :=
  leads_next (keeps_ite (statusPoll_keeps _ _ h) h)

theorem execNandTimeout_keeps (lun : Nat) (h : s0.Keeps s) : Leads s0 (execNandTimeout lun s) :=
  leads_next (keeps_ite (nandTimeout_keeps _ h) h)

theorem execZqCalibrationShort_keeps (lun : Nat) (h : s0.Keeps s) : Leads s0 (execZqCalibrationShort lun s) :=
  leads_next (keeps_ite (emit_keeps _ h) h)

theorem flashPoison_keeps (t fca : Nat) (ranges : List (Nat × Nat)) (last : Option Nat) (h : s0.Keeps s) :
    s0.Keeps (flashPoison s t fca ranges last).1 := by
  unfold flashPoison
  refine keeps_foldl_fst _ (fun x k hx => ?_) _ h
  dsimp only
  exact poisoning_keeps _ _ _ _ _ hx

theorem deliverCw_keeps (id : Nat) (r : ExtentRead) (fab : Nat × FabricSeen) (cw : List Byte)
    (bad : Nat → Nat → List (Nat × Nat)) (h : s0.Keeps s) :
    s0.Keeps (deliverCw s id r fab cw bad) := by
  unfold deliverCw
  dsimp only
  exact releaseLun_keeps _ (keeps_ite (endRead_keeps _ _ _ (keeps_unless (setLevel_keeps _ _) (fabricMeets_keeps _ _ _ _ _ _
      (flashPoison_keeps _ _ _ _ h)))) (ensureRead_keeps _ _ (keeps_unless (setLevel_keeps _ _) (fabricMeets_keeps _ _ _ _ _
      _ (flashPoison_keeps _ _ _ _ h)))))

theorem decoded_keeps (id : Nat) (r : ExtentRead) (fab : Nat × FabricSeen) (cw : List Byte) (h : s0.Keeps s) :
    s0.Keeps (decoded s id r fab cw) :=
  keeps_ite (deliverCw_keeps _ _ _ _ _ (bump_keeps _ _ _ _ (keeps_if (raise_keeps _ _ _ _ _ _) (bump_keeps _ _ _ _ h))))
      (deliverCw_keeps _ _ _ _ _ (bump_keeps _ _ _ _ (keeps_if (raise_keeps _ _ _ _ _ _) (bump_keeps _ _ _ _ h))))

theorem uncorrectable_keeps (id : Nat) (r : ExtentRead) (fab : Nat × FabricSeen) (cw : List Byte) (h : s0.Keeps s) :
    s0.Keeps (uncorrectable s id r fab cw) :=
  deliverCw_keeps _ _ _ _ _ (bump_keeps _ _ _ _ h)

theorem readAgain_keeps (id : Nat) (r : ExtentRead) (lun : Nat) (h : s0.Keeps s) : s0.Keeps (readAgain s id r lun) :=
  releaseLun_keeps _ (ensureRead_keeps _ _ h)

theorem retryCw_keeps (id : Nat) (r : ExtentRead) (fab : Nat × FabricSeen) (cw : List Byte) (h : s0.Keeps s) :
    s0.Keeps (retryCw s id r fab cw) :=
  keeps_unless (fun ht => keeps_ite (readAgain_keeps _ _ _ h) (keeps_ite (readAgain_keeps _ _ _ h) ht)) (uncorrectable_keeps
      _ _ _ _ h)

theorem erasedCw_keeps (id : Nat) (r : ExtentRead) (h : s0.Keeps s) : s0.Keeps (erasedCw s id r) :=
  releaseLun_keeps _ (endRead_keeps _ _ _ (keeps_ite h (setLevel_keeps _ _ h)))

theorem codewordDecode_keeps (id : Nat) (ok : Bool) (fab : Nat × FabricSeen) (cw : List Byte) (h : s0.Keeps s) :
    s0.Keeps (codewordDecode s id ok fab cw) := by
  unfold codewordDecode
  split
  · exact h
  · refine keeps_ite h ?_
    split
    · exact erasedCw_keeps _ _ h
    · exact uncorrectable_keeps _ _ _ _ h
    · exact keeps_ite (readAgain_keeps _ _ _ h) (keeps_ite (decoded_keeps _ _ _ _ h) (retryCw_keeps _ _ _ _ h))
    · exact keeps_ite (erasedCw_keeps _ _ h) (keeps_ite (readAgain_keeps _ _ _ h) (keeps_ite (decoded_keeps _ _ _ _ h)
        (retryCw_keeps _ _ _ _ h)))

theorem execCodewordDecode_keeps (id : Nat) (decodes : Bool) (fabric : Nat × FabricSeen) (cw : List Byte) (h : s0.Keeps s) :
    Leads s0 (execCodewordDecode id decodes fabric cw s) :=
  leads_next (keeps_ite (codewordDecode_keeps _ _ _ _ h) h)

theorem jobStart_keeps (f port : Nat) (h : s0.Keeps s) : s0.Keeps (jobStart s f port) :=
  keeps_ite h (keeps_ite (jobStatus_keeps _ _ _ _ h) (keeps_ite (jobStatus_keeps _ _ _ _ h) (jobAsk_keeps _ (jobStatus_keeps
      _ _ _ _ (setJob_keeps _ _ h)))))

theorem execFlsJobStart_keeps (facet port : Nat) (h : s0.Keeps s) : Leads s0 (execFlsJobStart facet port s) :=
  leads_next (keeps_ite (jobStart_keeps _ _ h) h)

theorem execFlsJobAbort_keeps (facet : Nat) (h : s0.Keeps s) : Leads s0 (execFlsJobAbort facet s) :=
  leads_next (keeps_ite (stopJob_keeps _ _ h) h)

theorem runEntry_keeps (f op : Nat) (e : List Byte) (st : ReadStatus) (go : State → FlashJob → State) (h : s0.Keeps s)
    (hgo : ∀ (t : State) (j : FlashJob), s0.Keeps t → s0.Keeps (go t j)) :
    s0.Keeps (runEntry s f op e st go) := by
  unfold runEntry
  split
  · exact h
  · extract_lets +onlyGivenNames s1
    have h1 : s0.Keeps s1 := hostBack_keeps _ _ _ h
    split
    · exact stopJob_keeps _ _ (hostPoison_keeps _ _ h1)
    · exact stopJob_keeps _ _ h1
    · exact keeps_ite h (keeps_ite (stopJob_keeps _ _ h1) (keeps_ite (stopJob_keeps _ _ h1) (hgo _ _ h1)))

theorem queueUpdates_keeps (f : Nat) (j : FlashJob) (ops : List (NandOp × List Byte)) (after : Nat) (h : s0.Keeps s) :
    s0.Keeps (queueUpdates s f j ops after) :=
  keeps_if (entryDone_keeps _) (keeps_foldl _ (fun _ _ ht => enqueue_keeps _ _ _ _ ht) _ (setJob_keeps _ _ h))

theorem jobErase_keeps (f : Nat) (e : List Byte) (j : FlashJob) (h : s0.Keeps s) : s0.Keeps (jobErase f e s j) :=
  queueUpdates_keeps _ _ _ _ h

theorem execJobErase_keeps (facet : Nat) (entry : List Byte) (st : ReadStatus) (h : s0.Keeps s) :
    Leads s0 (execJobErase facet entry st s) :=
  leads_next (runEntry_keeps _ _ _ _ _ h (fun _ _ ht => jobErase_keeps _ _ _ ht))

theorem jobProgram_keeps (f : Nat) (e data : List Byte) (dataSt : List ReadStatus) (j : FlashJob) (h : s0.Keeps s) :
    s0.Keeps (jobProgram f e data dataSt s j) :=
  keeps_ite (stopJob_keeps _ _ h) (keeps_ite h (queueUpdates_keeps _ _ _ _ (keeps_if (hostPoison_keeps _ _) (hostBack_keeps _
      _ _ (hostAsk_keeps _ _ _ h)))))

theorem execJobProgram_keeps (facet : Nat) (entry : List Byte) (st : ReadStatus) (data : List Byte) (dataSt : List ReadStatus)
    (h : s0.Keeps s) :
    Leads s0 (execJobProgram facet entry st data dataSt s) :=
  leads_next (runEntry_keeps _ _ _ _ _ h (fun _ _ ht => jobProgram_keeps _ _ _ _ _ ht))

theorem scanPage_keeps (p : Nat) (h : s0.Keeps s) : s0.Keeps (scanPage s p) := by
  unfold scanPage
  split
  · exact keeps_ite (enqueue_keeps _ _ _ _ h) h
  · exact enqueue_keeps _ _ _ _ h

theorem jobScan_keeps (f : Nat) (e : List Byte) (marks : List Bool) (j : FlashJob) (h : s0.Keeps s) :
    s0.Keeps (jobScan f e marks s j) :=
  keeps_ite h (keeps_foldl _ (fun _ _ ht => scanPage_keeps _ ht) _ (setJob_keeps _ _ h))

theorem execJobScan_keeps (facet : Nat) (entry : List Byte) (st : ReadStatus) (marks : List Bool) (h : s0.Keeps s) :
    Leads s0 (execJobScan facet entry st marks s) :=
  leads_next (runEntry_keeps _ _ _ _ _ h (fun _ _ ht => jobScan_keeps _ _ _ _ ht))

theorem jobRead_keeps (f : Nat) (e : List Byte) (id : Nat) (j : FlashJob) (h : s0.Keeps s) : s0.Keeps (jobRead f e id s j) :=
  keeps_ite h (ensureRead_keeps _ _ (setJob_keeps _ _ h))

theorem execJobRead_keeps (facet : Nat) (entry : List Byte) (st : ReadStatus) (id : Nat) (h : s0.Keeps s) :
    Leads s0 (execJobRead facet entry st id s) :=
  leads_next (runEntry_keeps _ _ _ _ _ h (fun _ _ ht => jobRead_keeps _ _ _ _ ht))

/-! ## Weights -/

theorem claimSlot_keeps (tag : Nat) (r : Request) (h : s0.Keeps s) : s0.Keeps (claimSlot s tag r) := by
  unfold claimSlot
  refine keeps_ite h ?_
  split
  · exact setRequest_keeps _ _ h
  · exact keeps_ite (setTroy_keeps _ _ (pinNames_keeps _ h)) (keeps_ite (setTroy_keeps _ _ (pinNames_keeps _ h))
      (setTroy_keeps _ _ h))

theorem setLoad_keeps (n : Nat) (l : TroyLoad) (h : s0.Keeps s) : s0.Keeps (setLoad s n l) := setTroy_keeps _ _ h

theorem askPeer_keeps (k slot fuel off len : Nat) (h : s0.Keeps s) : s0.Keeps (askPeer s k slot fuel off len) := by
  induction fuel generalizing s off len with
  | zero => exact h
  | succ fuel ih => exact keeps_ite h (ih _ _ (sendMessage_keeps _ _ h))

theorem startSource_keeps (n : Nat) (h : s0.Keeps s) : s0.Keeps (startSource s n) := by
  unfold startSource
  split
  · exact h
  · refine keeps_ite (setLoad_keeps _ _ h) ?_
    split
    · exact loadFail_keeps _ _ _ h
    · exact setLoad_keeps _ _ (openFlow_keeps _ _ _ _ h)

theorem loadStart_keeps (tag : Nat) (r : Request) (mode : TroyMode) (h : s0.Keeps s) : s0.Keeps (loadStart s tag r mode) := by
  unfold loadStart
  split
  · exact finish_keeps _ _ _ h
  · refine keeps_ite (finish_keeps _ _ _ h) ?_
    extract_lets +onlyGivenNames s1
    have h1 : s0.Keeps s1.1 := by
      dsimp only [s1]
      split
      · exact h
      · exact keeps_ite_fst h (devRead_keeps _ _ _ h)
    split
    · exact h
    · exact finish_keeps _ _ _ h1
    · extract_lets +onlyGivenNames _
      split
      · exact finish_keeps _ _ _ h1
      · exact keeps_ite (finish_keeps _ _ _ h1) (startSource_keeps _ (setTroy_keeps _ _ (keeps_ite (pinNames_keeps _ h1)
          h1)))

theorem loadRun_keeps (tag op : Nat) (f : State → Request → State) (h : s0.Keeps s)
    (hf : ∀ (t : State) (r : Request), s0.Keeps t → s0.Keeps (f t r)) :
    s0.Keeps (loadRun s tag op f) := by
  unfold loadRun
  split
  · exact keeps_ite h (keeps_ite (finish_keeps _ _ _ h) (hf _ _ h))
  · exact h

theorem execLoadWeightsLoad_keeps (tag : Nat) (h : s0.Keeps s) : Leads s0 (execLoadWeightsLoad tag s) := by
  refine leads_next ?_
  split
  · exact keeps_ite (finish_keeps _ _ _ h) (loadRun_keeps _ _ _ h (fun _ _ ht => loadStart_keeps _ _ _ ht))
  · exact h

theorem execLoadWeightsSwap_keeps (tag : Nat) (h : s0.Keeps s) : Leads s0 (execLoadWeightsSwap tag s) :=
  leads_next (loadRun_keeps _ _ _ h (fun _ _ ht => loadStart_keeps _ _ _ ht))

theorem troySettle_keeps (n : Nat) (h : s0.Keeps s) : s0.Keeps (troySettle s n) := by
  unfold troySettle
  extract_lets +onlyGivenNames _ s1
  have h1 : s0.Keeps s1 := by
    dsimp only [s1]
    split
    · exact keeps_ite h (finish_keeps _ _ _ (setTroy_keeps _ _ h))
    · exact h
  extract_lets +onlyGivenNames _ s2
  have h2 : s0.Keeps s2 := keeps_ite h1 (setTroy_keeps _ _ h1)
  dsimp only
  split
  · exact keeps_ite h2 (finish_keeps _ _ _ (setTroy_keeps _ _ h2))
  · exact h2

theorem unloadStart_keeps (tag : Nat) (r : Request) (h : s0.Keeps s) : s0.Keeps (unloadStart s tag r) := by
  unfold unloadStart
  split
  · exact finish_keeps _ _ _ h
  · exact troySettle_keeps _ (setTroy_keeps _ _ (setRequest_keeps _ _ (pinNames_keeps _ h)))

theorem execLoadWeightsUnload_keeps (tag : Nat) (h : s0.Keeps s) : Leads s0 (execLoadWeightsUnload tag s) :=
  leads_next (loadRun_keeps _ _ _ h (fun _ _ ht => unloadStart_keeps _ _ ht))

theorem execSlotUnloadDone_keeps (h : s0.Keeps s) : Leads s0 (execSlotUnloadDone s) :=
  leads_next (keeps_ite (keeps_foldl _ (fun _ _ ht => troySettle_keeps _ ht) _ (clpEmpty_keeps (srchEmpty_keeps
      (tokEmpty_keeps h)))) h)

theorem swapStart_keeps (n : Nat) (h : s0.Keeps s) : s0.Keeps (swapStart s n) := by
  unfold swapStart
  split
  · exact keeps_ite (setLoad_keeps _ _ h) h
  · exact h

theorem execInPlaceSwapStart_keeps (slot : Nat) (h : s0.Keeps s) : Leads s0 (execInPlaceSwapStart slot s) :=
  leads_next (keeps_ite (swapStart_keeps _ h) h)

theorem srcList_keeps (r : Request) (l : TroyLoad) (h : s0.Keeps s) : s0.Keeps (srcList s r l).1 :=
  keeps_ite_fst h (keeps_ite_fst h (keeps_andThen _ _ (devRead_keeps _ _ _ h) (fun _ _ ht => ht)))

theorem srcGet_keeps (r : Request) (l : TroyLoad) (es : List (List Byte)) (off n : Nat) (h : s0.Keeps s) :
    s0.Keeps (srcGet s r l es off n).1 := by
  unfold srcGet
  dsimp only
  split
  · exact hostGet_keeps _ _ _ h
  · exact h
  · exact h

theorem srcRead_keeps (r : Request) (l : TroyLoad) (off n : Nat) (h : s0.Keeps s) : s0.Keeps (srcRead s r l off n).1 := by
  unfold srcRead
  extract_lets +onlyGivenNames s1
  have h1 : s0.Keeps s1.1 := srcList_keeps _ _ h
  split
  · exact srcGet_keeps _ _ _ _ _ h1
  · exact h1
  · exact h1

theorem sourceFails_keeps (n : Nat) (st : Status) (h : s0.Keeps s) : s0.Keeps (sourceFails s n st) := by
  unfold sourceFails
  split
  · exact h
  · refine keeps_ite ?_ (loadFail_keeps _ _ _ (setLoad_keeps _ _ h))
    extract_lets +onlyGivenNames s1
    have h1 : s0.Keeps s1 := by
      dsimp only [s1]
      split
      · exact abandonFlow_keeps _ _ h
      · exact h
    exact startSource_keeps _ (setLoad_keeps _ _ (bump_keeps _ _ _ _ h1))

theorem askSegments_keeps (n : Nat) (h : s0.Keeps s) : s0.Keeps (askSegments s n) := by
  unfold askSegments
  split
  · split
    · exact keeps_foldl _ (fun _ _ ht => askPeer_keeps _ _ _ _ _ ht) _ (setLoad_keeps _ _ h)
    · exact h
  · exact h

theorem metaFirst_keeps (n : Nat) (r : Request) (l : TroyLoad) (m : List Byte) (h : s0.Keeps s) :
    s0.Keeps (metaFirst s n r l m) := by
  unfold metaFirst
  split
  · exact loadFail_keeps _ _ _ h
  · refine keeps_ite (loadFail_keeps _ _ _ h) ?_
    refine keeps_ite (askSegments_keeps _ (setLoad_keeps _ _ h)) ?_
    refine keeps_ite (loadFail_keeps _ _ _ h) ?_
    refine keeps_ite (loadFail_keeps _ _ _ h) ?_
    extract_lets +onlyGivenNames _ s1
    have h1 : s0.Keeps s1 := setLoad_keeps _ _ h
    split
    · exact loadFail_keeps _ _ _ h1
    · exact askSegments_keeps _ (setLoad_keeps _ _ h1)

theorem metaArrives_keeps (n : Nat) (h : s0.Keeps s) : s0.Keeps (metaArrives s n) := by
  unfold metaArrives
  split
  · exact h
  · split
    · exact h
    · dsimp only
      split
      · split
        · refine keeps_ite ?_ (metaFirst_keeps _ _ _ _ (srcRead_keeps _ _ _ _ h))
          split
          · exact metaFirst_keeps _ _ _ _ (srcRead_keeps _ _ _ _ h)
          · exact keepReads_keeps _ h
          · exact sourceFails_keeps _ _ (srcRead_keeps _ _ _ _ h)
          · exact loadFail_keeps _ _ _ (srcRead_keeps _ _ _ _ h)
        · split
          · exact keeps_ite (askSegments_keeps _ (setLoad_keeps _ _ (srcRead_keeps _ _ _ _ h))) (sourceFails_keeps _ _
              (srcRead_keeps _ _ _ _ h))
          · exact keepReads_keeps _ h
          · exact sourceFails_keeps _ _ (srcRead_keeps _ _ _ _ h)
          · exact loadFail_keeps _ _ _ (srcRead_keeps _ _ _ _ h)
      · exact keepReads_keeps _ h
      · exact sourceFails_keeps _ _ (srcRead_keeps _ _ _ _ h)
      · exact loadFail_keeps _ _ _ (srcRead_keeps _ _ _ _ h)

theorem execTroyMetadataArrival_keeps (slot : Nat) (h : s0.Keeps s) : Leads s0 (execTroyMetadataArrival slot s) :=
  leads_next (keeps_ite (metaArrives_keeps _ h) h)

theorem countBytes_keeps (m : List Byte) (done : List Nat) (g : Seg) (h : s0.Keeps s) : s0.Keeps (countBytes s m done g) :=
  bump_keeps _ _ _ _ h

theorem loadDone_keeps (n : Nat) (l : TroyLoad) (m : List Byte) (h : s0.Keeps s) : s0.Keeps (loadDone s n l m) := by
  unfold loadDone
  extract_lets +onlyGivenNames _ s1
  have h1 : s0.Keeps s1 := by
    dsimp only [s1]
    split
    · exact sendFin_keeps _ h
    · exact h
  dsimp only
  split
  · exact troySettle_keeps _ (setTroy_keeps _ _ (pinNames_keeps _ h1))
  · exact finish_keeps _ _ _ (setTroy_keeps _ _ h1)

theorem segmentWrite_keeps (t a : Nat) (g : Seg) (b : List Byte) (fab : FabricSeen) (h : s0.Keeps s) :
    s0.Keeps (segmentWrite s t a g b fab) :=
  keeps_foldl _ (fun _ _ ht => poisonRange_keeps _ _ _ ht) _ (fabricMeets_keeps _ _ _ _ _ _ (engWrite_keeps _ _ _ h))

theorem segmentTorn_keeps (r : Request) (l : TroyLoad) (a : Nat) (g : Seg) (st : Status) (h : s0.Keeps s) :
    s0.Keeps (segmentTorn s r l a g st) := by
  unfold segmentTorn
  split
  · exact poisonRange_keeps _ _ _ (keeps_ite h (engWrite_keeps _ _ _ h))
  · exact h

theorem segmentDone_keeps (n : Nat) (x : SegDone) (h : s0.Keeps s) : s0.Keeps (segmentDone s n x) := by
  unfold segmentDone
  split
  · exact h
  · split
    · refine keeps_ite h ?_
      dsimp only
      split
      · exact loadFail_keeps _ _ _ h
      · split
        · exact keepReads_keeps _ h
        · exact sourceFails_keeps _ _ (segmentTorn_keeps _ _ _ _ _ (srcRead_keeps _ _ _ _ h))
        · exact loadFail_keeps _ _ _ (srcRead_keeps _ _ _ _ h)
        · split
          · exact loadFail_keeps _ _ _ (segmentWrite_keeps _ _ _ _ _ (srcRead_keeps _ _ _ _ h))
          · exact keeps_ite (loadDone_keeps _ _ _ (countBytes_keeps _ _ _ (segmentWrite_keeps _ _ _ _ _ (srcRead_keeps _ _ _
              _ h)))) (askSegments_keeps _ (setLoad_keeps _ _ (countBytes_keeps _ _ _ (segmentWrite_keeps _ _ _ _ _
              (srcRead_keeps _ _ _ _ h)))))
    · exact h

theorem execSegmentComplete_keeps (slot : Nat) (seg : SegDone) (h : s0.Keeps s) : Leads s0 (execSegmentComplete slot seg s) :=
  leads_next (keeps_ite (segmentDone_keeps _ _ h) h)

theorem windowFilled_keeps (im : Image) (k : Nat) (h : s0.Keeps s) : s0.Keeps (windowFilled s im k) :=
  keeps_foldl _ (fun _ _ ht => spoilArea_keeps _ _ ht) _ h

theorem unitCopied_keeps (tag t : Nat) (im : Image) (h : s0.Keeps s) : s0.Keeps (unitCopied s tag t im) := by
  unfold unitCopied
  refine keeps_ite h ?_
  extract_lets +onlyGivenNames s1
  have h1 : s0.Keeps s1.1 := readEach_keeps _ (fun _ _ hu => handleRead_keeps _ _ _ hu) _ h
  split
  · exact h1
  · exact setMtx_keeps _ _ (keeps_ite h1 (windowFilled_keeps _ _ h1))

theorem execWindowUnitCopyDone_keeps (tag : Nat) (h : s0.Keeps s) : Leads s0 (execWindowUnitCopyDone tag s) := by
  refine leads_next ?_
  refine keeps_ite h ?_
  split
  · exact unitCopied_keeps _ _ _ h
  · exact unitCopied_keeps _ _ _ h
  · exact h

theorem weightData_keeps (n k : Nat) (m : List Byte) (h : s0.Keeps s) : s0.Keeps (weightData s n k m) := by
  unfold weightData
  split
  · exact h
  · exact keeps_ite h (keeps_if (askPeer_keeps _ _ _ _ _) (setLoad_keeps _ _ h))

theorem loadFlowClosed_keeps (n k st : Nat) (h : s0.Keeps s) : s0.Keeps (loadFlowClosed s n k st) := by
  unfold loadFlowClosed
  split
  · exact h
  · exact keeps_ite (sourceFails_keeps _ _ (setLoad_keeps _ _ h)) h

theorem bindLoad_keeps (n k : Nat) (h : s0.Keeps s) : s0.Keeps (bindLoad s n k) := by
  unfold bindLoad
  split
  · exact keeps_ite (setLoad_keeps _ _ h) h
  · exact h

theorem partsRead_keeps (t : Nat) (ps : List (Nat × Nat)) (h : s0.Keeps s) : s0.Keeps (partsRead s t ps) :=
  keeps_foldl _ (fun _ _ ht => keeps_ite (engRead_keeps _ _ _ ht) ht) _ h

theorem weightAnswer_keeps (k slot gen : Nat) (m : List Byte) (h : s0.Keeps s) : s0.Keeps (weightAnswer s k slot gen m) := by
  unfold weightAnswer
  dsimp only
  split
  · exact sendMessage_keeps _ _ h
  · exact keeps_ite (sendMessage_keeps _ _ h) (keeps_ite (sendMessage_keeps _ _ h) (keeps_ite (sendMessage_keeps _ _
      (partsRead_keeps _ _ h)) (keeps_ite (abandonFlow_keeps _ _ (partsRead_keeps _ _ h)) (sendMessage_keeps _ _
      (partsRead_keeps _ _ h)))))

/-! ## SearchRun -/

theorem removed_keeps (tag : Nat) (h : s0.Keeps s) : s0.Keeps { s with requests := remove s.requests tag } := by
  refine keeps_trans h ⟨fun hw => ?_, rfl, rfl⟩
  rw [wf_iff] at hw ⊢
  obtain ⟨hmem, hregs, hforce, hrequests⟩ := hw
  exact ⟨hmem, hregs, hforce, rising_remove _ _ hrequests⟩

theorem answerShard_keeps (tag k : Nat) (msg : List Byte) (h : s0.Keeps s) : s0.Keeps (answerShard s tag k msg) := by
  have hsent (busy : Bool) := setWorks_keeps k busy (sendMessage_keeps k msg (removed_keeps tag (dropJobs_keeps tag h)))
  refine settle_keeps ?_
  split
  · exact keeps_ite (sendFin_keeps _ (hsent _)) (hsent _)
  · exact hsent _

theorem searchFails_keeps (tag : Nat) (st : Status) (h : s0.Keeps s) : s0.Keeps (searchFails s tag st) := by
  unfold searchFails
  extract_lets +onlyGivenNames s1
  have h1 : s0.Keeps s1 := by
    dsimp only [s1]
    split
    · exact countWaste_keeps _ h
    · exact h
  extract_lets +onlyGivenNames s2
  have h2 : s0.Keeps s2 := keeps_frame h1
  split
  · exact h2
  · split
    · exact answerShard_keeps _ _ _ h2
    · exact finishStage_keeps _ _ _ h2

theorem handCands_keeps (tag : Nat) (es : List Entry) (h : s0.Keeps s) : s0.Keeps (handCands s tag es) := by
  unfold handCands
  split
  · split
    · exact setRequest_keeps _ _ h
    · exact h
  · exact h

theorem finShards_keeps (tag : Nat) (h : s0.Keeps s) : s0.Keeps (finShards s tag) := by
  unfold finShards
  refine keeps_foldl _ (fun _ _ ht => ?_) _ h
  split
  · exact sendFin_keeps _ (setFlow_keeps _ ht)
  · exact ht

theorem searchEnds_keeps (tag : Nat) (j : SearchJob) (b : List Byte) (h : s0.Keeps s) : s0.Keeps (searchEnds s tag j b) := by
  unfold searchEnds
  refine keeps_ite (searchFails_keeps _ _ h) ?_
  extract_lets +onlyGivenNames _ _ s2
  have h2 : s0.Keeps s2 := finShards_keeps _ (keeps_frame (countWaste_keeps _ h))
  split
  split
  · exact h2
  · split
    · exact answerShard_keeps _ _ _ h2
    · exact keeps_ite (finishStage_keeps _ _ _ (handCands_keeps _ _ h2)) (finish_keeps _ _ _ (writeOut_keeps _ _ _ _ h2))

theorem openShards_keeps (tag : Nat) (j : SearchJob) (b : List Byte) (ms : List (Nat × Nat × Nat)) (h : s0.Keeps s) :
    s0.Keeps (openShards s tag j b ms) := by
  unfold openShards
  refine keeps_foldl _ (fun _ _ ht => ?_) _ h
  extract_lets +onlyGivenNames _ s1
  have h1 : s0.Keeps s1 := openFlow_keeps _ _ _ _ ht
  split
  · exact keeps_frame h1
  · exact h1

theorem widenShards_keeps (tag t : Nat) (j : SearchJob) (b : List Byte) (h : s0.Keeps s) :
    s0.Keeps (widenShards s tag t j b) := by
  unfold widenShards
  extract_lets +onlyGivenNames s1
  have h1 : s0.Keeps s1.1 := scanOnce_keeps _ _ _ _ _ _ h
  split
  · exact h
  · exact searchFails_keeps _ _ h1
  · exact keeps_foldl _ (fun _ _ ht => keeps_foldl _ (fun _ _ hu => sendMessage_keeps _ _ hu) _ ht) _ (keeps_frame h1)

theorem searchSettle_keeps (tag : Nat) (h : s0.Keeps s) : s0.Keeps (searchSettle s tag) := by
  unfold searchSettle
  split
  · refine keeps_ite h ?_
    refine keeps_ite ?_ (searchEnds_keeps _ _ _ h)
    extract_lets +onlyGivenNames s1
    have h1 : s0.Keeps s1 := widenShards_keeps _ _ _ _ h
    split
    · exact keeps_ite (searchEnds_keeps _ _ _ h1) h1
    · exact h1
  · exact h

theorem shardGives_keeps (tag num : Nat) (es : Option (List Entry)) (bad : Option Nat) (h : s0.Keeps s) :
    s0.Keeps (shardGives s tag num es bad) := by
  unfold shardGives
  split
  · exact h
  · exact searchSettle_keeps _ (keeps_frame h)

theorem searchBegin_keeps (tag : Nat) (r : Request) (q : SearchQ) (b : List Byte) (h : s0.Keeps s) :
    s0.Keeps (searchBegin s tag r q b) :=
  keeps_unless (openShards_keeps _ _ _ _) (keeps_frame h)

theorem searchStart_keeps (tag : Nat) (r : Request) (query : State → List Byte → Reading (List Byte × Nat)) (h : s0.Keeps s)
    (hquery : ∀ (t : State) (b : List Byte), s0.Keeps t → s0.Keeps (query t b).1) :
    s0.Keeps (searchStart s tag r query) := by
  unfold searchStart
  refine keeps_ite (searchFails_keeps _ _ h) ?_
  extract_lets +onlyGivenNames s1
  have h1 : s0.Keeps s1.1 := searchInputs_keeps _ _ h (fun _ _ hu => hquery _ _ hu)
  split
  · exact keepReads_keeps _ h
  · exact searchFails_keeps _ _ h1
  · refine keeps_ite (searchFails_keeps _ _ h) ?_
    split
    · exact searchFails_keeps _ _ h
    · exact searchBegin_keeps _ _ _ _ h1

theorem ownQuery_keeps (r : Request) (b : List Byte) (h : s0.Keeps s) : s0.Keeps (ownQuery r s b).1 :=
  keeps_andThen _ _ (readAt_keeps _ _ _ _ h) (fun _ _ ht => ht)

theorem searchAlone_keeps (tag : Nat) (r : Request) (h : s0.Keeps s) : s0.Keeps (searchAlone s tag r) := by
  unfold searchAlone
  refine keeps_ite h ?_
  refine keeps_ite (searchFails_keeps _ _ h) ?_
  refine keeps_ite (searchFails_keeps _ _ h) ?_
  split
  · exact searchFails_keeps _ _ h
  · exact searchStart_keeps _ _ _ h (fun _ _ hw => ownQuery_keeps _ _ hw)

theorem execSearch_keeps (tag : Nat) (h : s0.Keeps s) : Leads s0 (execSearch tag s) := by
  refine leads_next ?_
  split
  · exact keeps_ite (searchAlone_keeps _ _ h) h
  · exact h

theorem searchStage_keeps (tag : Nat) (r : Request) (vec : List Byte) (fmt : Nat) (h : s0.Keeps s) :
    s0.Keeps (searchStage s tag r vec fmt) :=
  keeps_ite h (searchStart_keeps _ _ _ h (fun _ _ ht => keeps_ite_fst ht ht))

theorem centroidReads_keeps (t : Nat) (b : List Byte) (h : s0.Keeps s) : s0.Keeps (centroidReads s t b).1 :=
  keeps_foldl_fst _ (fun _ _ ht => keeps_andThen _ _ ht (fun _ _ hu => keeps_andThen _ _ (handleRead_keeps _ _ _ hu) (fun _ _
      hv => hv))) _ h

theorem copyDone_keeps (tag : Nat) (r : Request) (j : SearchJob) (f l : Nat) (h : s0.Keeps s) :
    s0.Keeps (copyDone s tag r j f l) := by
  unfold copyDone
  dsimp only
  split
  · exact h
  · exact keeps_ite h (keeps_frame (memWriteP_keeps _ _ _ (noteRead_keeps _ _ _ (collect_keeps _ _ _ h))))

theorem execNbPrefetchCopyDone_keeps (tag facet list : Nat) (h : s0.Keeps s) :
    Leads s0 (execNbPrefetchCopyDone tag facet list s) := by
  refine leads_next ?_
  split
  · exact copyDone_keeps _ _ _ _ _ h
  · exact h

theorem withPipe_keeps (tag : Nat) (f : Pipeline → Pipeline) (h : s0.Keeps s) : s0.Keeps (withPipe s tag f) := by
  unfold withPipe
  split
  · split
    · exact setRequest_keeps _ _ h
    · exact h
  · exact h

theorem exchange_keeps (tag : Nat) (r : Request) (j : SearchJob) (h : s0.Keeps s) : s0.Keeps (exchange s tag r j) := by
  unfold exchange
  refine keeps_ite (searchFails_keeps _ _ h) ?_
  extract_lets +onlyGivenNames s1
  have h1 : s0.Keeps s1.1 := keeps_andThen _ _ (centroidReads_keeps _ _ h) (fun _ _ hu => handleRead_keeps _ _ _ hu)
  split
  · exact h
  · exact searchFails_keeps _ _ h1
  · exact keeps_ite (searchFails_keeps _ _ h1) (withPipe_keeps _ _ (keeps_frame h1))

theorem exchangeDone_keeps (tag : Nat) (r : Request) (j : SearchJob) (check : Option Mismatch) (h : s0.Keeps s) :
    s0.Keeps (exchangeDone s tag r j check) :=
  keeps_ite h (keeps_ite (searchFails_keeps _ _ (meetCheck_keeps _ _ h)) (exchange_keeps _ _ _ (meetCheck_keeps _ _ h)))

theorem execCentroidExchange_keeps (done : UnitDone) (h : s0.Keeps s) : Leads s0 (execCentroidExchange done s) := by
  refine leads_next ?_
  split
  · exact exchangeDone_keeps _ _ _ _ h
  · exact h

theorem scanEnds_keeps (tag : Nat) (r : Request) (j : SearchJob) (lists : List Nat) (h : s0.Keeps s) :
    s0.Keeps (scanEnds s tag r j lists) := by
  unfold scanEnds
  extract_lets +onlyGivenNames _ s1
  have h1 : s0.Keeps s1.1 := keeps_ite_fst (scanRun_keeps _ _ _ _ _ h) (keeps_andThen _ _ (scanOnce_keeps _ _ _ _ _ _ h) (fun
      _ _ ht => ht))
  split
  · exact h
  · exact searchFails_keeps _ _ (keeps_frame h1)
  · exact searchSettle_keeps _ (keeps_frame (withPipe_keeps _ _ h1))

theorem scanDone_keeps (tag : Nat) (r : Request) (j : SearchJob) (check : Option Mismatch) (h : s0.Keeps s) :
    s0.Keeps (scanDone s tag r j check) := by
  unfold scanDone
  split
  · exact h
  · exact keeps_ite h (keeps_ite (searchFails_keeps _ _ (meetCheck_keeps _ _ h)) (scanEnds_keeps _ _ _ _ (meetCheck_keeps _ _
      h)))

theorem execScanDone_keeps (tag : Nat) (check : Option Mismatch) (h : s0.Keeps s) : Leads s0 (execScanDone tag check s) := by
  refine leads_next ?_
  split
  · exact scanDone_keeps _ _ _ _ h
  · exact h

theorem slotFor_keeps {t : State} {q : Pipeline} {x : CandSlot} (tag lead f id : Nat) (left : Nat → Bool) (p : Pipeline)
    (h : s0.Keeps s) (ht : slotFor s tag lead f id left p = some (t, q, x)) :
    s0.Keeps t := by
  unfold slotFor at ht
  dsimp only at ht
  split at ht
  · cases ht
    exact h
  · split at ht
    · cases ht
      exact h
    · split at ht
      · cases ht
        exact countSlots_keeps _ h
      · cases ht

theorem prefetchRead_keeps (id tag : Nat) (r : Request) (p : Pipeline) (e : List Byte) (h : s0.Keeps s) :
    s0.Keeps (prefetchRead s id tag r p e) := by
  unfold prefetchRead
  refine keeps_ite h ?_
  split
  · exact h
  · split
    · exact h
    · have hp1 := slotFor_keeps _ _ _ _ _ _ h ‹_›
      exact keeps_ite hp1 (extentRead_keeps _ _ _ _ (setRequest_keeps _ _ hp1))

theorem execExtentRead_keeps (id reader : Nat) (engine : FlashEngine) (extent : List Byte) (h : s0.Keeps s) :
    Leads s0 (execExtentRead id reader engine extent s) := by
  refine leads_next ?_
  refine keeps_ite h ?_
  refine keeps_ite ?_ (extentRead_keeps _ _ _ _ h)
  split
  · split
    · exact prefetchRead_keeps _ _ _ _ _ h
    · exact h
  · exact h

theorem deadline_keeps (tag : Nat) (r : Request) (j : SearchJob) (h : s0.Keeps s) : s0.Keeps (deadline s tag r j) :=
  keeps_ite h (searchSettle_keeps _ (keeps_frame h))

theorem execShardDeadlineX_keeps (tag : Nat) (h : s0.Keeps s) : Leads s0 (execShardDeadlineX tag s) := by
  refine leads_next ?_
  split
  · exact deadline_keeps _ _ _ h
  · exact h

theorem runShard_keeps (k tag t : Nat) (b m : List Byte) (h : s0.Keeps s) : s0.Keeps (runShard s k tag t b m) := by
  unfold runShard
  extract_lets +onlyGivenNames _ _ s1
  have h1 : s0.Keeps s1 := setWorks_keeps _ _ (setRequest_keeps _ _ h)
  exact keeps_ite (searchFails_keeps _ _ h1) (keeps_ite (searchFails_keeps _ _ h1) (keeps_frame h1))

/-! ## Arrays -/

theorem feedTiles_keeps (tag : Nat) (h : s0.Keeps s) : s0.Keeps (feedTiles s tag) := by
  unfold feedTiles
  dsimp only
  split
  · exact h
  · exact setMtx_keeps _ _ h

theorem reclaimTiles_keeps (tag : Nat) (h : s0.Keeps s) : s0.Keeps (reclaimTiles s tag) := by
  unfold reclaimTiles
  dsimp only
  split
  · exact h
  · exact setMtx_keeps _ _ h

theorem redispatch_keeps (h : s0.Keeps s) : s0.Keeps (redispatch s) :=
  keeps_foldl _ (fun _ _ ht => feedTiles_keeps _ ht) _ (keeps_foldl _ (fun _ _ ht => reclaimTiles_keeps _ ht) _ h)

theorem beginRun_keeps (tag : Nat) (o : MatrixOp) (pin : Option Nat) (h : s0.Keeps s) : s0.Keeps (beginRun s tag o pin) :=
  setMtx_keeps _ _ h

theorem matrixFails_keeps (tag : Nat) (st : Status) (h : s0.Keeps s) : s0.Keeps (matrixFails s tag st) :=
  keeps_ite h (keeps_ite (prefillBreaks_keeps _ _ h) (finishStage_keeps _ _ _ (keeps_frame h)))

theorem noteMismatch_keeps (p : Nat) (second : Bool) (h : s0.Keeps s) : s0.Keeps (noteMismatch s p second) :=
  regSet_keeps _ _ (bump_keeps _ _ _ _ h)

theorem noteCleared_keeps (p : Nat) (h : s0.Keeps s) : s0.Keeps (noteCleared s p) :=
  keeps_if (fenceUnit_keeps _ _ _) (keeps_frame (bump_keeps _ _ _ _ (bump_keeps _ _ _ _ h)))

theorem passCounts_keeps (tag p flushed : Nat) (unchecked : Bool) (h : s0.Keeps s) :
    s0.Keeps (passCounts s tag p flushed unchecked) :=
  setMtx_keeps _ _ (keeps_if (bump_keeps _ _ _ _) (bump_keeps _ _ _ _ h))

theorem busyCycles_keeps (p cycles : Nat) (h : s0.Keeps s) : s0.Keeps (busyCycles s p cycles) := bump_keeps _ _ _ _ h

theorem addPass_keeps (tag p : Nat) (w : TileWork) (y : List (List Num)) (h : s0.Keeps s) : s0.Keeps (addPass s tag p w y) := by
  unfold addPass
  dsimp only
  split
  · exact setMtx_keeps _ _ h
  · exact h

theorem countRecompute_keeps (tag : Nat) (h : s0.Keeps s) : s0.Keeps (countRecompute s tag) := setMtx_keeps _ _ h

theorem passEnds_keeps (tag p : Nat) (w : TileWork) (x : TilePass) (h : s0.Keeps s) : s0.Keeps (passEnds s tag p w x) := by
  unfold passEnds
  dsimp only
  split
  · exact addPass_keeps _ _ _ _ (passCounts_keeps _ _ _ _ (busyCycles_keeps _ _ h))
  · exact addPass_keeps _ _ _ _ (passCounts_keeps _ _ _ _ (busyCycles_keeps _ _ h))
  · exact noteCleared_keeps _ (countRecompute_keeps _ (addPass_keeps _ _ _ _ (noteMismatch_keeps _ _ (busyCycles_keeps _ _
      h))))
  · exact fenceUnit_keeps _ _ _ (countRecompute_keeps _ (noteMismatch_keeps _ _ (noteMismatch_keeps _ _ (busyCycles_keeps _ _
      h))))

theorem startRun_keeps (tag : Nat) (x : ImageRun) (o : MatrixOp) (h : s0.Keeps s) : s0.Keeps (startRun s tag x o) :=
  beginRun_keeps _ _ _ (setMtx_keeps _ _ h)

theorem withOperation_keeps (tag : Nat) (x : ImageRun) (o : MatrixOp) (h : s0.Keeps s) :
    s0.Keeps (withOperation s tag x o) := by
  unfold withOperation
  split <;> exact keeps_ite (startRun_keeps _ _ _ h) h

theorem arraysLeft_keeps (tag : Nat) (h : s0.Keeps s) : s0.Keeps (arraysLeft s tag) := by
  unfold arraysLeft
  split
  · exact keeps_ite (matrixFails_keeps _ _ h) h
  · exact h

theorem tilePass_keeps (tag p : Nat) (im : ImageRun) (x : TilePass) (h : s0.Keeps s) : s0.Keeps (tilePass s tag p im x) := by
  unfold tilePass
  extract_lets +onlyGivenNames s1
  have h1 : s0.Keeps s1 := redispatch_keeps (withOperation_keeps _ _ _ h)
  split
  · exact arraysLeft_keeps _ h1
  · refine keeps_ite h1 ?_
    split
    · exact matrixFails_keeps _ _ h1
    · exact keeps_ite (matrixFails_keeps _ _ (unitCheck_keeps _ _ _ h1)) (arraysLeft_keeps _ (redispatch_keeps
        (passEnds_keeps _ _ _ _ (unitCheck_keeps _ _ _ h1))))

theorem execTilePassDone_keeps (tag part : Nat) (pass : TilePass) (h : s0.Keeps s) :
    Leads s0 (execTilePassDone tag part pass s) := by
  refine leads_next ?_
  split
  · exact keeps_ite (tilePass_keeps _ _ _ _ h) h
  · exact h

theorem tileEnds_keeps (tag p : Nat) (d : MatrixRun) (w : TileWork) (h : s0.Keeps s) : s0.Keeps (tileEnds s tag p d w) :=
  keeps_ite (setMtx_keeps _ _ h) (setMtx_keeps _ _ h)

theorem tileDone_keeps (tag p : Nat) (h : s0.Keeps s) : s0.Keeps (tileDone s tag p) := by
  unfold tileDone
  extract_lets +onlyGivenNames s1
  have h1 : s0.Keeps s1 := redispatch_keeps h
  split
  · exact h1
  · split
    · exact keeps_ite (redispatch_keeps (tileEnds_keeps _ _ _ _ h1)) h1
    · exact arraysLeft_keeps _ h1

theorem execOutputTileDone_keeps (tag part : Nat) (h : s0.Keeps s) : Leads s0 (execOutputTileDone tag part s) :=
  leads_next (keeps_ite (tileDone_keeps _ _ h) h)

end Sys2Proof.Machine
end

section
/-! What the operations of memory, power, strand and bring-up keep (O60). -/
namespace Sys2Proof.Machine

variable {s0 s : State}

/-! ## MemoryCmds -/

theorem scrub_keeps (a row : Nat) (found : CellCheck) (h : s0.Keeps s) : s0.Keeps (scrub s a row found) := by
  unfold scrub
  refine keeps_ite h ?_
  split
  · exact h
  · extract_lets +onlyGivenNames _ s1
    have h1 : s0.Keeps s1 := bump_keeps _ _ _ _ (keeps_frame h)
    split
    · exact rowCorrected_keeps _ h1
    · exact h1
  · exact keeps_unless keeps_memFrame (bump_keeps _ _ _ _ h)

theorem execScrubRead_keeps (addr row : Nat) (found : CellCheck) (h : s0.Keeps s) : Leads s0 (execScrubRead addr row found s) :=
  leads_next (scrub_keeps _ _ _ h)

theorem listRow_keeps (r : RowId) (h : s0.Keeps s) : s0.Keeps (listRow s r) :=
  keeps_ite h (keeps_ite (norKeep_keeps _ h) (bump_keeps _ _ _ _ h))

theorem rowUnrepaired_keeps (r : RowId) (h : s0.Keeps s) : s0.Keeps (rowUnrepaired s r) := bump_keeps _ _ _ _ h

theorem rowCopied_keeps (r : RowId) (room : Bool) (h : s0.Keeps s) : s0.Keeps (rowCopied s r room) :=
  keeps_ite h (keeps_ite (keeps_ite (listRow_keeps _ (bump_keeps _ _ _ _ (keeps_frame h))) (rowUnrepaired_keeps _
      (keeps_frame h))) (keeps_ite (listRow_keeps _ (bump_keeps _ _ _ _ (regSetFld_keeps _ _ _ _ (keeps_frame h))))
      (rowUnrepaired_keeps _ (keeps_frame h))))

theorem execRowRetireCopyDone_keeps (hbm : Bool) (unit row : Nat) (room : Bool) (h : s0.Keeps s) :
    Leads s0 (execRowRetireCopyDone hbm unit row room s) :=
  leads_next (rowCopied_keeps _ _ h)

theorem execResvEvaluation_keeps (h : s0.Keeps s) : Leads s0 (execResvEvaluation s) :=
  leads_next (keeps_ite (evalGrants_keeps h) h)

theorem execPhyLockLost_keeps (unit : PhyUnit) (h : s0.Keeps s) : Leads s0 (execPhyLockLost unit s) := by
  refine leads_next ?_
  split
  · exact keeps_ite (fenceUnit_keeps _ _ _ h) h
  · exact h

/-! ## Ownership -/

theorem cacheHit_keeps {t : State} (l p : Nat) (store : Option (Nat × List Byte)) (req : LineReq) (h : s0.Keeps s)
    (ht : cacheHit s l p store req = some t) :
    s0.Keeps t := by
  unfold cacheHit at ht
  split at ht
  · cases ht
  · split at ht
    · exact Option.some.inj ht ▸ h
    · split at ht
      · cases ht
      · split at ht
        · exact Option.some.inj ht ▸ h
        · exact Option.some.inj ht ▸ setCache_keeps _ _ h

theorem cacheRequest_keeps (l : Nat) (tid : Tid) (store : Option (Nat × List Byte)) (req : LineReq) (h : s0.Keeps s) :
    s0.Keeps (cacheRequest s l tid store req) := by
  unfold cacheRequest
  refine keeps_ite h ?_
  split
  · exact cacheHit_keeps _ _ _ _ h ‹_›
  · refine keeps_ite h ?_
    split
    · exact partFault_keeps _ _ h
    · exact submitReq_keeps _ _ (setCache_keeps _ _ h)

theorem execRdS_keeps (line : Nat) (tid : Tid) (h : s0.Keeps s) : Leads s0 (execRdS line tid s) :=
  leads_next (cacheRequest_keeps _ _ _ _ h)

theorem execRdO_keeps (line : Nat) (tid : Tid) (store : Option (Nat × List Byte)) (h : s0.Keeps s) :
    Leads s0 (execRdO line tid store s) :=
  leads_next (cacheRequest_keeps _ _ _ _ h)

theorem execUpg_keeps (line : Nat) (tid : Tid) (store : Option (Nat × List Byte)) (h : s0.Keeps s) :
    Leads s0 (execUpg line tid store s) :=
  leads_next (cacheRequest_keeps _ _ _ _ h)

theorem wbEvict_keeps (l : Nat) (tid : Tid) (data : List Byte) (h : s0.Keeps s) : s0.Keeps (wbEvict s l tid data) := by
  unfold wbEvict
  dsimp only
  split
  · exact keeps_ite h (setCache_keeps _ _ h)
  · exact h

theorem writeback_keeps (l : Nat) (tid : Tid) (data : List Byte) (h : s0.Keeps s) : s0.Keeps (writeback s l tid data) := by
  unfold writeback
  refine keeps_ite h ?_
  split
  · exact takeWb_keeps _ _ _ (wbEvict_keeps _ _ _ h) ‹_›
  · exact fenceUnit_keeps _ _ _ h

theorem execWb_keeps (line : Nat) (tid : Tid) (data : List Byte) (h : s0.Keeps s) : Leads s0 (execWb line tid data s) :=
  leads_next (writeback_keeps _ _ _ h)

theorem dropClean_keeps (l p : Nat) (h : s0.Keeps s) : s0.Keeps (dropClean s l p) := setCache_keeps _ _ h

theorem evictNotice_keeps (l : Nat) (tid : Tid) (h : s0.Keeps s) : s0.Keeps (evictNotice s l tid) := by
  unfold evictNotice
  refine keeps_ite h ?_
  extract_lets +onlyGivenNames s1
  have h1 : s0.Keeps s1 := dropClean_keeps _ _ h
  refine keeps_ite (answerTxn_keeps _ _ _ _ h1) ?_
  split
  · exact keeps_ite (setDir_keeps _ _ h1) h1
  · exact setDir_keeps _ _ h1
  · exact h1

theorem execEvict_keeps (line : Nat) (tid : Tid) (h : s0.Keeps s) : Leads s0 (execEvict line tid s) :=
  leads_next (evictNotice_keeps _ _ h)

theorem takeFwdData_keeps (l p : Nat) (h : s0.Keeps s) : s0.Keeps (takeFwdData s l p) := by
  unfold takeFwdData
  split
  · have ht := recvHome_keeps l p _ h ‹_›
    split
    · exact keeps_ite (countStale_keeps _ (setCoh_keeps _ ht)) (answerTxn_keeps _ _ _ _ (setCoh_keeps _ ht))
    · exact answerTxn_keeps _ _ _ _ ht
  · exact h

theorem execFwdData_keeps (line sender : Nat) (h : s0.Keeps s) : Leads s0 (execFwdData line sender s) :=
  leads_next (settleFences_keeps (takeFwdData_keeps _ _ h))

theorem takeAckInv_keeps (l p : Nat) (h : s0.Keeps s) : s0.Keeps (takeAckInv s l p) := by
  unfold takeAckInv
  split
  · have hp1 := recvHome_keeps _ _ _ h ‹_›
    exact settleFences_keeps (answerTxn_keeps _ _ _ _ hp1)
  · exact h

theorem execAckInv_keeps (line sender : Nat) (h : s0.Keeps s) : Leads s0 (execAckInv line sender s) :=
  leads_next (takeAckInv_keeps _ _ h)

theorem lineMeets_keeps (l p : Nat) (fab : FabricSeen) (po : Option Origin) (h : s0.Keeps s) :
    s0.Keeps (lineMeets s l p fab po) :=
  fabricMeets_keeps _ _ _ _ _ _ h

theorem takeGrant_keeps (l : Nat) (tid : Tid) (x : GrantSeen) (h : s0.Keeps s) : s0.Keeps (takeGrant s l tid x) := by
  unfold takeGrant
  split
  · have hp1 := recvCache_keeps _ _ _ h ‹_›
    exact keeps_ite h (settleFences_keeps (setCache_keeps _ _ (keeps_ite hp1 (lineMeets_keeps _ _ _ _ hp1))))
  · exact h

theorem execDataGrant_keeps (line : Nat) (tid : Tid) (seen : GrantSeen) (h : s0.Keeps s) :
    Leads s0 (execDataGrant line tid seen s) :=
  leads_next (takeGrant_keeps _ _ _ h)

theorem takeFwd_keeps (l p : Nat) (keep : Bool) (h : s0.Keeps s) : s0.Keeps (takeFwd s l p keep) := by
  unfold takeFwd
  split
  · have hp1 := recvCache_keeps _ _ _ h ‹_›
    exact answerFwd_keeps _ _ _ _ hp1
  · have hp1 := recvCache_keeps _ _ _ h ‹_›
    exact answerFwd_keeps _ _ _ _ hp1
  · exact recvCache_keeps _ _ _ h ‹_›
  · exact h

theorem execFwdS_keeps (line part : Nat) (h : s0.Keeps s) : Leads s0 (execFwdS line part s) :=
  leads_next (takeFwd_keeps _ _ _ h)

theorem execFwdO_keeps (line part : Nat) (h : s0.Keeps s) : Leads s0 (execFwdO line part s) :=
  leads_next (takeFwd_keeps _ _ _ h)

theorem takeInv_keeps (l p : Nat) (h : s0.Keeps s) : s0.Keeps (takeInv s l p) := by
  unfold takeInv
  split
  · have hp1 := recvCache_keeps _ _ _ h ‹_›
    exact cohSend_keeps _ (setCache_keeps _ _ hp1)
  · exact h

theorem execInv_keeps (line part : Nat) (h : s0.Keeps s) : Leads s0 (execInv line part s) := leads_next (takeInv_keeps _ _ h)

theorem takeWbAck_keeps (l : Nat) (tid : Tid) (h : s0.Keeps s) : s0.Keeps (takeWbAck s l tid) := by
  unfold takeWbAck
  split
  · have hp1 := recvCache_keeps _ _ _ h ‹_›
    exact settleFences_keeps (setCache_keeps _ _ hp1)
  · exact h

theorem execWbAck_keeps (line : Nat) (tid : Tid) (h : s0.Keeps s) : Leads s0 (execWbAck line tid s) :=
  leads_next (takeWbAck_keeps _ _ h)

theorem cellsFound_keeps (l : Nat) (op : IoOp) (found : List (Nat × Nat × CellCheck)) (h : s0.Keeps s) :
    s0.Keeps (cellsFound s l op found) := by
  unfold cellsFound
  refine keeps_foldl _ (fun _ _ ht => ?_) _ h
  refine keeps_ite ht ?_
  split
  · exact ht
  · exact keeps_frame ht
  · exact keeps_frame ht

theorem ioRun_keeps (id t l : Nat) (op : IoOp) (found : List (Nat × Nat × CellCheck)) (h : s0.Keeps s) :
    s0.Keeps (ioRun s id t l op found) := by
  unfold ioRun
  split
  · extract_lets +onlyGivenNames s1
    have h1 : s0.Keeps s1 := cellsFound_keeps _ _ _ h
    split
    · exact ioResult_keeps _ _ (noteRead_keeps _ _ _ h1)
    · exact ioResult_keeps _ _ (memWrite_keeps _ _ (noteParts_keeps _ _ _ h1))
  · exact keeps_ite h (submitReq_keeps _ _ (keeps_ite h (cellsFound_keeps _ _ _ h)))

theorem ioAccess_keeps (id t l : Nat) (op : IoOp) (found : List (Nat × Nat × CellCheck)) (h : s0.Keeps s) :
    s0.Keeps (ioAccess s id t l op found) := by
  unfold ioAccess
  refine keeps_ite h ?_
  split
  · exact setCoh_keeps _ h
  · exact ioRun_keeps _ _ _ _ _ h

theorem execIoAccess_keeps (id tenant line : Nat) (op : IoOp) (found : List (Nat × Nat × CellCheck)) (h : s0.Keeps s) :
    Leads s0 (execIoAccess id tenant line op found s) :=
  leads_next (ioAccess_keeps _ _ _ _ _ h)

theorem nsTransfer_keeps (p near mem len : Nat) (mk : Nat → LineReq) (h : s0.Keeps s) :
    s0.Keeps (nsTransfer s p near mem len mk) := by
  unfold nsTransfer
  refine keeps_ite h ?_
  split
  · exact partFault_keeps _ _ h
  · exact keeps_foldl _ (fun _ _ hu => submitIo_keeps _ _ hu) _ h

theorem execNsFill_keeps (part mem near len : Nat) (h : s0.Keeps s) : Leads s0 (execNsFill part mem near len s) :=
  leads_next (nsTransfer_keeps _ _ _ _ _ h)

theorem execNsDrain_keeps (part near mem len : Nat) (h : s0.Keeps s) : Leads s0 (execNsDrain part near mem len s) :=
  leads_next (nsTransfer_keeps _ _ _ _ _ h)

theorem execFenceInstruction_keeps (part : Nat) (h : s0.Keeps s) : Leads s0 (execFenceInstruction part s) :=
  leads_next (keeps_ite h (settleFences_keeps (setCoh_keeps _ h)))

/-! ## Power -/

theorem powerEvent_keeps (c : EventCode) (detail : Nat) (h : s0.Keeps s) : s0.Keeps (powerEvent s c detail) :=
  raise_keeps _ _ _ _ _ _ h

theorem showLimit_keeps (h : s0.Keeps s) : s0.Keeps (showLimit s) := regSetFld_keeps _ _ _ _ h

theorem setCap_keeps (code src : Nat) (h : s0.Keeps s) : s0.Keeps (setCap s code src) :=
  keeps_ite h (powerEvent_keeps _ _ (showLimit_keeps (regSetFld_keeps _ _ _ _ (regSetFld_keeps _ _ _ _ h))))

theorem capReject_keeps (why counter : Nat) (h : s0.Keeps s) : s0.Keeps (capReject s why counter) :=
  powerEvent_keeps _ _ (bump_keeps _ _ _ _ h)

theorem capJudge_keeps (p : List Byte) (h : s0.Keeps s) : s0.Keeps (capJudge s p) :=
  keeps_ite (capReject_keeps _ _ h) (keeps_ite (bump_keeps _ _ _ _ h) (keeps_ite (capReject_keeps _ _ h) (keeps_ite
      (capReject_keeps _ _ (regSet_keeps _ _ h)) (evalNow_keeps (setCap_keeps _ _ (keeps_frame (regSet_keeps _ _ h)))))))

theorem capAtSeal_keeps (newKey : Bool) (h : s0.Keeps s) : s0.Keeps (capAtSeal s newKey) :=
  keeps_unless (setCap_keeps _ _) (keeps_ite (keeps_frame (regSet_keeps _ _ h)) h)

theorem setMemf_keeps (p duty : Nat → Nat) (h : s0.Keeps s) : s0.Keeps (setMemf s p duty) :=
  keeps_foldl _ (fun _ _ ht => regSet_keeps _ _ ht) _ h

theorem applyGrants_keeps (g : Grants) (h : s0.Keeps s) : s0.Keeps (applyGrants s g) :=
  keeps_foldl _ (fun _ _ ht => retarget_keeps _ ht) _ (setMemf_keeps _ _ (keeps_frame h))

theorem showPower_keeps (m : PowerSample) (h : s0.Keeps s) : s0.Keeps (showPower s m) :=
  keeps_foldl _ (fun _ _ ht => regSet_keeps _ _ ht) _ (peak_keeps _ _ _ _ (regSet_keeps _ _ h))

theorem powerLoop_keeps (m : PowerSample) (h : s0.Keeps s) : s0.Keeps (powerLoop s m) :=
  keeps_if (powerEvent_keeps _ _) (evalNow_keeps (applyGrants_keeps _ (keeps_frame (showPower_keeps _ h))))

theorem execPowerLoopIteration_keeps (m : PowerSample) (h : s0.Keeps s) : Leads s0 (execPowerLoopIteration m s) :=
  leads_next (keeps_ite (powerLoop_keeps _ h) h)

theorem setBrake_keeps (v : Bool) (h : s0.Keeps s) : s0.Keeps (setBrake s v) :=
  keeps_ite h (evalNow_keeps (powerEvent_keeps _ _ (keeps_foldl _ (fun _ _ ht => retarget_keeps _ ht) _ (keeps_if
      (setMemf_keeps _ _) (showLimit_keeps (regSetFld_keeps _ _ _ _ (keeps_frame h)))))))

theorem execPwrbrakeAsserted_keeps (h : s0.Keeps s) : Leads s0 (execPwrbrakeAsserted s) :=
  leads_next (keeps_ite (setBrake_keeps _ h) h)

theorem execPwrbrakeReleased_keeps (h : s0.Keeps s) : Leads s0 (execPwrbrakeReleased s) :=
  leads_next (keeps_ite (setBrake_keeps _ h) h)

/-! ## Strand -/

theorem fecLock_keeps (l : Nat) (fast : Bool) (h : s0.Keeps s) : s0.Keeps (fecLock s l fast) :=
  keeps_ite h (sendLldp_keeps _ _ (identify_keeps _ (regSetFld_keeps _ _ _ _ (setLane_keeps _ _ (keeps_frame h)))))

theorem execFecLock_keeps (lane : Nat) (fast : Bool) (h : s0.Keeps s) : Leads s0 (execFecLock lane fast s) :=
  leads_next (keeps_ite (fecLock_keeps _ _ h) h)

theorem train_keeps (l : Nat) (h : s0.Keeps s) : s0.Keeps (train s l) := emit_keeps _ h

theorem execLaneTrainingRetry_keeps (lane : Nat) (h : s0.Keeps s) : Leads s0 (execLaneTrainingRetry lane s) :=
  leads_next (keeps_ite (train_keeps _ h) h)

theorem execLldpTransmit_keeps (lane : Nat) (h : s0.Keeps s) : Leads s0 (execLldpTransmit lane s) :=
  leads_next (keeps_ite (sendLldp_keeps _ _ h) h)

theorem recordRx_keeps (l : Nat) (csub : Byte) (chassis : List Byte) (psub : Byte) (port : List Byte) (h : s0.Keeps s) :
    s0.Keeps (recordRx s l csub chassis psub port) :=
  keeps_foldl _ (fun _ _ ht => regSet_keeps _ _ ht) _ h

theorem quarantine_keeps (l reason : Nat) (h : s0.Keeps s) : s0.Keeps (quarantine s l reason) :=
  raise_keeps _ _ _ _ _ _ (regSetFld_keeps _ _ _ _ (setLane_keeps _ _ h))

theorem compareId_keeps (l : Nat) (csub : Byte) (chassis : List Byte) (psub : Byte) (port : List Byte) (h : s0.Keeps s) :
    s0.Keeps (compareId s l csub chassis psub port) := by
  unfold compareId
  split
  · exact h
  · dsimp only
    split
    · exact keeps_ite (setLane_keeps _ _ h) (quarantine_keeps _ _ h)
    · exact keeps_ite (quarantine_keeps _ _ h) h
    · exact h

theorem ttlExpiry_keeps (l : Nat) (h : s0.Keeps s) : s0.Keeps (ttlExpiry s l) := keeps_ite (setLane_keeps _ _ h) h

theorem lldpArrives_keeps (l : Nat) (csub : Byte) (chassis : List Byte) (psub : Byte) (port : List Byte) (ttl : Nat)
    (h : s0.Keeps s) :
    s0.Keeps (lldpArrives s l csub chassis psub port ttl) :=
  keeps_ite h (pumpAll_keeps (keeps_if (ttlExpiry_keeps _) (keeps_if (compareId_keeps _ _ _ _ _) (recordRx_keeps _ _ _ _ _
      h))))

theorem execLldpduReceived_keeps (lane : Nat) (csub : Byte) (chassis : List Byte) (psub : Byte) (port : List Byte) (ttl : Nat)
    (h : s0.Keeps s) :
    Leads s0 (execLldpduReceived lane csub chassis psub port ttl s) :=
  leads_next (keeps_ite (lldpArrives_keeps _ _ _ _ _ _ h) h)

theorem execLldpTtlExpiry_keeps (lane : Nat) (h : s0.Keeps s) : Leads s0 (execLldpTtlExpiry lane s) :=
  leads_next (keeps_ite (ttlExpiry_keeps _ h) h)

theorem laneAck_keeps (l : Nat) (h : s0.Keeps s) : s0.Keeps (laneAck s l) :=
  keeps_ite h (pumpAll_keeps (regSetFld_keeps _ _ _ _ (setLane_keeps _ _ h)))

theorem execStrLaneAck_keeps (lane : Nat) (h : s0.Keeps s) : Leads s0 (execStrLaneAck lane s) :=
  leads_next (keeps_ite (laneAck_keeps _ h) h)

theorem laneRetrain_keeps (l : Nat) (h : s0.Keeps s) : s0.Keeps (laneRetrain s l) :=
  keeps_ite h (keeps_if (train_keeps _) (laneDown_keeps _ _ h))

theorem execStrLaneRetrain_keeps (lane : Nat) (h : s0.Keeps s) : Leads s0 (execStrLaneRetrain lane s) :=
  leads_next (keeps_ite (laneRetrain_keeps _ h) h)

theorem execStrandLaneDown_keeps (lane : Nat) (canSend : Bool) (h : s0.Keeps s) :
    Leads s0 (execStrandLaneDown lane canSend s) :=
  leads_next (keeps_ite (laneDown_keeps _ _ h) h)

theorem refLost_keeps (h : s0.Keeps s) : s0.Keeps (refLost s) :=
  keeps_foldl _ (fun _ _ ht => laneDown_keeps _ _ ht) _ (keeps_frame h)

theorem execStrandRefclkLoss_keeps (h : s0.Keeps s) : Leads s0 (execStrandRefclkLoss s) :=
  leads_next (keeps_ite (refLost_keeps h) h)

theorem useClosed_keeps (k : Nat) (use : FlowUse) (st : Nat) (h : s0.Keeps s) : s0.Keeps (useClosed s k use st) := by
  unfold useClosed
  split
  · exact prefillClosed_keeps _ _ h
  · exact discardSeq_keeps _ _ h
  · exact shardGives_keeps _ _ _ _ h
  · exact loadFlowClosed_keeps _ _ _ h
  · exact h

theorem seqOpen_keeps (k : Nat) (f : Flow) (m : List Byte) (h : s0.Keeps s) : s0.Keeps (seqOpen s k f m) := by
  unfold seqOpen
  refine keeps_ite (useClosed_keeps _ _ _ (abandonFlow_keeps _ _ h)) ?_
  split
  · rename_i hp1
    replace hp1 := keeps_fst hp1 (openSeq_keeps _ _ _ _ _ _ _ _ _ _ h)
    exact refuseFlow_keeps _ _ hp1
  · rename_i hp1
    replace hp1 := keeps_fst hp1 (openSeq_keeps _ _ _ _ _ _ _ _ _ _ h)
    split
    · exact keeps_ite hp1 (setFlow_keeps _ hp1)
    · exact hp1

theorem kvBlock_keeps (k : Nat) (f : Flow) (m : List Byte) (h : s0.Keeps s) : s0.Keeps (kvBlock s k f m) := by
  unfold kvBlock
  split
  · exact keeps_ite (discardSeq_keeps _ _ (abandonFlow_keeps _ _ h)) (keeps_if (sendFin_keeps _) (takeBlock_keeps _ _ _ h))
  · exact useClosed_keeps _ _ _ (abandonFlow_keeps _ _ h)

theorem waitTag_keeps (k : Nat) (m : List Byte) (h : s0.Keeps s) : s0.Keeps (waitTag s k m) :=
  setWorks_keeps _ _ (keeps_frame h)

theorem shardServe_keeps (k : Nat) (f : Flow) (m : List Byte) (h : s0.Keeps s) : s0.Keeps (shardServe s k f m) := by
  unfold shardServe
  split
  · exact keeps_ite (refuseFlow_keeps _ _ h) (sendMessage_keeps _ _ h)
  · split
    · exact waitTag_keeps _ _ h
    · exact runShard_keeps _ _ _ _ _ (keeps_ite (admitFlow_keeps _ _ h) h)

theorem shardQuery_keeps (k : Nat) (f : Flow) (m : List Byte) (h : s0.Keeps s) : s0.Keeps (shardQuery s k f m) :=
  keeps_ite (abandonFlow_keeps _ _ h) (shardServe_keeps _ _ _ h)

theorem shardAnswer_keeps (k tag num : Nat) (m : List Byte) (h : s0.Keeps s) : s0.Keeps (shardAnswer s k tag num m) := by
  unfold shardAnswer
  split
  · exact h
  · refine keeps_ite h ?_
    refine keeps_ite (keeps_ite (shardGives_keeps _ _ _ _ h) h) ?_
    split
    · exact shardGives_keeps _ _ _ _ h
    · exact shardGives_keeps _ _ _ _ (abandonFlow_keeps _ _ h)

theorem weightOpen_keeps (k : Nat) (f : Flow) (m : List Byte) (h : s0.Keeps s) : s0.Keeps (weightOpen s k f m) := by
  unfold weightOpen
  dsimp only
  split
  · exact refuseFlow_keeps _ _ h
  · split
    · exact waitTag_keeps _ _ h
    · exact weightAnswer_keeps _ _ _ _ (admitFlow_keeps _ _ (setRequest_keeps _ _ h))

theorem weightReq_keeps (k : Nat) (f : Flow) (m : List Byte) (h : s0.Keeps s) : s0.Keeps (weightReq s k f m) := by
  unfold weightReq
  refine keeps_ite (abandonFlow_keeps _ _ h) ?_
  split
  · exact weightOpen_keeps _ _ _ h
  · exact weightAnswer_keeps _ _ _ _ h
  · exact h

theorem filterRequests_keeps (g : Nat × Request → Bool) (h : s0.Keeps s) :
    s0.Keeps { s with requests := s.requests.filter g } := by
  refine keeps_trans h ⟨fun hw => ?_, rfl, rfl⟩
  rw [wf_iff] at hw ⊢
  obtain ⟨hmem, hregs, hforce, hrequests⟩ := hw
  exact ⟨hmem, hregs, hforce, risingFrom_filter g _ _ hrequests⟩

theorem orphanRequests_keeps (h : s0.Keeps s) : s0.Keeps (orphanRequests s) := by
  refine keeps_frame (mapRequests_keeps _ (fun p => ?_) (filterRequests_keeps _ h))
  split <;> rfl

theorem statusArrives_keeps (k : Nat) (f : Flow) (m : List Byte) (h : s0.Keeps s) : s0.Keeps (statusArrives s k f m) := by
  unfold statusArrives
  split
  · exact shardAnswer_keeps _ _ _ _ h
  · exact sourceFails_keeps _ _ h
  · exact prefillBreaks_keeps _ _ h
  · exact h

theorem deliver_keeps (k : Nat) (m : List Byte) (h : s0.Keeps s) : s0.Keeps (deliver s k m) := by
  unfold deliver
  split
  · exact h
  · split
    · exact seqOpen_keeps _ _ _ h
    · exact kvBlock_keeps _ _ _ h
    · exact shardQuery_keeps _ _ _ h
    · split
      · exact shardAnswer_keeps _ _ _ _ h
      · exact h
    · exact weightReq_keeps _ _ _ h
    · split
      · exact weightData_keeps _ _ _ h
      · exact h
    · exact statusArrives_keeps _ _ _ h

theorem peerDone_keeps (k : Nat) (h : s0.Keeps s) : s0.Keeps (peerDone s k) := by
  unfold peerDone
  split
  · exact keeps_ite h (sendFin_keeps _ h)
  · exact h

theorem useDone_keeps (use : FlowUse) (h : s0.Keeps s) : s0.Keeps (useDone s use) := by
  unfold useDone
  split
  · split
    · exact keeps_ite (prefillEnds_keeps _ _ h) (prefillClosed_keeps _ _ h)
    · exact h
  · exact discardSeq_keeps _ _ h
  · exact shardGives_keeps _ _ _ _ h
  · split
    · split
      · exact loadFlowClosed_keeps _ _ _ h
      · exact h
    · exact h
  · exact h

theorem flowEvent_keeps (e : FlowEvent) (h : s0.Keeps s) : s0.Keeps (flowEvent s e) := by
  unfold flowEvent
  split
  · exact deliver_keeps _ _ h
  · exact useClosed_keeps _ _ _ h
  · exact useClosed_keeps _ _ _ h
  · split
    · split
      · exact prefillAcked_keeps _ _ h
      · exact bindLoad_keeps _ _ h
      · exact h
    · exact h
  · exact peerDone_keeps _ h
  · exact useDone_keeps _ h

theorem retryTags_keeps (h : s0.Keeps s) : s0.Keeps (retryTags s) := by
  unfold retryTags
  refine keeps_foldl _ (fun _ _ ht => ?_) _ (keeps_frame h)
  split
  · exact keeps_ite (shardServe_keeps _ _ _ ht) (weightReq_keeps _ _ _ ht)
  · exact ht

theorem retryHeld_keeps (n : Nat) (h : s0.Keeps s) : s0.Keeps (retryHeld n s) := by
  induction n generalizing s with
  | zero => exact h
  | succ n ih =>
    unfold retryHeld
    split
    · exact h
    · exact keeps_ite h (ih (keeps_foldl _ (fun _ _ ht => flowEvent_keeps _ ht) _ (takeOpen_keeps _ _ _ (keeps_frame h))))

theorem strandSettle_keeps (h : s0.Keeps s) : s0.Keeps (strandSettle s) :=
  pumpAll_keeps (retryHeld_keeps _ (keeps_unless retryTags_keeps (orphanRequests_keeps (finOrphans_keeps h))))

theorem arrive_keeps (l : Nat) (b : List Byte) (fits : Hdr → Bool) (h : s0.Keeps s) : s0.Keeps (arrive s l b fits) :=
  keeps_unless (fun ht => settle_keeps (strandSettle_keeps (keeps_foldl _ (fun _ _ hu => flowEvent_keeps _ hu) _ ht)))
      (frameArrives_keeps _ _ _ h)

theorem execFlowOpen_keeps (lane : Nat) (frame : List Byte) (h : s0.Keeps s) : Leads s0 (execFlowOpen lane frame s) :=
  leads_next (arrive_keeps _ _ _ h)

theorem execAcceptFrame_keeps (lane : Nat) (frame : List Byte) (h : s0.Keeps s) : Leads s0 (execAcceptFrame lane frame s) :=
  leads_next (arrive_keeps _ _ _ h)

theorem execRefuseFrame_keeps (lane : Nat) (frame : List Byte) (h : s0.Keeps s) : Leads s0 (execRefuseFrame lane frame s) :=
  leads_next (arrive_keeps _ _ _ h)

theorem execDataFrame_keeps (lane : Nat) (frame : List Byte) (h : s0.Keeps s) : Leads s0 (execDataFrame lane frame s) :=
  leads_next (arrive_keeps _ _ _ h)

theorem execAckFrame_keeps (lane : Nat) (frame : List Byte) (h : s0.Keeps s) : Leads s0 (execAckFrame lane frame s) :=
  leads_next (arrive_keeps _ _ _ h)

theorem execFinFrame_keeps (lane : Nat) (frame : List Byte) (h : s0.Keeps s) : Leads s0 (execFinFrame lane frame s) :=
  leads_next (arrive_keeps _ _ _ h)

theorem execKeepaliveFrame_keeps (lane : Nat) (frame : List Byte) (h : s0.Keeps s) :
    Leads s0 (execKeepaliveFrame lane frame s) :=
  leads_next (arrive_keeps _ _ _ h)

theorem execResetFrame_keeps (lane : Nat) (frame : List Byte) (h : s0.Keeps s) : Leads s0 (execResetFrame lane frame s) :=
  leads_next (arrive_keeps _ _ _ h)

theorem execSeqOpen_keeps (lane : Nat) (frame : List Byte) (h : s0.Keeps s) : Leads s0 (execSeqOpen lane frame s) :=
  leads_next (arrive_keeps _ _ _ h)

theorem execKvBlock_keeps (lane : Nat) (frame : List Byte) (h : s0.Keeps s) : Leads s0 (execKvBlock lane frame s) :=
  leads_next (arrive_keeps _ _ _ h)

theorem execShardQuery_keeps (lane : Nat) (frame : List Byte) (h : s0.Keeps s) : Leads s0 (execShardQuery lane frame s) :=
  leads_next (arrive_keeps _ _ _ h)

theorem execShardResult_keeps (lane : Nat) (frame : List Byte) (h : s0.Keeps s) : Leads s0 (execShardResult lane frame s) :=
  leads_next (arrive_keeps _ _ _ h)

theorem execWeightReq_keeps (lane : Nat) (frame : List Byte) (h : s0.Keeps s) : Leads s0 (execWeightReq lane frame s) :=
  leads_next (arrive_keeps _ _ _ h)

theorem execWeightData_keeps (lane : Nat) (frame : List Byte) (h : s0.Keeps s) : Leads s0 (execWeightData lane frame s) :=
  leads_next (arrive_keeps _ _ _ h)

theorem execStatusMsg_keeps (lane : Nat) (frame : List Byte) (h : s0.Keeps s) : Leads s0 (execStatusMsg lane frame s) :=
  leads_next (arrive_keeps _ _ _ h)

theorem discard_keeps (l : Nat) (why : FrameFault) (corrected : Nat) (h : s0.Keeps s) :
    s0.Keeps (discard s l why corrected) := by
  unfold discard
  refine keeps_ite h ?_
  extract_lets +onlyGivenNames s1
  have h1 : s0.Keeps s1 := bump_keeps _ _ _ _ h
  split
  · exact laneCount_keeps _ _ h1
  · exact laneCount_keeps _ _ h1
  · exact keeps_ite (laneCount_keeps _ _ h1) (foreign_keeps _ h1)
  · exact foreign_keeps _ h1

theorem execStrandFrameDiscard_keeps (lane : Nat) (why : FrameFault) (corrected : Nat) (h : s0.Keeps s) :
    Leads s0 (execStrandFrameDiscard lane why corrected s) :=
  leads_next (keeps_ite (discard_keeps _ _ _ h) h)

theorem retransmit_keeps (k seq : Nat) (h : s0.Keeps s) : s0.Keeps (retransmit s k seq) := by
  unfold retransmit
  split
  · exact h
  · split
    · exact h
    · exact keeps_ite h (keeps_ite (setFlow_keeps _ h) (bump_keeps _ _ _ _ (setFlow_keeps _ (putFrame_keeps _ _ _ h))))

theorem execRetransmitTimeout_keeps (mine : Bool) (peer num seq : Nat) (h : s0.Keeps s) :
    Leads s0 (execRetransmitTimeout mine peer num seq s) :=
  leads_next (keeps_ite (retransmit_keeps _ _ h) h)

theorem execAckDelay_keeps (mine : Bool) (peer num : Nat) (h : s0.Keeps s) : Leads s0 (execAckDelay mine peer num s) := by
  refine leads_next ?_
  refine keeps_ite h ?_
  split
  · exact keeps_ite (control_keeps _ _ _ h) h
  · exact h

theorem keepHeld_keeps (x : Nat × List Byte) (h : s0.Keeps s) : s0.Keeps (keepHeld s x) := control_keeps _ _ _ h

theorem execKeepaliveTimer_keeps (h : s0.Keeps s) : Leads s0 (execKeepaliveTimer s) := by
  refine leads_next ?_
  refine keeps_ite h ?_
  extract_lets +onlyGivenNames s1
  have h1 : s0.Keeps s1 := by
    dsimp only [s1]
    refine keeps_foldl _ (fun _ _ hu => ?_) _ h
    split
    · exact control_keeps _ _ _ hu
    · exact hu
  exact settle_keeps (strandSettle_keeps (keeps_foldl _ (fun _ _ hu => keepHeld_keeps _ hu) _ h1))

theorem peerLost_keeps (peer : Nat) (h : s0.Keeps s) : s0.Keeps (peerLost s peer) :=
  settle_keeps (strandSettle_keeps (keeps_foldl _ (fun _ _ ht => useClosed_keeps _ _ _ ht) _ (raise_keeps _ _ _ _ _ _
      (keeps_foldl _ (fun _ _ ht => abandonFlow_keeps _ _ ht) _ (setLost_keeps _ _ h)))))

theorem execPeerLossTimeout_keeps (peer : Nat) (h : s0.Keeps s) : Leads s0 (execPeerLossTimeout peer s) :=
  leads_next (keeps_ite (peerLost_keeps _ h) h)

theorem execOpenRetry_keeps (num : Nat) (h : s0.Keeps s) : Leads s0 (execOpenRetry num s) := by
  refine leads_next ?_
  refine keeps_ite h ?_
  split
  · refine keeps_ite h ?_
    split
    · exact setFlow_keeps _ (putFrame_keeps _ _ _ h)
    · exact h
  · exact h

theorem abandonFor_keeps (tag : Nat) (h : s0.Keeps s) : s0.Keeps (abandonFor s tag) := by
  unfold abandonFor
  extract_lets +onlyGivenNames _ _ _ _ s2
  have h2 : s0.Keeps s2 := keeps_foldl _ (fun _ _ ht => prefillFails_keeps _ _ ht) _ (keeps_foldl _ (fun _ _ ht =>
      abandonFlow_keeps _ _ ht) _ h)
  split
  · split
    · exact discardSeq_keeps _ _ h2
    · exact h2
  · exact h2

/-! ## Rack -/

theorem planStatus_keeps (st reason entry : Nat) (h : s0.Keeps s) : s0.Keeps (planStatus s st reason entry) :=
  regSet_keeps _ _ h

theorem planRead_keeps (h : s0.Keeps s) : s0.Keeps (planRead s) := backOwner_keeps _ _ (askOwner_keeps _ _ h)

theorem planLoad_keeps (b : List Byte) (st : ReadStatus) (h : s0.Keeps s) : s0.Keeps (planLoad s b st) := by
  unfold planLoad
  refine keeps_ite (planStatus_keeps _ _ _ h) ?_
  refine keeps_ite (planStatus_keeps _ _ _ h) ?_
  extract_lets +onlyGivenNames s1
  have h1 : s0.Keeps s1 := planRead_keeps h
  split
  · exact planStatus_keeps _ _ _ (hostPoison_keeps _ _ h1)
  · exact planStatus_keeps _ _ _ (draw_keeps h1)
  · split
    · exact planStatus_keeps _ _ _ h1
    · exact planStatus_keeps _ _ _ (regSet_keeps _ _ (keeps_frame h1))

theorem execStrPlanLoad_keeps (w : Word) (blob : List Byte) (st : ReadStatus) (h : s0.Keeps s) :
    Leads s0 (execStrPlanLoad w blob st s) :=
  leads_next (keeps_ite (planLoad_keeps _ _ h) h)

theorem setEjectState_keeps (v : Nat) (h : s0.Keeps s) : s0.Keeps (setEjectState s v) := regSetFld_keeps _ _ _ _ h

theorem failWaiting_keeps (st : Status) (h : s0.Keeps s) : s0.Keeps (failWaiting s st) := by
  unfold failWaiting
  refine keeps_foldl _ (fun _ _ ht => ?_) _ (keeps_frame h)
  split
  · exact sourceFails_keeps _ _ ht
  · exact useClosed_keeps _ _ _ ht

theorem holdEjected_keeps (h : s0.Keeps s) : s0.Keeps (holdEjected s) := keeps_frame (enterHeld_keeps _ _ h)

theorem ejectStart_keeps (h : s0.Keeps s) : s0.Keeps (ejectStart s) :=
  settle_keeps (strandSettle_keeps (stopJobs_keeps _ (failWaiting_keeps _ (keeps_ite (holdEjected_keeps (keeps_if
      (addPending_keeps _) (setEjectState_keeps _ h))) (keeps_frame (keeps_if (addPending_keeps _) (setEjectState_keeps _
      h)))))))

theorem execEjectAsserted_keeps (h : s0.Keeps s) : Leads s0 (execEjectAsserted s) :=
  leads_next (keeps_ite h (keeps_unless ejectStart_keeps (regSetFld_keeps _ _ _ _ h)))

theorem resetFlows_keeps (st : Status) (h : s0.Keeps s) : s0.Keeps (resetFlows s st) :=
  settle_keeps (strandSettle_keeps (keeps_foldl _ (fun _ _ ht => useClosed_keeps _ _ _ ht) _ (keeps_foldl _ (fun _ _ ht =>
      abandonFlow_keeps _ _ ht) _ h)))

theorem execQuiesceFlowReset_keeps (h : s0.Keeps s) : Leads s0 (execQuiesceFlowReset s) :=
  leads_next (keeps_ite (resetFlows_keeps _ h) h)

theorem quiesceFail_keeps (h : s0.Keeps s) : s0.Keeps (quiesceFail s) := by
  unfold quiesceFail
  dsimp only
  have hended := settle_keeps (strandSettle_keeps (endAll_keeps .departing h))
  exact keeps_ite (addPending_keeps _ hended) hended

theorem execQuiesceRequestFail_keeps (h : s0.Keeps s) : Leads s0 (execQuiesceRequestFail s) :=
  leads_next (keeps_ite (quiesceFail_keeps h) h)

theorem quiesceEnd_keeps (h : s0.Keeps s) : s0.Keeps (quiesceEnd s) :=
  setEjectState_keeps _ (withdraw_keeps _ (withdraw_keeps _ (keeps_ite (holdEjected_keeps h) h)))

theorem execQuiesceHeld_keeps (h : s0.Keeps s) : Leads s0 (execQuiesceHeld s) := leads_next (keeps_ite (quiesceEnd_keeps h) h)

theorem ejectRelease_keeps (h : s0.Keeps s) : s0.Keeps (ejectRelease s) :=
  keeps_if (setEjectState_keeps _) (regSetFld_keeps _ _ _ _ h)

theorem execEjectReleased_keeps (h : s0.Keeps s) : Leads s0 (execEjectReleased s) :=
  leads_next (keeps_ite (ejectRelease_keeps h) h)

/-! ## Hallmark -/

theorem hmkIgnore_keeps (h : s0.Keeps s) : s0.Keeps (hmkIgnore s) := bump_keeps _ _ _ _ h

theorem hmkMove_keeps (st : HmkState) (h : s0.Keeps s) : s0.Keeps (hmkMove s st) := hmkEvent_keeps (keeps_frame h)

theorem sealedWrite_keeps (k : Nat) (w : Word) (h : s0.Keeps s) : s0.Keeps (sealedWrite s k w) :=
  keeps_ite (hmkIgnore_keeps h) (keeps_if keeps_frame (regSet_keeps _ _ h))

theorem checkView_keeps (c : HmkCheck) (h : s0.Keeps s) : s0.Keeps (checkView s c) :=
  keeps_foldl _ (fun _ _ ht => regSet_keeps _ _ (regSet_keeps _ _ ht)) _ h

theorem checkStart_keeps (w : Word) (h : s0.Keeps s) : s0.Keeps (checkStart s w) :=
  keeps_unless (hmkMove_keeps _) (keeps_frame h)

theorem sealWrite_keeps (w : Word) (h : s0.Keeps s) : s0.Keeps (sealWrite s w) :=
  keeps_ite (hmkIgnore_keeps h) (keeps_ite (hmkEvent_keeps (regSet_keeps _ _ (keeps_frame h))) (checkStart_keeps _ h))

theorem execHmkSeal_keeps (w : Word) (h : s0.Keeps s) : Leads s0 (execHmkSeal w s) :=
  leads_next (keeps_ite (sealWrite_keeps _ h) h)

theorem pruneGroups_keeps (h : s0.Keeps s) : s0.Keeps (pruneGroups s) := keeps_foldl _ (fun _ _ ht => regSet_keeps _ _ ht) _ h

theorem sealForce_keeps (hm : Hallmark) (h : s0.Keeps s) :
    s0.Keeps { s with force := s.regs.filter (fun p => isSealed p.1), hmk := hm } := by
  refine keeps_trans h ⟨fun hw => ?_, rfl, rfl⟩
  rw [wf_iff] at hw ⊢
  obtain ⟨hmem, hregs, hforce, hrequests⟩ := hw
  exact ⟨hmem, hregs, mapWf_filter _ _ _ hregs, hrequests⟩

theorem commitSeal_keeps (gen : BitVec 16) (h : s0.Keeps s) : s0.Keeps (commitSeal s gen) :=
  capAtSeal_keeps _ (pruneGroups_keeps (regSet_keeps _ _ (sealForce_keeps _ (pinNames_keeps _ h))))

theorem planForce_keeps (h : s0.Keeps s) : s0.Keeps (planForce s) :=
  identifyAll_keeps (regSet_keeps _ _ (regSet_keeps _ _ (keeps_frame h)))

theorem reportLost_keeps (h : s0.Keeps s) : s0.Keeps (reportLost s) :=
  keeps_foldl _ (fun _ _ ht => keeps_foldl _ (fun _ _ hu => keeps_ite (evtReport_keeps _ hu) hu) _ ht) _ h

theorem sealPass_keeps (c : HmkCheck) (h : s0.Keeps s) : s0.Keeps (sealPass s c) :=
  keeps_ite (settle_keeps (evalNow_keeps (hmkEvent_keeps (commitSeal_keeps _ h)))) (settle_keeps (evalNow_keeps
      (reportLost_keeps (hmkMove_keeps _ (planForce_keeps (commitSeal_keeps _ h))))))

theorem sealFail_keeps (c : HmkCheck) (reason loc : Nat) (h : s0.Keeps s) : s0.Keeps (sealFail s c reason loc) :=
  keeps_ite (hmkEvent_keeps (regSet_keeps _ _ (keeps_frame h))) (hmkMove_keeps _ (regSet_keeps _ _ (keeps_frame h)))

theorem checkDone_keeps (h : s0.Keeps s) : s0.Keeps (checkDone s) := by
  unfold checkDone
  split
  · exact h
  · refine keeps_ite h ?_
    split
    · exact sealFail_keeps _ _ _ h
    · exact sealPass_keeps _ h

theorem execHmkCheckDone_keeps (h : s0.Keeps s) : Leads s0 (execHmkCheckDone s) := leads_next (keeps_ite (checkDone_keeps h) h)

theorem enterOpen_keeps (h : s0.Keeps s) : s0.Keeps (enterOpen s) := hmkMove_keeps _ (keeps_frame (strandStop_keeps h))

theorem drainStart_keeps (h : s0.Keeps s) : s0.Keeps (drainStart s) :=
  settle_keeps (strandSettle_keeps (failWaiting_keeps _ (drainPools_keeps (keeps_frame h))))

theorem reopenAll_keeps (h : s0.Keeps s) : s0.Keeps (reopenAll s) := hmkMove_keeps _ (keeps_frame h)

theorem openWrite_keeps (h : s0.Keeps s) : s0.Keeps (openWrite s) := by
  unfold openWrite
  split
  · exact reopenAll_keeps h
  · exact keeps_ite (hmkIgnore_keeps h) (reopenAll_keeps h)
  · exact keeps_ite (hmkIgnore_keeps h) (drainStart_keeps h)
  · exact hmkIgnore_keeps h

theorem execOpenAll_keeps (h : s0.Keeps s) : Leads s0 (execOpenAll s) := leads_next (keeps_ite (openWrite_keeps h) h)

theorem execDrainComplete_keeps (h : s0.Keeps s) : Leads s0 (execDrainComplete s) :=
  leads_next (keeps_ite (enterOpen_keeps h) h)

theorem drainExpire_keeps (h : s0.Keeps s) : s0.Keeps (drainExpire s) :=
  enterOpen_keeps (stopJobs_keeps _ (resetFlows_keeps _ (keeps_foldl _ (fun _ _ ht => endRequest_keeps _ _ _ ht) _
      (abortPools_keeps h))))

theorem execHmkDrainX_keeps (h : s0.Keeps s) : Leads s0 (execHmkDrainX s) := leads_next (keeps_ite (drainExpire_keeps h) h)

theorem openTenant_keeps (t : Nat) (h : s0.Keeps s) : s0.Keeps (openTenant s t) := keeps_ite (keeps_frame h) (hmkIgnore_keeps h)

theorem execOpenTenant_keeps (t : Nat) (h : s0.Keeps s) : Leads s0 (execOpenTenant t s) :=
  leads_next (keeps_ite (openTenant_keeps _ (regSetFld_keeps _ _ _ _ h)) h)

theorem hmkCtrlWrite_keeps (w : Word) (h : s0.Keeps s) : s0.Keeps (hmkCtrlWrite s w) :=
  keeps_if (openTenant_keeps _) (keeps_if openWrite_keeps (regSetFld_keeps _ _ _ _ h))

/-! ## HostAttach -/

theorem abandonRequest_keeps (tag : Nat) (h : s0.Keeps s) : s0.Keeps (abandonRequest s tag) :=
  removeRequest_keeps _ _ (dropJobs_keeps _ (abandonFor_keeps _ h))

theorem resetSetup_keeps (fn : FnId) (h : s0.Keeps s) : s0.Keeps (resetSetup s fn) :=
  setEvt_keeps _ _ (keeps_frame (regsFilter_keeps _ (evtDrop_keeps _ h)))

theorem dropReads_keeps (fn : FnId) (h : s0.Keeps s) : s0.Keeps (dropReads s fn) :=
  forgetPages_keeps _ _ (freeReads_keeps _ _ h)

theorem flrOne_keeps (fn : FnId) (h : s0.Keeps s) : s0.Keeps (flrOne s fn) :=
  emit_keeps _ (resetSetup_keeps _ (dropReads_keeps _ (keeps_foldl _ (fun _ _ ht => abandonRequest_keeps _ ht) _ h)))

theorem afterReset_keeps (h : s0.Keeps s) : s0.Keeps (afterReset s) := keeps_ite (settle_keeps (strandSettle_keeps h)) h

theorem execVfFlr_keeps (port vf : Nat) (h : s0.Keeps s) : Leads s0 (execVfFlr port vf s) :=
  leads_next (keeps_ite (afterReset_keeps (flrOne_keeps _ h)) h)

theorem clearVfs_keeps (port : Nat) (h : s0.Keeps s) : s0.Keeps (clearVfs s port) :=
  setPort_keeps _ _ (keeps_foldl _ (fun _ _ ht => keeps_ite (flrOne_keeps _ ht) ht) _ h)

theorem stopPortJobs_keeps (port : Nat) (h : s0.Keeps s) : s0.Keeps (stopPortJobs s port) :=
  keeps_foldl _ (fun _ _ ht => stopJob_keeps _ _ ht) _ h

theorem flrPf_keeps (port : Nat) (h : s0.Keeps s) : s0.Keeps (flrPf s port) :=
  setPort_keeps _ _ (flrOne_keeps _ (stopPortJobs_keeps _ (clearVfs_keeps _ h)))

theorem execPfFlr_keeps (port : Nat) (h : s0.Keeps s) : Leads s0 (execPfFlr port s) :=
  leads_next (keeps_ite (afterReset_keeps (flrPf_keeps _ h)) h)

theorem execVfEnableClear_keeps (port : Nat) (h : s0.Keeps s) : Leads s0 (execVfEnableClear port s) :=
  leads_next (keeps_ite (afterReset_keeps (clearVfs_keeps _ h)) h)

theorem execVfEnableSet_keeps (port numVfs : Nat) (h : s0.Keeps s) : Leads s0 (execVfEnableSet port numVfs s) :=
  leads_next (keeps_ite (setPort_keeps _ _ h) h)

theorem linkEvent_keeps (port cause : Nat) (h : s0.Keeps s) : s0.Keeps (linkEvent s port cause) := raise_keeps _ _ _ _ _ _ h

theorem portDown_keeps (port cause : Nat) (h : s0.Keeps s) : s0.Keeps (portDown s port cause) :=
  afterReset_keeps (linkEvent_keeps _ _ (regSetFld_keeps _ _ _ _ (setAtc_keeps _ _ (setPort_keeps _ _ (flrPf_keeps _
      (bump_keeps _ _ _ _ (setPort_keeps _ _ h)))))))

theorem execLinkDown_keeps (port : Nat) (h : s0.Keeps s) : Leads s0 (execLinkDown port s) :=
  leads_next (keeps_ite (portDown_keeps _ _ h) h)

theorem execHotReset_keeps (port : Nat) (h : s0.Keeps s) : Leads s0 (execHotReset port s) :=
  leads_next (keeps_ite (portDown_keeps _ _ h) h)

theorem perst_keeps (port : Nat) (h : s0.Keeps s) : s0.Keeps (perst s port) :=
  keeps_ite h (setPort_keeps _ _ (keeps_ite (portDown_keeps _ _ h) (keeps_ite (linkEvent_keeps _ _ h) h)))

theorem execPerstAssert_keeps (port : Nat) (h : s0.Keeps s) : Leads s0 (execPerstAssert port s) :=
  leads_next (keeps_ite (perst_keeps _ h) h)

theorem portUp_keeps (port speed width : Nat) (cfg : PortConfig) (h : s0.Keeps s) : s0.Keeps (portUp s port speed width cfg) :=
  keeps_if (linkEvent_keeps _ _) (regSetFld_keeps _ _ _ _ (setPort_keeps _ _ h))

theorem execLinkUp_keeps (port speed width : Nat) (cfg : PortConfig) (h : s0.Keeps s) :
    Leads s0 (execLinkUp port speed width cfg s) :=
  leads_next (keeps_ite (portUp_keeps _ _ _ _ h) h)

theorem releasePending_keeps (fn : FnId) (h : s0.Keeps s) : s0.Keeps (releasePending s fn) :=
  keeps_foldl _ (fun _ _ ht => keeps_ite ht (sendMsix_keeps _ _ (setFunc_keeps _ _ ht))) _ h

theorem wake_keeps (fn : FnId) (h : s0.Keeps s) : s0.Keeps (wake s fn) :=
  settle_keeps (evtResume_keeps _ (releasePending_keeps _ (keeps_foldl _ (fun _ _ ht => retryChunks_keeps _ ht) _ (keeps_if
      (keeps_foldl _ (fun _ _ hu => jobAsk_keeps _ (jobFlush_keeps _ hu)) _) (keeps_foldl _ (fun _ _ ht => endRequest_keeps _
      _ _ ht) _ (joinReads_keeps _ _ (setFunc_keeps _ _ h)))))))

theorem execD3hotTransition_keeps (port tenant : Nat) (enter : Bool) (h : s0.Keeps s) :
    Leads s0 (execD3hotTransition port tenant enter s) :=
  leads_next (keeps_ite h (keeps_ite (setFunc_keeps _ _ h) (wake_keeps _ h)))

theorem invalidate_keeps (fn : FnId) (id : Nat) (h : s0.Keeps s) : s0.Keeps (invalidate s fn id) :=
  answerInvals_keeps _ (forgetPages_keeps _ _ (setPort_keeps _ _ h))

theorem execAtsInvalidateRequest_keeps (port tenant id : Nat) (h : s0.Keeps s) :
    Leads s0 (execAtsInvalidateRequest port tenant id s) :=
  leads_next (keeps_ite (invalidate_keeps _ _ h) h)

/-! ## BringUp -/

theorem afterLoss_keeps (h : s0.Keeps s) : s0.Keeps (afterLoss s) := ⟨fun _ => rfl, h.2.1, h.2.2⟩

theorem loseAll_keeps (h : s0.Keeps s) : s0.Keeps (loseAll s) :=
  keeps_if (emit_keeps _) (regSetFld_keeps _ _ _ _ (afterLoss_keeps h))

theorem setUnit_keeps (kind n : Nat) (h : s0.Keeps s) : s0.Keeps (setUnit s kind n) :=
  keeps_foldl _ (fun _ _ ht => regSet_keeps _ _ ht) _ h

theorem bothEnds_keeps (h : s0.Keeps s) : s0.Keeps (bothEnds s) := by
  unfold bothEnds
  refine keeps_foldl _ (fun _ _ ht => ?_) _ h
  refine keeps_foldl _ (fun _ _ hu => ?_) _ ht
  split
  · exact keeps_ite hu (setUnit_keeps _ _ hu)
  · exact hu

theorem islandBits_keeps (h : s0.Keeps s) : s0.Keeps (islandBits s) :=
  keeps_foldl _ (fun _ _ ht => keeps_foldl _ (fun _ _ hu => setUnit_keeps _ _ hu) _ ht) _ h

theorem testChannel_keeps (f : Nat) (r : FacetReport) (c : Nat) (h : s0.Keeps s) : s0.Keeps (testChannel s f r c) :=
  keeps_foldl _ (fun _ _ ht => emit_keeps _ ht) _ (keeps_frame (regSet_keeps _ _ (regSet_keeps _ _ h)))

theorem testDevices_keeps (f : Nat) (r : FacetReport) (h : s0.Keeps s) : s0.Keeps (testDevices s f r) :=
  keeps_foldl _ (fun _ _ ht => testChannel_keeps _ _ _ ht) _ (regSet_keeps _ _ h)

theorem testUnits_keeps (b : BootReport) (h : s0.Keeps s) : s0.Keeps (testUnits s b) :=
  islandBits_keeps (bothEnds_keeps (keeps_foldl _ (fun _ _ ht => testDevices_keeps _ _ (regSet_keeps _ _ (regSet_keeps _ _
      ht))) _ h))

theorem testLpddr_keeps (b : BootReport) (h : s0.Keeps s) : s0.Keeps (testLpddr s b) := by
  refine keeps_foldl _ (fun t f ht => ?_) _ h
  dsimp only
  exact regSet_keeps _ _ (keeps_memFrame ht)

theorem testHbm_keeps (h : s0.Keeps s) : s0.Keeps (testHbm s) :=
  keeps_foldl _ (fun _ _ ht => keeps_ite ht (regSetFld_keeps _ _ _ _ ht)) _ (keeps_foldl _ (fun _ _ ht => keeps_ite ht
      (regSetFld_keeps _ _ _ _ ht)) _ h)

theorem testRows_keeps (fixed : List Nat) (h : s0.Keeps s) : s0.Keeps (testRows s fixed) := by
  refine keeps_foldl _ (fun t n ht => ?_) _ (keeps_unless (norKeep_keeps _) h)
  dsimp only
  exact keeps_ite (rowUnrepaired_keeps _ ht) (bump_keeps _ _ _ _ (regSetFld_keeps _ _ _ _ (keeps_memFrame ht)))

theorem fillIdentity_keeps (h : s0.Keeps s) : s0.Keeps (fillIdentity s) :=
  regSet_keeps _ _ (regSet_keeps _ _ (regSet_keeps _ _ (regSet_keeps _ _ (regSet_keeps _ _ (regSet_keeps _ _ (regSet_keeps _
      _ h))))))

theorem bootDead_keeps (c : DeadCause) (h : s0.Keeps s) : s0.Keeps (bootDead s c) := driveEnum_keeps (keeps_frame h)

theorem selfTest_keeps (b : BootReport) (x : Side) (h : s0.Keeps s) : s0.Keeps (selfTest s b x) := by
  unfold selfTest
  extract_lets +onlyGivenNames s1
  have h1 : s0.Keeps s1 := testUnits_keeps _ h
  extract_lets +onlyGivenNames s2
  have h2 : s0.Keeps s2 := keeps_ite h1 (setUnit_keeps _ _ h1)
  extract_lets +onlyGivenNames s3
  have h3 : s0.Keeps s3 := keeps_ite h2 (setUnit_keeps _ _ h2)
  extract_lets +onlyGivenNames s4
  have h4 : s0.Keeps s4 := keeps_ite h3 (setUnit_keeps _ _ h3)
  split
  · exact bootDead_keeps _ (fillIdentity_keeps (testHbm_keeps (testLpddr_keeps _ h4)))
  · exact keeps_unless (raise_keeps _ _ _ _ _ _) (driveEnum_keeps (keeps_frame (fillIdentity_keeps (testRows_keeps _
      (testHbm_keeps (testLpddr_keeps _ (fenceIsolated_keeps _ (keeps_frame (keeps_ite h4 (setUnit_keeps _ _ h4))))))))))

theorem bootUp_keeps (b : BootReport) (h : s0.Keeps s) : s0.Keeps (bootUp s b) := by
  unfold bootUp
  extract_lets +onlyGivenNames _ s1
  have h1 : s0.Keeps s1 := keeps_frame h
  refine keeps_ite h1 ?_
  extract_lets +onlyGivenNames _ s2
  have h2 : s0.Keeps s2 := keeps_frame h1
  refine keeps_ite (bootDead_keeps _ h2) ?_
  extract_lets +onlyGivenNames s3
  have h3 : s0.Keeps s3 := keeps_ite (norBootReads_keeps _ h2) h2
  split
  · exact bootDead_keeps _ h3
  · exact selfTest_keeps _ _ (keeps_frame h3)

theorem powerUp_keeps (straps : Straps) (b : BootReport) (h : s0.Keeps s) : s0.Keeps (powerUp s straps b) :=
  keeps_ite h (bootUp_keeps _ (keeps_frame (loseAll_keeps h)))

theorem execPwrGoodRise_keeps (straps : Straps) (boot : BootReport) (h : s0.Keeps s) :
    Leads s0 (execPwrGoodRise straps boot s) :=
  leads_next (powerUp_keeps _ _ h)

theorem powerDown_keeps (h : s0.Keeps s) : s0.Keeps (powerDown s) := keeps_ite h (keeps_frame (loseAll_keeps h))

theorem execPwrGoodFall_keeps (h : s0.Keeps s) : Leads s0 (execPwrGoodFall s) := leads_next (powerDown_keeps h)

theorem packageReset_keeps (b : BootReport) (h : s0.Keeps s) : s0.Keeps (packageReset s b) := bootUp_keeps _ (loseAll_keeps h)

theorem mbxResult_keeps (st reason : Nat) (h : s0.Keeps s) : s0.Keeps (mbxResult s st reason) := regSet_keeps _ _ h

theorem mbxRefuseOpen_keeps (h : s0.Keeps s) : s0.Keeps (mbxRefuseOpen s) := mbxResult_keeps _ _ (draw_keeps h)

theorem mbxReset_keeps (b : BootReport) (h : s0.Keeps s) : s0.Keeps (mbxReset s b) :=
  keeps_ite (keeps_ite (keeps_frame h) h) (keeps_ite (mbxResult_keeps _ _ h) (keeps_ite (mbxRefuseOpen_keeps h)
      (packageReset_keeps _ h)))

theorem execPackageReset_keeps (facet : Nat) (boot : BootReport) (h : s0.Keeps s) : Leads s0 (execPackageReset facet boot s) :=
  leads_next (keeps_ite (mbxReset_keeps _ (regSetFld_keeps _ _ _ _ h)) h)

theorem mbxUpdate_keeps (h : s0.Keeps s) : s0.Keeps (mbxUpdate s) :=
  keeps_ite h (keeps_ite (mbxRefuseOpen_keeps h) (keeps_ite (mbxResult_keeps _ _ h) (keeps_if (hostAsk_keeps _ _ _)
      (mbxResult_keeps _ _ (keeps_frame h)))))

theorem execImageUpdate_keeps (h : s0.Keeps s) : Leads s0 (execImageUpdate s) :=
  leads_next (keeps_ite (mbxUpdate_keeps (regSetFld_keeps _ _ _ _ h)) h)

theorem updateDone_keeps (r : ImageOutcome) (b : BootReport) (h : s0.Keeps s) : s0.Keeps (updateDone s r b) :=
  keeps_ite h (keeps_if (packageReset_keeps _) (keeps_ite (mbxResult_keeps _ _ (norWrite_keeps _ (keeps_frame (norImage_keeps
      _ (hostBack_keeps _ _ _ (keeps_frame h)))))) (mbxResult_keeps _ _ (keeps_if (norImage_keeps _) (hostBack_keeps _ _ _
      (keeps_frame h))))))

theorem execImageUpdateDone_keeps (res : ImageOutcome) (boot : BootReport) (h : s0.Keeps s) :
    Leads s0 (execImageUpdateDone res boot s) :=
  leads_next (keeps_ite (updateDone_keeps _ _ h) h)

theorem execHeartbeat_keeps (h : s0.Keeps s) : Leads s0 (execHeartbeat s) := leads_next (keeps_ite (emit_keeps _ h) h)

theorem execHeartbeatTimeout_keeps (h : s0.Keeps s) : Leads s0 (execHeartbeatTimeout s) :=
  leads_next (keeps_ite (evalNow_keeps (controllerLost_keeps _ h)) h)

theorem execCrystalLoss_keeps (h : s0.Keeps s) : Leads s0 (execCrystalLoss s) :=
  leads_next (keeps_ite (keeps_ite (goDead_keeps _ (keeps_frame h)) (keeps_if keeps_frame (keeps_frame h))) h)

theorem thermTrip_keeps (h : s0.Keeps s) : s0.Keeps (thermTrip s) :=
  keeps_ite h (emit_keeps _ (keeps_frame (driveEnum_keeps (keeps_frame h))))

theorem execThermtrip_keeps (h : s0.Keeps s) : Leads s0 (execThermtrip s) := leads_next (thermTrip_keeps h)

theorem execJtagInstruction_keeps (code : Byte) (h : s0.Keeps s) : Leads s0 (execJtagInstruction code s) :=
  leads_next (emit_keeps _ (keeps_frame h))

end Sys2Proof.Machine
end

section
/-! What the operations of the Chain bus and the fabric keep (O60). -/
namespace Sys2Proof.Machine

variable {s0 s : State}

/-! ## ChainSignal -/

theorem gainWrite_keeps (w : Word) (h : s0.Keeps s) : s0.Keeps (gainWrite s w) := setChain_keeps _ h

theorem clearLevels_keeps (h : s0.Keeps s) : s0.Keeps (clearLevels s) := keeps_foldl _ (fun _ _ ht => regSet_keeps _ _ ht) _ h

theorem applyGain_keeps (h : s0.Keeps s) : s0.Keeps (applyGain s) := by
  unfold applyGain
  split
  · exact h
  · exact keeps_if (norKeep_keeps _) (setChain_keeps _ (clearLevels_keeps (regSetFld_keeps _ _ _ _ h)))

theorem execChnRxgainApply_keeps (h : s0.Keeps s) : Leads s0 (execChnRxgainApply s) :=
  leads_next (keeps_ite (applyGain_keeps h) h)

theorem recordLevel_keeps (src : Nat) (lv : Level) (h : s0.Keeps s) : s0.Keeps (recordLevel s src lv) :=
  keeps_unless (regSet_keeps _ _) (keeps_ite (bump_keeps _ _ _ _ h) h)

theorem execNoiseMeasurement_keeps (noise : Byte) (h : s0.Keeps s) : Leads s0 (execNoiseMeasurement noise s) :=
  leads_next (keeps_ite (regSet_keeps _ _ h) h)

theorem execNoiseStale_keeps (h : s0.Keeps s) : Leads s0 (execNoiseStale s) :=
  leads_next (keeps_ite (regSetFld_keeps _ _ _ _ h) h)

theorem syncMiss_keeps (h : s0.Keeps s) : s0.Keeps (syncMiss s) := keeps_ite h (setChain_keeps _ (bump_keeps _ _ _ _ h))

theorem execSyncMiss_keeps (h : s0.Keeps s) : Leads s0 (execSyncMiss s) := leads_next (keeps_ite (syncMiss_keeps h) h)

theorem busIdle_keeps (h : s0.Keeps s) : s0.Keeps (busIdle s) := setChain_keeps _ (regSetFld_keeps _ _ _ _ h)

theorem execBusIdle_keeps (h : s0.Keeps s) : Leads s0 (execBusIdle s) := leads_next (keeps_ite (busIdle_keeps h) h)

theorem charSeen_keeps (c : CharSeen) (h : s0.Keeps s) : s0.Keeps (charSeen s c) :=
  keeps_unless (fun ht => keeps_ite (bump_keeps _ _ _ _ ht) (keeps_ite (bump_keeps _ _ _ _ ht) (setChain_keeps _ (keeps_ite
      (bump_keeps _ _ _ _ ht) ht)))) (setChain_keeps _ h)

theorem execCharacterReceived_keeps (c : CharSeen) (h : s0.Keeps s) : Leads s0 (execCharacterReceived c s) :=
  leads_next (keeps_ite (charSeen_keeps _ h) h)

theorem charSend_keeps (collided : Bool) (h : s0.Keeps s) : s0.Keeps (charSend s collided) := by
  unfold charSend
  split
  · exact h
  · exact keeps_ite (setChain_keeps _ (bump_keeps _ _ _ _ h)) (emit_keeps _ (setChain_keeps _ h))

theorem execCharacterSend_keeps (collided : Bool) (h : s0.Keeps s) : Leads s0 (execCharacterSend collided s) :=
  leads_next (keeps_ite (charSend_keeps _ h) h)

theorem charQueue_keeps (b : Byte) (h : s0.Keeps s) : s0.Keeps (charQueue s b) := keeps_ite h (setChain_keeps _ h)

theorem charAbort_keeps (h : s0.Keeps s) : s0.Keeps (charAbort s) := setChain_keeps _ h

theorem execChnCharTxData_keeps (b : Byte) (h : s0.Keeps s) : Leads s0 (execChnCharTxData b s) :=
  leads_next (keeps_ite (charQueue_keeps _ h) h)

theorem execChnCharTxAbort_keeps (h : s0.Keeps s) : Leads s0 (execChnCharTxAbort s) :=
  leads_next (keeps_ite (charAbort_keeps h) h)

theorem charTxWrite_keeps (w : Word) (h : s0.Keeps s) : s0.Keeps (charTxWrite s w) :=
  keeps_ite (charAbort_keeps h) (charQueue_keeps _ h)

theorem charCfgWrite_keeps (w : Word) (h : s0.Keeps s) : s0.Keeps (charCfgWrite s w) :=
  keeps_unless (setChain_keeps _) (regSet_keeps _ _ h)

theorem charPop_keeps (h : s0.Keeps s) : s0.Keeps (charPop s) := setChain_keeps _ h

theorem execChnCharRxRead_keeps (port : Nat) (h : s0.Keeps s) : Leads s0 (execChnCharRxRead port s) :=
  leads_next (keeps_ite (emit_keeps _ (charPop_keeps h)) h)

/-! ## ChainMsg -/

theorem attemptStart_keeps (h : s0.Keeps s) : s0.Keeps (attemptStart s) := by
  unfold attemptStart
  refine keeps_ite h ?_
  split
  · exact h
  · extract_lets +onlyGivenNames s1
    have h1 : s0.Keeps s1 := setPending_keeps _ h
    extract_lets +onlyGivenNames s2
    have h2 : s0.Keeps s2 := keeps_ite h1 (bump_keeps _ _ _ _ h1)
    extract_lets +onlyGivenNames s3
    have h3 : s0.Keeps s3 := by
      dsimp only [s3]
      split
      · exact regSet_keeps _ _ h2
      · exact h2
    exact showTx_keeps _ _ (setChain_keeps _ h3)

theorem sendFrame_keeps (u : ChainUse) (h : s0.Keeps s) : s0.Keeps (sendFrame s u) := emit_keeps _ h

theorem attemptDone_keeps (u : ChainUse) (h : s0.Keeps s) : s0.Keeps (attemptDone s u) :=
  setChain_keeps _ (showTx_keeps _ _ (dropPending_keeps _ (sendFrame_keeps _ h)))

theorem txAttempt_keeps (stp : TxStep) (h : s0.Keeps s) : s0.Keeps (txAttempt s stp) := by
  unfold txAttempt
  extract_lets +onlyGivenNames s1
  have h1 : s0.Keeps s1 := attemptStart_keeps h
  split
  · exact h1
  · exact h1
  · exact keeps_ite (attemptFailed_keeps _ (bump_keeps _ _ _ _ h1)) (keeps_ite (attemptFailed_keeps _ (sendFrame_keeps _ h1))
      (attemptDone_keeps _ h1))

theorem execChainTxAttempt_keeps (stp : TxStep) (h : s0.Keeps s) : Leads s0 (execChainTxAttempt stp s) :=
  leads_next (keeps_ite (txAttempt_keeps _ h) h)

theorem cutTx_keeps (h : s0.Keeps s) : s0.Keeps (cutTx s) :=
  keeps_ite h (chainEvent_keeps _ _ (attemptFailed_keeps _ (regSetFld_keeps _ _ _ _ h)))

theorem execChainTxCut_keeps (h : s0.Keeps s) : Leads s0 (execChainTxCut s) := leads_next (keeps_ite (cutTx_keeps h) h)

theorem busStuck_keeps (h : s0.Keeps s) : s0.Keeps (busStuck s) :=
  keeps_ite h (chainEvent_keeps _ _ (setChain_keeps _ (regSetFld_keeps _ _ _ _ h)))

theorem execChainBusStuck_keeps (h : s0.Keeps s) : Leads s0 (execChainBusStuck s) := leads_next (keeps_ite (busStuck_keeps h) h)

theorem clearCut_keeps (h : s0.Keeps s) : s0.Keeps (clearCut s) := regSetFld_keeps _ _ _ _ h

theorem execClearCut_keeps (h : s0.Keeps s) : Leads s0 (execClearCut s) := leads_next (keeps_ite (clearCut_keeps h) h)

theorem txbWrite_keeps (b : Nat) (w : Word) (h : s0.Keeps s) : s0.Keeps (txbWrite s b w) :=
  keeps_unless (fun ht => keeps_ite (regSetFld_keeps _ _ _ _ ht) (addPending_keeps _ (regSet_keeps _ _ ht))) (regSet_keeps _
      _ (keeps_ite (withdraw_keeps _ h) h))

theorem execChnTxbGo_keeps (buf : Nat) (w : Word) (h : s0.Keeps s) : Leads s0 (execChnTxbGo buf w s) :=
  leads_next (keeps_ite (txbWrite_keeps _ _ h) h)

theorem execChnTxbWithdraw_keeps (buf : Nat) (w : Word) (h : s0.Keeps s) : Leads s0 (execChnTxbWithdraw buf w s) :=
  leads_next (keeps_ite (txbWrite_keeps _ _ h) h)

theorem setPayload_keeps (key : Nat) (d : List Byte) (h : s0.Keeps s) : s0.Keeps (setPayload s key d) :=
  keeps_foldl _ (fun _ _ ht => regSet_keeps _ _ ht) _ h

theorem bufferFrame_keeps (b : Nat) (fr : ChainFrame) (h : s0.Keeps s) : s0.Keeps (bufferFrame s b fr) :=
  chainEvent_keeps _ _ (regSet_keeps _ _ (regSet_keeps _ _ (regSet_keeps _ _ (setPayload_keeps _ _ h))))

theorem deliverApp_keeps (fr : ChainFrame) (h : s0.Keeps s) : s0.Keeps (deliverApp s fr) := by
  unfold deliverApp
  split
  · exact bufferFrame_keeps _ _ h
  · exact bump_keeps _ _ _ _ h

theorem rxbClear_keeps (b : Nat) (w : Word) (h : s0.Keeps s) : s0.Keeps (rxbClear s b w) := keeps_ite (regSet_keeps _ _ h) h

theorem execChnRxbStatusClear_keeps (buf : Nat) (w : Word) (h : s0.Keeps s) : Leads s0 (execChnRxbStatusClear buf w s) :=
  leads_next (keeps_ite (rxbClear_keeps _ _ h) h)

theorem enumStart_keeps (p : List Byte) (h : s0.Keeps s) : s0.Keeps (enumStart s p) :=
  settleClaim_keeps (setChain_keeps _ (keeps_if (setAddress_keeps _) (regSetFld_keeps _ _ _ _ h)))

theorem assign_keeps (p : List Byte) (h : s0.Keeps s) : s0.Keeps (assign s p) :=
  keeps_ite h (chainEvent_keeps _ _ (settleClaim_keeps (setChain_keeps _ (setAddress_keeps _ h))))

theorem actOn_keeps (fr : ChainFrame) (h : s0.Keeps s) : s0.Keeps (actOn s fr) := by
  unfold actOn
  split
  · exact enumStart_keeps _ h
  · exact assign_keeps _ h
  · exact capJudge_keeps _ h
  · exact h
  · exact deliverApp_keeps _ h

theorem foreignFrame_keeps (fr : ChainFrame) (h : s0.Keeps s) : s0.Keeps (foreignFrame s fr) :=
  keeps_if (bufferFrame_keeps _ _) (bump_keeps _ _ _ _ h)

theorem frameIn_keeps (fr : ChainFrame) (h : s0.Keeps s) : s0.Keeps (frameIn s fr) :=
  keeps_ite (actOn_keeps _ (keeps_unless (emit_keeps _) (setChain_keeps _ (recordLevel_keeps _ _ h)))) (keeps_if
      (foreignFrame_keeps _) (setChain_keeps _ (recordLevel_keeps _ _ h)))

theorem chainArrives_keeps (h' : FrameHeard) (fits : ChainFrame → Bool) (h : s0.Keeps s) :
    s0.Keeps (chainArrives s h' fits) := by
  unfold chainArrives
  split
  · exact h
  · exact keeps_ite (frameIn_keeps _ h) h

theorem execEnumStart_keeps (frame : FrameHeard) (h : s0.Keeps s) : Leads s0 (execEnumStart frame s) :=
  leads_next (chainArrives_keeps _ _ h)

theorem execAssignFrame_keeps (frame : FrameHeard) (h : s0.Keeps s) : Leads s0 (execAssignFrame frame s) :=
  leads_next (chainArrives_keeps _ _ h)

theorem execCapFrame_keeps (frame : FrameHeard) (h : s0.Keeps s) : Leads s0 (execCapFrame frame s) :=
  leads_next (chainArrives_keeps _ _ h)

theorem execDepartFrame_keeps (frame : FrameHeard) (h : s0.Keeps s) : Leads s0 (execDepartFrame frame s) :=
  leads_next (chainArrives_keeps _ _ h)

theorem execApplicationFrame_keeps (frame : FrameHeard) (h : s0.Keeps s) : Leads s0 (execApplicationFrame frame s) :=
  leads_next (chainArrives_keeps _ _ h)

theorem execForeignFrame_keeps (frame : FrameHeard) (h : s0.Keeps s) : Leads s0 (execForeignFrame frame s) :=
  leads_next (chainArrives_keeps _ _ h)

theorem notTaken_keeps (src : Nat) (lv : Level) (why : NotTaken) (h : s0.Keeps s) : s0.Keeps (notTaken s src lv why) := by
  unfold notTaken
  extract_lets +onlyGivenNames _ _ s2
  have h2 : s0.Keeps s2 := setChain_keeps _ (recordLevel_keeps _ _ h)
  split
  · exact bump_keeps _ _ _ _ h2
  · exact bump_keeps _ _ _ _ h2
  · exact h2

theorem execChainFrameNotTaken_keeps (src : Nat) (level : Level) (why : NotTaken) (h : s0.Keeps s) :
    Leads s0 (execChainFrameNotTaken src level why s) :=
  leads_next (keeps_ite (notTaken_keeps _ _ _ h) h)

theorem execClaimResend_keeps (h : s0.Keeps s) : Leads s0 (execClaimResend s) :=
  leads_next (keeps_ite (settleClaim_keeps (setChain_keeps _ h)) h)

theorem enumInChange_keeps (v : Bool) (h : s0.Keeps s) : s0.Keeps (enumInChange s v) :=
  keeps_if settleClaim_keeps (driveEnum_keeps (regSetFld_keeps _ _ _ _ h))

theorem execEnumInChange_keeps (level : Bool) (h : s0.Keeps s) : Leads s0 (execEnumInChange level s) :=
  leads_next (keeps_ite (enumInChange_keeps _ h) h)

/-! ## Fabric -/

theorem setSchedState_keeps (f v : Nat) (h : s0.Keeps s) : s0.Keeps (setSchedState s f v) := regSetFld_keeps _ _ _ _ h

theorem refuseSched_keeps (f reason record : Nat) (h : s0.Keeps s) : s0.Keeps (refuseSched s f reason record) :=
  keeps_foldl _ (fun _ _ ht => setSchedState_keeps _ _ (regSet_keeps _ _ ht)) _ (keeps_frame h)

theorem lateSched_keeps (h : s0.Keeps s) : s0.Keeps (lateSched s) :=
  keeps_foldl _ (fun _ _ ht => setSchedState_keeps _ _ ht) _ (keeps_frame h)

theorem schedLoad_keeps (f : Nat) (h : s0.Keeps s) : s0.Keeps (schedLoad s f) :=
  keeps_ite h (keeps_ite (refuseSched_keeps _ _ _ h) (askOwner_keeps _ _ (setSchedState_keeps _ _ (keeps_frame h))))

theorem execFabSchedLoad_keeps (facet : Nat) (h : s0.Keeps s) : Leads s0 (execFabSchedLoad facet s) :=
  leads_next (keeps_ite (schedLoad_keeps _ h) h)

theorem blobChecked_keeps (f : Nat) (b : List Byte) (h : s0.Keeps s) : s0.Keeps (blobChecked s f b) := by
  unfold blobChecked
  split
  · exact h
  · refine keeps_ite h ?_
    dsimp only
    split
    · exact refuseSched_keeps _ _ _ (backOwner_keeps _ _ h)
    · exact keeps_ite (lateSched_keeps (backOwner_keeps _ _ h)) (keeps_if lateSched_keeps (setSchedState_keeps _ _
      (keeps_frame (backOwner_keeps _ _ h))))

theorem execFabSchedBlobChecked_keeps (facet : Nat) (blob : List Byte) (h : s0.Keeps s) :
    Leads s0 (execFabSchedBlobChecked facet blob s) :=
  leads_next (keeps_ite (blobChecked_keeps _ _ h) h)

theorem injectFlit_keeps (f p : Nat) (x : SchedFlit) (h : s0.Keeps s) : s0.Keeps (injectFlit s f p x) := by
  unfold injectFlit
  split
  · exact h
  · split
    · exact h
    · exact keeps_ite (keeps_frame h) h

theorem injectWrites_keeps (w : SchedWrites) (h : s0.Keeps s) : s0.Keeps (injectWrites s w) :=
  keeps_ite (keeps_foldl _ (fun _ _ ht => injectFlit_keeps _ _ _ ht) _ h) h

theorem slipFlit_keeps (f flow : Nat) (h : s0.Keeps s) : s0.Keeps (slipFlit s f flow) :=
  bump_keeps _ _ _ _ (bump_keeps _ _ _ _ h)

theorem arriveFlit_keeps (x : QueuedFlit) (h : s0.Keeps s) : s0.Keeps (arriveFlit s x) :=
  keeps_ite h (keeps_if (fun ht => memWrite_keeps _ _ (noteParts_keeps _ _ _ ht)) (regSet_keeps _ _ h))

theorem slipAndArrive_keeps (f g : Nat) (x : QueuedFlit) (h : s0.Keeps s) : s0.Keeps (slipAndArrive s f g x) :=
  keeps_if (arriveFlit_keeps _) (slipFlit_keeps _ _ h)

theorem passFlit_keeps (f : Nat) (x : QueuedFlit) (h : s0.Keeps s) : s0.Keeps (passFlit s f x) := by
  unfold passFlit
  split
  · exact arriveFlit_keeps _ h
  · exact slipAndArrive_keeps _ _ _ h

theorem sendDue_keeps (f n : Nat) (xs : List QueuedFlit) (h : s0.Keeps s) : s0.Keeps (sendDue s f n xs) := by
  induction xs generalizing s n with
  | nil => exact h
  | cons x xs ih => exact keeps_ite (ih _ (passFlit_keeps _ _ h)) (ih _ (slipAndArrive_keeps _ _ _ h))

theorem takeFlits_keeps (go : Nat → QueuedFlit → Bool) (send : State → Nat → List QueuedFlit → State) (h : s0.Keeps s)
    (hsend : ∀ (t : State) (g : Nat) (q : List QueuedFlit), s0.Keeps t → s0.Keeps (send t g q)) :
    s0.Keeps (takeFlits s go send) :=
  keeps_foldl _ (fun _ _ ht => keeps_ite (hsend _ _ _ ht) ht) _ (keeps_frame h)

theorem fabricGrain_keeps (h : s0.Keeps s) : s0.Keeps (fabricGrain s) :=
  takeFlits_keeps _ _ h (fun _ _ _ ht => sendDue_keeps _ _ _ ht)

theorem lateFlits_keeps (h : s0.Keeps s) : s0.Keeps (lateFlits s) :=
  takeFlits_keeps _ _ h (fun _ _ _ ht => keeps_foldl _ (fun _ _ hu => slipAndArrive_keeps _ _ _ hu) _ ht)

theorem showActive_keeps (f : Nat) (h : s0.Keeps s) : s0.Keeps (showActive s f) :=
  setSchedState_keeps _ _ (regSet_keeps _ _ (regSet_keeps _ _ h))

theorem schedActivate_keeps (h : s0.Keeps s) : s0.Keeps (schedActivate s) :=
  keeps_ite h (keeps_ite (lateFlits_keeps (keeps_foldl _ (fun _ _ ht => showActive_keeps _ ht) _ (keeps_frame
      (clearSchedule_keeps h)))) (lateSched_keeps h))

theorem execFabSchedActivate_keeps (writes : List SchedWrites) (h : s0.Keeps s) : Leads s0 (execFabSchedActivate writes s) :=
  leads_next (keeps_ite (schedActivate_keeps (keeps_foldl _ (fun _ _ ht => injectWrites_keeps _ ht) _ h)) h)

theorem schedClear_keeps (h : s0.Keeps s) : s0.Keeps (schedClear s) := keeps_ite h (keeps_frame h)

theorem schedEnd_keeps (h : s0.Keeps s) : s0.Keeps (schedEnd s) :=
  keeps_foldl _ (fun _ _ ht => regSet_keeps _ _ (regSet_keeps _ _ (keeps_ite (setSchedState_keeps _ _ ht) ht))) _
      (keeps_frame h)

theorem frameEnds_keeps (h : s0.Keeps s) : s0.Keeps (frameEnds s) := keeps_ite (schedEnd_keeps h) h

theorem execFabSchedClear_keeps (facet : Nat) (h : s0.Keeps s) : Leads s0 (execFabSchedClear facet s) :=
  leads_next (keeps_ite (schedClear_keeps h) h)

end Sys2Proof.Machine
end

section
/-! What the operations of fetched descriptors, GATHER, tenants, register accesses and pipelines keep (O60). -/
namespace Sys2Proof.Machine

variable {s0 s : State}

/-! ## Fetch -/

theorem fromFetch_keeps (tag : Nat) (h : s0.Keeps s) : s0.Keeps (fromFetch s tag) := by
  unfold fromFetch
  split
  · exact claimSlot_keeps _ _ (claimPool_keeps _ _ h)
  · exact h

theorem fetchActs_keeps (fn : FnId) (ring : Nat) (e : List Byte) (st : ReadStatus) (body : List Byte) (bodySt : ReadStatus)
    (h : s0.Keeps s) :
    s0.Keeps (fetchActs s fn ring e st body bodySt) := by
  unfold fetchActs
  extract_lets +onlyGivenNames s1
  have h1 : s0.Keeps s1 := fetchEntry_keeps _ _ _ _ _ _ h
  split
  · exact fromFetch_keeps _ h1
  · exact h1

theorem execDescriptorFetchData_keeps (port tenant ring : Nat) (entry : List Byte) (st : ReadStatus) (body : List Byte)
    (bodySt : ReadStatus) (h : s0.Keeps s) :
    Leads s0 (execDescriptorFetchData port tenant ring entry st body bodySt s) :=
  leads_next (keeps_ite (settle_keeps (fetchActs_keeps _ _ _ _ _ _ h)) h)

/-! ## Gather -/

theorem readTable_keeps (r : Request) (a : Nat) (h : s0.Keeps s) : s0.Keeps (readTable s r a).1 := by
  unfold readTable
  refine keeps_ite_fst h ?_
  split
  · exact h
  · exact keeps_andThen _ _ (devRead_keeps _ _ _ h) (fun _ _ hu => keeps_ite_fst hu hu)

theorem readHot_keeps (r : Request) (t : Table) (h : s0.Keeps s) : s0.Keeps (readHot s r t).1 := by
  unfold readHot
  refine keeps_ite_fst h ?_
  split
  · exact h
  · exact keeps_andThen _ _ (devRead_keeps _ _ _ h) (fun _ _ hu => keeps_ite_fst hu hu)

theorem readAux_keeps (r : Request) (bags n : Nat) (weighted : Bool) (h : s0.Keeps s) :
    s0.Keeps (readAux s r bags n weighted).1 := by
  unfold readAux
  refine keeps_ite_fst h ?_
  dsimp only
  split
  · exact h
  · exact keeps_andThen _ _ (devRead_keeps _ _ _ h) (fun _ _ hu => keeps_ite_fst hu hu)

theorem gatherInputs_keeps (r : Request) (idx : State → Reading (List Nat)) (h : s0.Keeps s)
    (hidx : ∀ (a : State), s0.Keeps a → s0.Keeps (idx a).1) :
    s0.Keeps (gatherInputs s r idx).1 := by
  unfold gatherInputs
  refine keeps_ite_fst h ?_
  split
  · exact h
  · exact keeps_andThen _ _ (readTable_keeps _ _ h) (fun _ _ hu => keeps_ite_fst hu (keeps_andThen _ _ (readHot_keeps _ _ hu)
      (fun _ _ hv => keeps_ite_fst hv (keeps_andThen _ _ (hidx _ hv) (fun _ _ hw => keeps_andThen _ _ (readAux_keeps _ _ _ _
      hw) (fun _ _ hx => keeps_ite_fst hx hx))))))

theorem readIdx_keeps (r : Request) (h : s0.Keeps s) : s0.Keeps (readIdx r s).1 :=
  keeps_andThen _ _ (readAt_keeps _ _ _ _ h) (fun _ _ ht => ht)

theorem countDrops_keeps (f t n : Nat) (h : s0.Keeps s) : s0.Keeps (countDrops s f t n) := keeps_frame (bump_keeps _ _ _ _ h)

theorem gatherCounts_keeps (r : Request) (g : GatherIn) (rep : Nat → Bool) (h : s0.Keeps s) :
    s0.Keeps (gatherCounts s r g rep) :=
  bump_keeps _ _ _ _ (countDrops_keeps _ _ _ h)

theorem writeSlots_keeps (r : Request) (g : GatherIn) (outs : List (List Byte × Bool)) (h : s0.Keeps s) :
    s0.Keeps (writeSlots s r g outs) :=
  keeps_foldl _ (fun _ _ ht => writeOut_keeps _ _ _ _ ht) _ h

theorem gatherFinish_keeps (r : Request) (g : GatherIn) (rep : Nat → Bool) (rd : Nat → Nat → List Byte) (h : s0.Keeps s) :
    s0.Keeps (gatherFinish s r g rep rd).1 :=
  gatherCounts_keeps _ _ _ (keeps_if (writeOut_keeps _ _ _ _) (writeSlots_keeps _ _ _ h))

theorem issueJob_keeps (tag n : Nat) (h : s0.Keeps s) : s0.Keeps (issueJob tag n s) := by
  induction n generalizing s with
  | zero => exact h
  | succ n ih =>
    unfold issueJob
    split
    · split
      · exact keeps_ite (ih (keeps_frame h)) h
      · exact h
    · exact h

theorem issueReads_keeps (h : s0.Keeps s) : s0.Keeps (issueReads s) :=
  keeps_foldl _ (fun _ _ ht => keeps_ite ht (peak_keeps _ _ _ _ ht)) _ (keeps_foldl _ (fun _ _ ht => issueJob_keeps _ _ ht) _
      h)

theorem gatherOpen_keeps (tag : Nat) (r : Request) (g : GatherIn) (h : s0.Keeps s) : s0.Keeps (gatherOpen s tag r g) := by
  unfold gatherOpen
  dsimp only
  exact issueReads_keeps (keeps_frame h)

theorem gatherStart_keeps (tag : Nat) (r : Request) (h : s0.Keeps s) : s0.Keeps (gatherStart s tag r) := by
  unfold gatherStart
  refine keeps_ite h ?_
  extract_lets +onlyGivenNames s1
  have h1 : s0.Keeps s1.1 := gatherInputs_keeps _ _ h (fun _ hu => readIdx_keeps _ hu)
  split
  · exact keepReads_keeps _ h
  · exact finish_keeps _ _ _ h1
  · refine keeps_ite (finish_keeps _ _ _ h) ?_
    extract_lets +onlyGivenNames _
    refine keeps_ite (finish_keeps _ _ _ h1) ?_
    refine keeps_ite (finish_keeps _ _ _ h1) ?_
    split
    · exact finish_keeps _ _ _ h1
    · exact keeps_ite (conclude_keeps _ _ h1 (gatherFinish_keeps _ _ _ _ h1)) (gatherOpen_keeps _ _ _ h1)

theorem execGather_keeps (tag : Nat) (h : s0.Keeps s) : Leads s0 (execGather tag s) := by
  refine leads_next ?_
  split
  · exact gatherStart_keeps _ _ h
  · exact h

theorem gatherFails_keeps (tag : Nat) (r : Request) (j : GatherJob) (st : Status) (h : s0.Keeps s) :
    s0.Keeps (gatherFails s tag r j st) :=
  issueReads_keeps (finishStage_keeps _ _ _ (gatherCounts_keeps _ _ _ (keeps_frame h)))

theorem gatherLast_keeps (tag : Nat) (r : Request) (j : GatherJob) (h : s0.Keeps s) : s0.Keeps (gatherLast s tag r j) := by
  unfold gatherLast
  split
  · exact gatherFails_keeps _ _ _ _ (writeSlots_keeps _ _ _ h)
  · exact issueReads_keeps (conclude_keeps _ _ (keeps_frame h) (gatherFinish_keeps _ _ _ _ (keeps_frame h)))

theorem readArrives_keeps (t f a n : Nat) (fab : FabricSeen) (h : s0.Keeps s) : s0.Keeps (readArrives s t f a n fab) :=
  fabricMeets_keeps _ _ _ _ _ _ (noteRead_keeps _ _ _ h)

theorem rowArrival_keeps (tag : Nat) (r : Request) (alone : Bool) (x : RowArrival) (h : s0.Keeps s) :
    s0.Keeps (rowArrival s tag r alone x) := by
  unfold rowArrival
  split
  · exact h
  · split
    · exact h
    · dsimp only
      split
      · exact gatherFails_keeps _ _ _ _ h
      · exact keeps_ite h (keeps_ite (gatherFails_keeps _ _ _ _ (meetCheck_keeps _ _ (keeps_frame (readArrives_keeps _ _ _ _
          _ (collect_keeps _ _ _ h))))) (keeps_ite (gatherLast_keeps _ _ _ (meetCheck_keeps _ _ (keeps_frame
          (readArrives_keeps _ _ _ _ _ (collect_keeps _ _ _ h))))) (issueReads_keeps (meetCheck_keeps _ _ (keeps_frame
          (readArrives_keeps _ _ _ _ _ (collect_keeps _ _ _ h)))))))

theorem writeReplicas_keeps (tn : Nat) (t : Table) (hot : List Nat) (row : Nat) (d : List Byte) (h : s0.Keeps s) :
    s0.Keeps (writeReplicas s tn t hot row d).1 :=
  keeps_ite_fst h (keeps_foldl _ (fun _ _ ht => engWrite_keeps _ _ _ ht) _ h)

theorem scatterOne_keeps (t : Table) (r : Request) (hot : List Nat) (add : Bool) (x : Scattered) (i : Nat)
    (src : Got (List Byte)) (h : s0.Keeps x.st) :
    s0.Keeps (scatterOne t r hot add x i src).st := by
  unfold scatterOne
  split
  · exact h
  · exact h
  · exact h
  · split
    · exact h
    · dsimp only
      split
      · exact h
      · have hold (d : List Byte) : s0.Keeps (if add then devRead x.st r.tenant (t.base + t.mainRow i * t.stride) t.rowBytes
            else (x.st, .ok d)).1 := keeps_ite_fst (devRead_keeps _ _ _ h) h
        split
        · exact hold _
        · exact h
        · exact writeReplicas_keeps _ _ _ _ _ (engWrite_keeps _ _ _ (hold _))

theorem sourceRow_keeps (r : Request) (t : Table) (n : Nat) (h : s0.Keeps s) : s0.Keeps (sourceRow s r t n).1 :=
  readAt_keeps _ _ _ _ h

theorem refreshAll_keeps (r : Request) (t : Table) (hot : List Nat) (h : s0.Keeps s) : s0.Keeps (refreshAll s r t hot).st := by
  refine foldl_inv (fun x : Scattered => s0.Keeps x.st) _ (fun x row hx => ?_) hot _ h
  split
  · exact hx
  · have hread := devRead_keeps r.tenant (t.base + row * t.stride) t.rowBytes hx
    dsimp only
    split
    · exact writeReplicas_keeps _ _ _ _ _ hread
    · exact hread
    · exact hx

theorem scatterEnd_keeps (r : Request) (f : Nat) (x : Scattered) (h : s0.Keeps x.st) : s0.Keeps (scatterEnd r f x).1 := by
  unfold scatterEnd
  dsimp only
  split <;> exact countDrops_keeps _ _ _ h

theorem scatterRun_keeps (mode : Nat) (r : Request) (h : s0.Keeps s) : s0.Keeps (scatterRun mode s r).1 := by
  unfold scatterRun
  refine keeps_ite_fst h (keeps_ite_fst h ?_)
  split
  · exact h
  · refine keeps_andThen _ _ (readTable_keeps _ _ h) (fun t tb ht => keeps_ite_fst ht ?_)
    refine keeps_andThen _ _ (readHot_keeps _ _ ht) (fun u hot hu => keeps_ite_fst hu (keeps_ite_fst ?_ ?_))
    · exact keeps_ite_fst hu (scatterEnd_keeps _ _ _ (refreshAll_keeps _ _ _ hu))
    · refine keeps_andThen _ _ (readIdx_keeps _ hu) (fun v is hv => keeps_ite_fst hv (keeps_ite_fst ?_ ?_))
      · exact keeps_foldl _ (fun _ _ hw => sourceRow_keeps _ _ _ hw) _ hv
      · exact scatterEnd_keeps _ _ _ (foldl_inv (fun x : Scattered => s0.Keeps x.st) _
          (fun _ _ hx => scatterOne_keeps _ _ _ _ _ _ _ (sourceRow_keeps _ _ _ hx)) _ _ hv)

theorem execScatterWrite_keeps (tag : Nat) (h : s0.Keeps s) : Leads s0 (execScatterWrite tag s) :=
  leads_next (runOp_keeps _ _ _ (fun _ => scatterRun_keeps _ _ h) h)

theorem execScatterAdd_keeps (tag : Nat) (h : s0.Keeps s) : Leads s0 (execScatterAdd tag s) :=
  leads_next (runOp_keeps _ _ _ (fun _ => scatterRun_keeps _ _ h) h)

theorem execScatterRefresh_keeps (tag : Nat) (h : s0.Keeps s) : Leads s0 (execScatterRefresh tag s) :=
  leads_next (runOp_keeps _ _ _ (fun _ => scatterRun_keeps _ _ h) h)

/-! ## Tenants -/

theorem clearStatus_keeps (st reason : Nat) (h : s0.Keeps s) : s0.Keeps (clearStatus s st reason) :=
  regSetFld_keeps _ _ _ _ (regSetFld_keeps _ _ _ _ h)

theorem clearStart_keeps (h : s0.Keeps s) : s0.Keeps (clearStart s) := by
  unfold clearStart
  dsimp only
  split
  · exact clearStatus_keeps _ _ h
  · exact clearStatus_keeps _ _ h
  · exact clearStatus_keeps _ _ (regSetFld_keeps _ _ _ _ (keeps_frame h))

theorem clearWrite_keeps (w : Word) (h : s0.Keeps s) : s0.Keeps (clearWrite s w) :=
  keeps_if clearStart_keeps (ctrlStore_keeps _ _ _ h)

theorem execTenClearStart_keeps (w : Word) (h : s0.Keeps s) : Leads s0 (execTenClearStart w s) :=
  leads_next (keeps_ite (clearWrite_keeps _ h) h)

theorem zeroRange_keeps (a n : Nat) (h : s0.Keeps s) : s0.Keeps (zeroRange s a n) := memFilter_keeps _ _ rfl h

theorem clearDone_keeps (h : s0.Keeps s) : s0.Keeps (clearDone s) := by
  unfold clearDone
  split
  · exact h
  · exact keeps_ite h (clearStatus_keeps _ _ (regSetFld_keeps _ _ _ _ (zeroRange_keeps _ _ (collect_keeps _ _ _ (keeps_frame
      h)))))

theorem execTenClearDone_keeps (h : s0.Keeps s) : Leads s0 (execTenClearDone s) := leads_next (keeps_ite (clearDone_keeps h) h)

/-! ## HostAccess -/

theorem pollGate_keeps (fn : FnId) (f : State → State) (h : s0.Keeps s) (hf : ∀ (a : State), s0.Keeps a → s0.Keeps (f a)) :
    s0.Keeps (pollGate s fn f) :=
  keeps_ite (hf _ h) (countXign_keeps _ h)

theorem pollMinWrite_keeps (fn : FnId) (w : Word) (h : s0.Keeps s) : s0.Keeps (pollMinWrite s fn w) :=
  keeps_if (regSet_keeps _ _) (regSet_keeps _ _ h)

theorem pollMaxWrite_keeps (fn : FnId) (w : Word) (h : s0.Keeps s) : s0.Keeps (pollMaxWrite s fn w) := regSet_keeps _ _ h

theorem ringWrite_keeps (fn : FnId) (o : Nat) (w : Word) (h : s0.Keeps s) : s0.Keeps (ringWrite s fn o w) := by
  unfold ringWrite
  exact keeps_ite (keeps_ite (keeps_ite h (fnStore_keeps _ _ _ _ h)) (keeps_ite (keeps_ite h (sqWrite_keeps _ _ _ _ _ h)) h))
      (keeps_ite (keeps_ite (keeps_ite h (fnStore_keeps _ _ _ _ h)) (keeps_ite (cqWrite_keeps _ _ _ h) (keeps_ite
      (fnStore_keeps _ _ _ _ h) h))) (keeps_ite (keeps_ite (keeps_ite h (fnStore_keeps _ _ _ _ h)) (keeps_ite (dbWrite_keeps
      _ _ _ h) h)) (keeps_ite (pollGate_keeps _ _ h (fun _ ht => pollMinWrite_keeps _ _ ht)) (keeps_ite (pollGate_keeps _ _ h
      (fun _ ht => pollMaxWrite_keeps _ _ ht)) h))))

theorem ringRead_keeps (fn : FnId) (o : Nat) (h : s0.Keeps s) : s0.Keeps (ringRead s fn o).1 :=
  keeps_ite_fst h (keeps_ite_fst h (keeps_ite_fst (keeps_ite_fst (regSetFld_keeps _ _ _ _ h) h) (keeps_ite_fst h
      (keeps_ite_fst h h))))

theorem evtSetupWrite_keeps (fn : FnId) (o : Nat) (w : Word) (h : s0.Keeps s) : s0.Keeps (evtSetupWrite s fn o w) :=
  keeps_ite (keeps_ite h (fnStore_keeps _ _ _ _ h)) (keeps_ite (evtWriteCfg_keeps _ _ h) (keeps_ite (fnStore_keeps _ _ _ _ h)
      h))

theorem rowRead_keeps (k : Nat) (r : RegRow) (h : s0.Keeps s) : s0.Keeps (rowRead s k r).1 := keeps_ite h (regSet_keeps _ _ h)

theorem globalRead_keeps (port o : Nat) (h : s0.Keeps s) : s0.Keeps (globalRead s port o).1 := by
  unfold globalRead
  split
  · exact keeps_ite_fst (ringRead_keeps _ _ h) h
  · exact h
  · refine keeps_ite_fst h ?_
    refine keeps_ite_fst h ?_
    refine keeps_ite_fst h ?_
    refine keeps_ite_fst h ?_
    refine keeps_ite_fst h ?_
    split
    · exact rowRead_keeps _ _ h
    · exact h

theorem globalWrite_keeps (port o : Nat) (w : Word) (h : s0.Keeps s) : s0.Keeps (globalWrite s port o w) := by
  unfold globalWrite
  split
  · exact keeps_ite (ringWrite_keeps _ _ _ h) h
  · exact keeps_ite (evtSetupWrite_keeps _ _ _ h) h
  · refine keeps_ite (sealedWrite_keeps _ _ h) ?_
    refine keeps_ite (sealWrite_keeps _ h) ?_
    refine keeps_ite (hmkCtrlWrite_keeps _ h) ?_
    refine keeps_ite (regSet_keeps _ _ h) ?_
    refine keeps_ite (groupWrite_keeps _ _ _ _ h) ?_
    refine keeps_ite (regSet_keeps _ _ h) ?_
    refine keeps_ite (clearWrite_keeps _ h) ?_
    split
    · exact regSet_keeps _ _ h
    · exact h

theorem mbxCmdWrite_keeps (w : Word) (h : s0.Keeps s) : s0.Keeps (mbxCmdWrite s w) :=
  keeps_unless (fun ht => keeps_ite (keeps_ite ht (keeps_ite (mbxResult_keeps _ _ ht) (keeps_ite (mbxRefuseOpen_keeps ht)
      ht))) (keeps_ite (mbxUpdate_keeps ht) (keeps_ite ht (mbxResult_keeps _ _ ht)))) (regSetFld_keeps _ _ _ _ h)

theorem mbxWrite_keeps (o : Nat) (w : Word) (h : s0.Keeps s) : s0.Keeps (mbxWrite s o w) :=
  keeps_ite (mbxCmdWrite_keeps _ h) (keeps_ite (regSet_keeps _ _ h) h)

theorem chainBufWrite_keeps (o : Nat) (w : Word) (h : s0.Keeps s) : s0.Keeps (chainBufWrite s o w) := by
  unfold chainBufWrite
  split
  · exact keeps_ite (txbWrite_keeps _ _ h) (keeps_ite (regSet_keeps _ _ h) h)
  · exact keeps_ite (regSet_keeps _ _ h) (keeps_ite (rxbClear_keeps _ _ h) h)
  · exact h

theorem facetComputed_keeps (f o : Nat) (h : s0.Keeps s) : ∀ x, facetComputed s f o = some x → s0.Keeps x.1 := by
  have hchar : s0.Keeps (if decide (f = activeFacet s) then (charPop s, charHead s) else (s, 0#32)).1 := keeps_ite_fst (charPop_keeps h) h
  unfold facetComputed
  exact keeps_ite_some_fst h (keeps_ite_some_fst h (keeps_ite_some_fst h (keeps_ite_some_fst h (keeps_ite_some_fst h
    (keeps_ite_some_fst hchar (keeps_ite_some_fst h (keeps_ite_some_fst h (keeps_ite_some_fst h keeps_none_fst))))))))

theorem facetRead_keeps (f o : Nat) (h : s0.Keeps s) : s0.Keeps (facetRead s f o).1 := by
  unfold facetRead
  refine keeps_ite_fst h ?_
  split
  · exact facetComputed_keeps _ _ h _ ‹_›
  · refine keeps_ite_fst h (keeps_ite_fst h ?_)
    split
    · exact keeps_ite_fst (rowRead_keeps _ _ h) h
    · exact h

theorem loaderWrite_keeps (o mask : Nat) (w : Word) (load unload : State → State) (h : s0.Keeps s)
    (hload : ∀ (a : State), s0.Keeps a → s0.Keeps (load a)) (hunload : ∀ (a : State), s0.Keeps a → s0.Keeps (unload a)) :
    s0.Keeps (loaderWrite s o mask w load unload) :=
  keeps_if (hunload _) (keeps_if (hload _) (ctrlStore_keeps _ _ _ h))

theorem laneCfgWrite_keeps (l : Nat) (w : Word) (h : s0.Keeps s) : s0.Keeps (laneCfgWrite s l w) :=
  keeps_ite (laneDown_keeps _ _ (regSet_keeps _ _ h)) (keeps_unless (fun ht => keeps_ite (train_keeps _ ht) ht) (regSet_keeps
      _ _ h))

theorem laneCtrlWrite_keeps (f : Nat) (w : Word) (h : s0.Keeps s) : s0.Keeps (laneCtrlWrite s f w) :=
  keeps_if (laneRetrain_keeps _) (keeps_if (laneRetrain_keeps _) (keeps_if (laneAck_keeps _) (keeps_ite (laneAck_keeps _ h)
      h)))

theorem activeActs_keeps (o : Nat) (w : Word) (h : s0.Keeps s) : ∀ t, activeActs s o w = some t → s0.Keeps t := by
  have hsrch := loaderWrite_keeps o 0x3F00 w srchLoad srchUnload h (fun _ hu => srchLoad_keeps hu) (fun _ hu => srchUnload_keeps hu)
  have htok := loaderWrite_keeps o 0xF3F30 w tokLoad tokUnload h (fun _ hu => tokLoad_keeps hu) (fun _ hu => tokUnload_keeps hu)
  have hclp := loaderWrite_keeps o 0x3F00 w id clpUnload h (fun _ hu => hu) (fun _ hu => clpUnload_keeps hu)
  unfold activeActs
  exact keeps_ite_some hsrch (keeps_ite_some htok (keeps_ite_some hclp (keeps_ite_some (gainWrite_keeps _ h)
    (keeps_ite_some (charCfgWrite_keeps _ h) (keeps_ite_some (charTxWrite_keeps _ h) (keeps_ite_some (keeps_if clearCut_keeps h)
      (keeps_ite_some (chainBufWrite_keeps _ _ h) (keeps_ite_some (mbxWrite_keeps _ _ h) keeps_none))))))))

theorem facetActs_keeps (port f o : Nat) (w : Word) (h : s0.Keeps s) : ∀ t, facetActs s port f o w = some t → s0.Keeps t := by
  unfold facetActs
  exact keeps_ite_some (keeps_if schedClear_keeps (keeps_if (schedLoad_keeps _) h)) (keeps_ite_some (pmaxWrite_keeps _ _ _ h)
    (keeps_ite_some (keeps_if (stopJob_keeps _ _) (keeps_if (jobStart_keeps _ _) h)) (keeps_ite_some (laneCfgWrite_keeps _ _ h)
      (keeps_ite_some (laneCtrlWrite_keeps _ _ h) keeps_none))))

theorem facetWrite_keeps (port f o : Nat) (w : Word) (h : s0.Keeps s) : s0.Keeps (facetWrite s port f o w) := by
  unfold facetWrite
  refine keeps_ite h ?_
  split
  · exact facetActs_keeps _ _ _ _ h _ ‹_›
  · exact keeps_ite (activeActs_keeps _ _ h _ ‹_›) h
  · refine keeps_ite (sealedWrite_keeps _ _ h) (keeps_ite (keeps_ite (sealedWrite_keeps _ _ h) h) ?_)
    split
    · exact keeps_ite h (regSet_keeps _ _ h)
    · exact h

theorem tenantCount_keeps (k : Nat) (h : s0.Keeps s) : s0.Keeps (tenantCount s k).1 := keeps_frame h

theorem viewRead_keeps (fn : FnId) (o : Nat) (h : s0.Keeps s) : s0.Keeps (viewRead s fn o).1 :=
  keeps_ite_fst (globalRead_keeps _ _ h) (keeps_ite_fst h (keeps_ite_fst h (keeps_ite_fst h (keeps_ite_fst h (keeps_ite_fst
      (tenantCount_keeps _ h) (keeps_ite_fst h (keeps_ite_fst h (keeps_ite_fst h (keeps_ite_fst (tenantCount_keeps _ h)
      (keeps_ite_fst h (keeps_ite_fst h (keeps_ite_fst (ringRead_keeps _ _ h) (keeps_ite_fst h h)))))))))))))

theorem viewWrite_keeps (fn : FnId) (o : Nat) (w : Word) (h : s0.Keeps s) : s0.Keeps (viewWrite s fn o w) :=
  keeps_ite (groupWrite_keeps _ _ _ _ h) (keeps_ite (ringWrite_keeps _ _ _ h) (keeps_ite (evtSetupWrite_keeps _ _ _ h) h))

theorem bar2Write_keeps (fn : FnId) (o : Nat) (w : Word) (h : s0.Keeps s) : s0.Keeps (bar2Write s fn o w) :=
  keeps_ite h (releasePending_keeps _ (setFunc_keeps _ _ h))

theorem badAccess_keeps (port : Nat) (h : s0.Keeps s) : s0.Keeps (badAccess s port) := bump_keeps _ _ _ _ h

theorem ownerRead_keeps (port off : Nat) (h : s0.Keeps s) : s0.Keeps (ownerRead s port off).1 :=
  keeps_ite_fst (globalRead_keeps _ _ h) (keeps_ite_fst (facetRead_keeps _ _ h) h)

theorem ownerWrite_keeps (port off : Nat) (w : Word) (h : s0.Keeps s) : s0.Keeps (ownerWrite s port off w) :=
  keeps_ite (globalWrite_keeps _ _ _ h) (keeps_ite (facetWrite_keeps _ _ _ _ h) h)

theorem readBar_keeps (fn : FnId) (bar off : Nat) (h : s0.Keeps s) : s0.Keeps (readBar s fn bar off).1 :=
  keeps_ite_fst h (keeps_ite_fst h (keeps_ite_fst (ownerRead_keeps _ _ h) (viewRead_keeps _ _ h)))

theorem writeBar_keeps (fn : FnId) (bar off : Nat) (w : Word) (h : s0.Keeps s) : s0.Keeps (writeBar s fn bar off w) :=
  keeps_ite (bar2Write_keeps _ _ _ h) (keeps_ite h (keeps_ite (ownerWrite_keeps _ _ _ h) (viewWrite_keeps _ _ _ h)))

theorem regRead_keeps (fn : FnId) (bar off size : Nat) (h : s0.Keeps s) : s0.Keeps (regRead s fn bar off size) :=
  keeps_ite (emit_keeps _ h) (keeps_ite h (keeps_ite (emit_keeps _ (badAccess_keeps _ h)) (emit_keeps _ (readBar_keeps _ _ _
      h))))

theorem regWrite_keeps (fn : FnId) (bar off size : Nat) (w : Word) (h : s0.Keeps s) :
    s0.Keeps (regWrite s fn bar off size w) := by
  unfold regWrite
  refine keeps_ite ?_ (keeps_ite h (keeps_ite (badAccess_keeps _ h) (writeBar_keeps _ _ _ _ h)))
  refine keeps_ite ?_ h
  split
  · exact mbxWrite_keeps _ _ h
  · exact h

theorem execRegisterWrite_keeps (port tenant bar off size : Nat) (w : Word) (h : s0.Keeps s) :
    Leads s0 (execRegisterWrite port tenant bar off size w s) :=
  leads_next (regWrite_keeps _ _ _ _ _ h)

theorem execRegisterRead_keeps (port tenant bar off size : Nat) (h : s0.Keeps s) :
    Leads s0 (execRegisterRead port tenant bar off size s) :=
  leads_next (regRead_keeps _ _ _ _ h)

/-! ## Pipeline -/

theorem pipeClose_keeps (tag : Nat) (r : Request) (p : Pipeline) (st : Status) (h : s0.Keeps s) :
    s0.Keeps (pipeClose s tag r p st) :=
  finish_keeps _ _ _ (keeps_unless (keeps_foldl _ (fun _ _ hu => writeOut_keeps _ _ _ _ hu) _) (writeOut_keeps _ _ _ _ h))

theorem stage0_keeps (r : Request) (p : Pipeline) (f : Nat) (h : s0.Keeps s) : s0.Keeps (stage0 s r p f).1 := by
  unfold stage0
  refine keeps_ite_fst h ?_
  dsimp only
  split
  · exact h
  · split
    · exact h
    · exact h
    · exact keeps_andThen _ _ (tokenizeCore_keeps _ _ _ _ _ h) (fun _ _ hu => countFallback_keeps _ _ (keeps_frame hu))

theorem stage1Open_keeps (tag : Nat) (r : Request) (p : Pipeline) (h : s0.Keeps s) : s0.Keeps (stage1Open s tag r p) := by
  unfold stage1Open
  refine keeps_ite h ?_
  extract_lets +onlyGivenNames _ s1
  have h1 : s0.Keeps s1.1 := gatherInputs_keeps _ _ h (fun _ hu => hu)
  split
  · exact h
  · exact finishStage_keeps _ _ _ h1
  · exact gatherOpen_keeps _ _ _ h1

theorem stage1_keeps (tag : Nat) (r : Request) (p : Pipeline) (h : s0.Keeps s) : s0.Keeps (stage1 s tag r p).1 := by
  unfold stage1
  split
  · exact h
  · refine keeps_ite_fst h ?_
    extract_lets +onlyGivenNames _ _ _
    split <;> exact (gatherCounts_keeps _ _ _ (keeps_frame h))

theorem stage2_keeps (tag : Nat) (r : Request) (p : Pipeline) (h : s0.Keeps s) : s0.Keeps (stage2 s tag r p).1 :=
  keeps_andThen _ _ (embedStage_keeps _ _ _ _ h) (fun _ _ ht => ht)

theorem stage4_keeps (r : Request) (p : Pipeline) (h : s0.Keeps s) : s0.Keeps (stage4 s r p).1 := by
  unfold stage4
  refine keeps_ite_fst h ?_
  split
  · exact h
  · split
    · exact h
    · split
      · exact h
      · dsimp only
        exact spoilScratch_keeps _ _ (selectCounts_keeps _ _ _ _ h)

theorem stage5_keeps (tag : Nat) (r : Request) (p : Pipeline) (h : s0.Keeps s) : s0.Keeps (stage5 s tag r p).1 := by
  unfold stage5
  split
  · exact h
  · exact keeps_andThen _ _ (rerankStage_keeps _ _ _ _ _ _ _ h) (fun _ _ ht => ht)

theorem stage6_keeps (tag : Nat) (r : Request) (p : Pipeline) (h : s0.Keeps s) : s0.Keeps (stage6 s tag r p).1 := by
  unfold stage6
  split
  · exact h
  · exact keeps_andThen _ _ (packStage_keeps _ _ _ _ _ _ h) (fun _ _ ht => ht)

theorem stageRun_keeps (tag : Nat) (r : Request) (p : Pipeline) (unit : Nat) (h : s0.Keeps s) :
    s0.Keeps (stageRun s tag r p unit).1 := by
  unfold stageRun
  dsimp only
  split
  · exact h
  · split
    · exact stage0_keeps _ _ _ h
    · exact stage1_keeps _ _ _ h
    · exact stage2_keeps _ _ _ h
    · exact stage4_keeps _ _ h
    · exact stage5_keeps _ _ _ h
    · exact stage6_keeps _ _ _ h
    · split
      · exact h
      · exact keeps_ite_fst h h

theorem stageBegin_keeps (tag : Nat) (h : s0.Keeps s) : s0.Keeps (stageBegin s tag) := by
  unfold stageBegin
  split
  · exact h
  · split
    · exact h
    · exact keeps_ite (stage1Open_keeps _ _ _ h) (keeps_ite (keeps_ite (searchStage_keeps _ _ _ _ h) (searchStage_keeps _ _ _
        _ h)) (keeps_ite (prefillStage_keeps _ _ _ _ h) h))

theorem stageEnd_keeps (tag : Nat) (r : Request) (p : Pipeline) (st : Status) (selection : Bool) (h : s0.Keeps s) :
    s0.Keeps (stageEnd s tag r p st selection) :=
  keeps_unless (fun ht => keeps_ite ht (stageBegin_keeps _ (keeps_frame (setRequest_keeps _ _ h)))) (pipeClose_keeps _ _ _ _
      (keeps_frame (setRequest_keeps _ _ h)))

theorem spoilSlots_keeps (r : Request) (p : Pipeline) (h : s0.Keeps s) : s0.Keeps (spoilSlots s r p) := by
  unfold spoilSlots
  refine keeps_ite h ?_
  refine keeps_ite h ?_
  split
  · exact h
  · exact keeps_foldl _ (fun _ _ hv => keeps_ite hv (spoilBytes_keeps _ _ hv)) _ h

theorem dropLosers_keeps (p : Pipeline) (h : s0.Keeps s) : s0.Keeps (dropLosers s p).1 := keeps_ite_fst h (countSlots_keeps _ h)

theorem stageFabric_keeps (r : Request) (p : Pipeline) (fab : Nat × FabricSeen) (h : s0.Keeps s) :
    s0.Keeps (stageFabric s r p fab).1 :=
  keeps_ite_fst h (fabricMeets_keeps _ _ _ _ _ _ (keeps_frame h))

theorem stageComplete_keeps (tag : Nat) (r : Request) (p : Pipeline) (check : Option Mismatch) (unit : Nat)
    (fab : Nat × FabricSeen) (h : s0.Keeps s) :
    s0.Keeps (stageComplete s tag r p check unit fab) := by
  unfold stageComplete
  extract_lets +onlyGivenNames s1
  have h1 : s0.Keeps s1.1 := stageRun_keeps _ _ _ _ h
  split
  · exact stageBegin_keeps _ h
  · exact stageEnd_keeps _ _ _ _ _ h1
  · exact keeps_ite (stageEnd_keeps _ _ _ _ _ h) (keeps_ite (stageEnd_keeps _ _ _ _ _ (stageFabric_keeps _ _ _ h1))
      (keeps_ite (stageEnd_keeps _ _ _ _ _ (meetCheck_keeps _ _ (stageFabric_keeps _ _ _ h1))) (stageEnd_keeps _ _ _ _ _
      (dropLosers_keeps _ (spoilSlots_keeps _ _ (meetCheck_keeps _ _ (stageFabric_keeps _ _ _ h1)))))))

theorem execStageComplete_keeps (tag : Nat) (check : Option Mismatch) (unit : Nat) (fabric : Nat × FabricSeen)
    (h : s0.Keeps s) :
    Leads s0 (execStageComplete tag check unit fabric s) := by
  refine leads_next ?_
  split
  · split
    · exact stageComplete_keeps _ _ _ _ _ _ h
    · exact h
  · exact h

theorem execGatherRowArrival_keeps (tag : Nat) (x : RowArrival) (h : s0.Keeps s) : Leads s0 (execGatherRowArrival tag x s) := by
  refine leads_next ?_
  split
  · exact rowArrival_keeps _ _ _ _ h
  · split
    · exact keeps_ite (rowArrival_keeps _ _ _ _ h) h
    · exact h
  · exact h

theorem pipeRefused_keeps (tag : Nat) (r : Request) (st : Status) (h : s0.Keeps s) : s0.Keeps (pipeRefused s tag r st) :=
  pipeClose_keeps _ _ _ _ h

theorem pipePoisoned_keeps (tag : Nat) (r : Request) (p : Pipeline) (st : Status) (h : s0.Keeps s) :
    s0.Keeps (pipePoisoned s tag r p st) :=
  pipeClose_keeps _ _ _ _ h

theorem pipeChecked_keeps (tag : Nat) (r : Request) (plan : List Byte) (input : Got (List Byte)) (h : s0.Keeps s) :
    s0.Keeps (pipeChecked s tag r plan input) := by
  unfold pipeChecked
  refine keeps_ite (pipeRefused_keeps _ _ _ h) ?_
  refine keeps_ite (pipeRefused_keeps _ _ _ h) ?_
  refine keeps_ite (pipeRefused_keeps _ _ _ h) ?_
  split
  · exact h
  · exact pipePoisoned_keeps _ _ _ _ h
  · exact keeps_ite (pipeRefused_keeps _ _ _ h) (stageBegin_keeps _ (setRequest_keeps _ _ h))

theorem notePlan_keeps (r : Request) (plan : List Byte) (h : s0.Keeps s) : s0.Keeps (notePlan s r plan) :=
  keeps_foldl _ (fun _ _ ht => noteExt_keeps _ _ _ _ ht) _ h

theorem pipeStart_keeps (tag : Nat) (r : Request) (h : s0.Keeps s) : s0.Keeps (pipeStart s tag r) := by
  unfold pipeStart
  refine keeps_ite h ?_
  refine keeps_ite (finish_keeps _ _ _ h) ?_
  extract_lets +onlyGivenNames _
  split
  · exact keepReads_keeps _ h
  · exact pipeRefused_keeps _ _ _ h
  · extract_lets +onlyGivenNames s2
    have h2 : s0.Keeps s2.1 := readAt_keeps _ _ _ _ h
    split
    · exact keepReads_keeps _ h
    · exact keeps_ite (pipeChecked_keeps _ _ _ _ (notePlan_keeps _ _ h2)) (pipeRefused_keeps _ _ _ (notePlan_keeps _ _ h2))
    · exact pipeChecked_keeps _ _ _ _ (notePlan_keeps _ _ h2)

theorem execPipeline_keeps (tag : Nat) (h : s0.Keeps s) : Leads s0 (execPipeline tag s) := by
  refine leads_next ?_
  split
  · exact pipeStart_keeps _ _ h
  · exact h

/-! ## Tick -/

theorem tick_keeps (h : s0.Keeps s) : s0.Keeps (tick s) := keeps_ite (fabricGrain_keeps (frameEnds_keeps (keeps_frame h))) h

end Sys2Proof.Machine
end

section
/-! The machine's step keeps the canonical form, the rest of the queue and what manufacture fixed (O60). -/
namespace Sys2Proof.Machine

/-- Every command leads only to states that keep what stands. -/
theorem exec_keeps {s0 s : State} (i : Instr) (h : s0.Keeps s) : Leads s0 (exec i s) := by
  cases i with
  | pwrGoodRise _ _ => exact execPwrGoodRise_keeps _ _ h
  | pwrGoodFall => exact execPwrGoodFall_keeps h
  | packageReset _ _ => exact execPackageReset_keeps _ _ h
  | imageUpdate => exact execImageUpdate_keeps h
  | imageUpdateDone _ _ => exact execImageUpdateDone_keeps _ _ h
  | heartbeat => exact execHeartbeat_keeps h
  | heartbeatTimeout => exact execHeartbeatTimeout_keeps h
  | phyLockLost _ => exact execPhyLockLost_keeps _ h
  | clkPmaxWrite _ _ _ => exact execClkPmaxWrite_keeps _ _ _ h
  | dcoStep _ => exact execDcoStep_keeps _ h
  | dcoFault _ => exact execDcoFault_keeps _ h
  | pllLockLost => exact execPllLockLost_keeps h
  | clockRelock _ => exact execClockRelock_keeps _ h
  | fabSchedLoad _ => exact execFabSchedLoad_keeps _ h
  | fabSchedBlobChecked _ _ => exact execFabSchedBlobChecked_keeps _ _ h
  | fabSchedActivate _ => exact execFabSchedActivate_keeps _ h
  | fabSchedClear _ => exact execFabSchedClear_keeps _ h
  | rdS _ _ => exact execRdS_keeps _ _ h
  | rdO _ _ _ => exact execRdO_keeps _ _ _ h
  | upg _ _ _ => exact execUpg_keeps _ _ _ h
  | wb _ _ _ => exact execWb_keeps _ _ _ h
  | evict _ _ => exact execEvict_keeps _ _ h
  | fwdData _ _ => exact execFwdData_keeps _ _ h
  | ackInv _ _ => exact execAckInv_keeps _ _ h
  | dataGrant _ _ _ => exact execDataGrant_keeps _ _ _ h
  | fwdS _ _ => exact execFwdS_keeps _ _ h
  | fwdO _ _ => exact execFwdO_keeps _ _ h
  | inv _ _ => exact execInv_keeps _ _ h
  | wbAck _ _ => exact execWbAck_keeps _ _ h
  | ioAccess _ _ _ _ _ => exact execIoAccess_keeps _ _ _ _ _ h
  | nsFill _ _ _ _ => exact execNsFill_keeps _ _ _ _ h
  | nsDrain _ _ _ _ => exact execNsDrain_keeps _ _ _ _ h
  | fenceInstruction _ => exact execFenceInstruction_keeps _ h
  | scrubRead _ _ _ => exact execScrubRead_keeps _ _ _ h
  | rowRetireCopyDone _ _ _ _ => exact execRowRetireCopyDone_keeps _ _ _ _ h
  | resvEvaluation => exact execResvEvaluation_keeps h
  | extentRead _ _ _ _ => exact execExtentRead_keeps _ _ _ _ h
  | nandCommandIssue _ _ => exact execNandCommandIssue_keeps _ _ h
  | readStatusPoll _ _ => exact execReadStatusPoll_keeps _ _ h
  | nandTimeout _ => exact execNandTimeout_keeps _ h
  | codewordDecode _ _ _ _ => exact execCodewordDecode_keeps _ _ _ _ h
  | zqCalibrationShort _ => exact execZqCalibrationShort_keeps _ h
  | flsJobStart _ _ => exact execFlsJobStart_keeps _ _ h
  | flsJobAbort _ => exact execFlsJobAbort_keeps _ h
  | jobErase _ _ _ => exact execJobErase_keeps _ _ _ h
  | jobProgram _ _ _ _ _ => exact execJobProgram_keeps _ _ _ _ _ h
  | jobScan _ _ _ _ => exact execJobScan_keeps _ _ _ _ h
  | jobRead _ _ _ _ => exact execJobRead_keeps _ _ _ _ h
  | nop _ => exact execNop_keeps _ h
  | fence _ => exact execFence_keeps _ h
  | pipeline _ => exact execPipeline_keeps _ h
  | stageComplete _ _ _ _ => exact execStageComplete_keeps _ _ _ _ h
  | tokenize _ _ => exact execTokenize_keeps _ _ h
  | detokenize _ _ => exact execDetokenize_keeps _ _ h
  | tokLdLoad _ => exact execTokLdLoad_keeps _ h
  | tokLoadDone _ _ => exact execTokLoadDone_keeps _ _ h
  | tokLdUnload _ => exact execTokLdUnload_keeps _ h
  | slotUnloadDone => exact execSlotUnloadDone_keeps h
  | maskReady _ _ _ => exact execMaskReady_keeps _ _ _ h
  | gather _ => exact execGather_keeps _ h
  | gatherRowArrival _ _ => exact execGatherRowArrival_keeps _ _ h
  | scatterWrite _ => exact execScatterWrite_keeps _ h
  | scatterAdd _ => exact execScatterAdd_keeps _ h
  | scatterRefresh _ => exact execScatterRefresh_keeps _ h
  | embed _ => exact execEmbed_keeps _ h
  | rerank _ => exact execRerank_keeps _ h
  | tilePassDone _ _ _ => exact execTilePassDone_keeps _ _ _ h
  | outputTileDone _ _ => exact execOutputTileDone_keeps _ _ h
  | search _ => exact execSearch_keeps _ h
  | centroidExchange _ => exact execCentroidExchange_keeps _ h
  | scanDone _ _ => exact execScanDone_keeps _ _ h
  | nbPrefetchCopyDone _ _ _ => exact execNbPrefetchCopyDone_keeps _ _ _ h
  | shardDeadlineX _ => exact execShardDeadlineX_keeps _ h
  | srchLdLoad _ => exact execSrchLdLoad_keeps _ h
  | srchLoadDone _ _ => exact execSrchLoadDone_keeps _ _ h
  | srchLdUnload _ => exact execSrchLdUnload_keeps _ h
  | selectRow _ _ => exact execSelectRow_keeps _ _ h
  | selectMerge _ => exact execSelectMerge_keeps _ h
  | packPrompt _ => exact execPackPrompt_keeps _ h
  | prefill _ => exact execPrefill_keeps _ h
  | prefillLayerDone _ => exact execPrefillLayerDone_keeps _ h
  | decodeAttach _ => exact execDecodeAttach_keeps _ h
  | detach _ => exact execDetach_keeps _ h
  | admitMsX _ _ => exact execAdmitMsX_keeps _ _ h
  | decodeStep _ _ => exact execDecodeStep_keeps _ _ h
  | chunkUs _ _ => exact execChunkUs_keeps _ _ h
  | textConsumedReread _ _ _ => exact execTextConsumedReread_keeps _ _ _ h
  | clpLdLoad _ _ _ => exact execClpLdLoad_keeps _ _ _ h
  | clpLdUnload _ => exact execClpLdUnload_keeps _ h
  | tenGroupWrite _ _ _ _ => exact execTenGroupWrite_keeps _ _ _ _ h
  | loadWeightsLoad _ => exact execLoadWeightsLoad_keeps _ h
  | loadWeightsSwap _ => exact execLoadWeightsSwap_keeps _ h
  | loadWeightsUnload _ => exact execLoadWeightsUnload_keeps _ h
  | troyMetadataArrival _ => exact execTroyMetadataArrival_keeps _ h
  | segmentComplete _ _ => exact execSegmentComplete_keeps _ _ h
  | inPlaceSwapStart _ => exact execInPlaceSwapStart_keeps _ h
  | windowUnitCopyDone _ => exact execWindowUnitCopyDone_keeps _ h
  | linkDown _ => exact execLinkDown_keeps _ h
  | perstAssert _ => exact execPerstAssert_keeps _ h
  | hotReset _ => exact execHotReset_keeps _ h
  | linkUp _ _ _ _ => exact execLinkUp_keeps _ _ _ _ h
  | vfFlr _ _ => exact execVfFlr_keeps _ _ h
  | pfFlr _ => exact execPfFlr_keeps _ h
  | vfEnableClear _ => exact execVfEnableClear_keeps _ h
  | d3hotTransition _ _ _ => exact execD3hotTransition_keeps _ _ _ h
  | atsInvalidateRequest _ _ _ => exact execAtsInvalidateRequest_keeps _ _ _ h
  | completionTimeout _ _ _ => exact execCompletionTimeout_keeps _ _ _ h
  | doorbellPoll _ _ _ => exact execDoorbellPoll_keeps _ _ _ h
  | doorbellPollData _ _ _ _ _ => exact execDoorbellPollData_keeps _ _ _ _ _ h
  | descriptorFetchData _ _ _ _ _ _ _ => exact execDescriptorFetchData_keeps _ _ _ _ _ _ _ h
  | cqHeadReread _ _ _ _ _ => exact execCqHeadReread_keeps _ _ _ _ _ h
  | modUsExpiry _ _ _ => exact execModUsExpiry_keeps _ _ _ h
  | rngSqEnable _ _ _ _ _ _ => exact execRngSqEnable_keeps _ _ _ _ _ _ h
  | rngCqEnable _ _ _ _ => exact execRngCqEnable_keeps _ _ _ _ h
  | rngDbEnable _ _ _ _ => exact execRngDbEnable_keeps _ _ _ _ h
  | ringDisable _ _ _ _ _ => exact execRingDisable_keeps _ _ _ _ _ h
  | evtEnable _ _ _ => exact execEvtEnable_keeps _ _ _ h
  | tenClearStart _ => exact execTenClearStart_keeps _ h
  | tenClearDone => exact execTenClearDone_keeps h
  | fecLock _ _ => exact execFecLock_keeps _ _ h
  | laneTrainingRetry _ => exact execLaneTrainingRetry_keeps _ h
  | lldpTransmit _ => exact execLldpTransmit_keeps _ h
  | lldpduReceived _ _ _ _ _ _ => exact execLldpduReceived_keeps _ _ _ _ _ _ h
  | lldpTtlExpiry _ => exact execLldpTtlExpiry_keeps _ h
  | strLaneAck _ => exact execStrLaneAck_keeps _ h
  | strLaneRetrain _ => exact execStrLaneRetrain_keeps _ h
  | strandRefclkLoss => exact execStrandRefclkLoss_keeps h
  | flowOpen _ _ => exact execFlowOpen_keeps _ _ h
  | acceptFrame _ _ => exact execAcceptFrame_keeps _ _ h
  | refuseFrame _ _ => exact execRefuseFrame_keeps _ _ h
  | ackFrame _ _ => exact execAckFrame_keeps _ _ h
  | finFrame _ _ => exact execFinFrame_keeps _ _ h
  | keepaliveFrame _ _ => exact execKeepaliveFrame_keeps _ _ h
  | resetFrame _ _ => exact execResetFrame_keeps _ _ h
  | keepaliveTimer => exact execKeepaliveTimer_keeps h
  | retransmitTimeout _ _ _ _ => exact execRetransmitTimeout_keeps _ _ _ _ h
  | ackDelay _ _ _ => exact execAckDelay_keeps _ _ _ h
  | peerLossTimeout _ => exact execPeerLossTimeout_keeps _ h
  | seqOpen _ _ => exact execSeqOpen_keeps _ _ h
  | kvBlock _ _ => exact execKvBlock_keeps _ _ h
  | shardQuery _ _ => exact execShardQuery_keeps _ _ h
  | shardResult _ _ => exact execShardResult_keeps _ _ h
  | weightReq _ _ => exact execWeightReq_keeps _ _ h
  | weightData _ _ => exact execWeightData_keeps _ _ h
  | chnRxgainApply => exact execChnRxgainApply_keeps h
  | noiseMeasurement _ => exact execNoiseMeasurement_keeps _ h
  | noiseStale => exact execNoiseStale_keeps h
  | syncMiss => exact execSyncMiss_keeps h
  | characterReceived _ => exact execCharacterReceived_keeps _ h
  | characterSend _ => exact execCharacterSend_keeps _ h
  | chnCharTxData _ => exact execChnCharTxData_keeps _ h
  | chnCharTxAbort => exact execChnCharTxAbort_keeps h
  | chnCharRxRead _ => exact execChnCharRxRead_keeps _ h
  | chainTxAttempt _ => exact execChainTxAttempt_keeps _ h
  | chainTxCut => exact execChainTxCut_keeps h
  | chainBusStuck => exact execChainBusStuck_keeps h
  | clearCut => exact execClearCut_keeps h
  | enumStart _ => exact execEnumStart_keeps _ h
  | assignFrame _ => exact execAssignFrame_keeps _ h
  | claimResend => exact execClaimResend_keeps h
  | enumInChange _ => exact execEnumInChange_keeps _ h
  | capFrame _ => exact execCapFrame_keeps _ h
  | departFrame _ => exact execDepartFrame_keeps _ h
  | applicationFrame _ => exact execApplicationFrame_keeps _ h
  | foreignFrame _ => exact execForeignFrame_keeps _ h
  | chnTxbGo _ _ => exact execChnTxbGo_keeps _ _ h
  | chnTxbWithdraw _ _ => exact execChnTxbWithdraw_keeps _ _ h
  | chnRxbStatusClear _ _ => exact execChnRxbStatusClear_keeps _ _ h
  | strPlanLoad _ _ _ => exact execStrPlanLoad_keeps _ _ _ h
  | pwrbrakeAsserted => exact execPwrbrakeAsserted_keeps h
  | pwrbrakeReleased => exact execPwrbrakeReleased_keeps h
  | powerLoopIteration _ => exact execPowerLoopIteration_keeps _ h
  | ejectAsserted => exact execEjectAsserted_keeps h
  | quiesceFlowReset => exact execQuiesceFlowReset_keeps h
  | quiesceRequestFail => exact execQuiesceRequestFail_keeps h
  | quiesceHeld => exact execQuiesceHeld_keeps h
  | ejectReleased => exact execEjectReleased_keeps h
  | hmkSeal _ => exact execHmkSeal_keeps _ h
  | hmkCheckDone => exact execHmkCheckDone_keeps h
  | openAll => exact execOpenAll_keeps h
  | openTenant _ => exact execOpenTenant_keeps _ h
  | drainComplete => exact execDrainComplete_keeps h
  | hmkDrainX => exact execHmkDrainX_keeps h
  | crystalLoss => exact execCrystalLoss_keeps h
  | thermtrip => exact execThermtrip_keeps h
  | registerWrite _ _ _ _ _ _ => exact execRegisterWrite_keeps _ _ _ _ _ _ h
  | strandLaneDown _ _ => exact execStrandLaneDown_keeps _ _ h
  | busIdle => exact execBusIdle_keeps h
  | chainFrameNotTaken _ _ _ => exact execChainFrameNotTaken_keeps _ _ _ h
  | dataFrame _ _ => exact execDataFrame_keeps _ _ h
  | strandFrameDiscard _ _ _ => exact execStrandFrameDiscard_keeps _ _ _ h
  | statusMsg _ _ => exact execStatusMsg_keeps _ _ h
  | hostReadCompletion _ _ _ _ => exact execHostReadCompletion_keeps _ _ _ _ h
  | registerRead _ _ _ _ _ => exact execRegisterRead_keeps _ _ _ _ _ h
  | vfEnableSet _ _ => exact execVfEnableSet_keeps _ _ h
  | jtagInstruction _ => exact execJtagInstruction_keeps _ h
  | openRetry _ => exact execOpenRetry_keeps _ h

/-- Settles O60: on an empty queue by what the passing grain keeps, and on any other by what the command in front keeps. -/
theorem everyStepKeepsTheCanonicalForm : Obligations.EveryStepKeepsTheCanonicalForm := by
  unfold Obligations.EveryStepKeepsTheCanonicalForm
  intro s t hwf hstep
  unfold step at hstep
  split at hstep
  case h_1 hempty =>
    cases hstep
    obtain ⟨hform, hqueue, hmfg⟩ := tick_keeps (keeps_refl s)
    exact ⟨hform hwf, by rw [hqueue, hempty, List.tail_nil], hmfg⟩
  case h_2 c rest hfront =>
    obtain ⟨hform, hqueue, hmfg⟩ := exec_keeps c (keeps_refl _) t hstep
    exact ⟨hform hwf, by rw [hqueue, hfront, List.tail_cons], hmfg⟩

end Sys2Proof.Machine
end

section
/-! Refutation of the Assay commands' statement (O17). -/
namespace Sys2Proof.Machine

/-- A live package whose port 0 is up with PASID on and holds a read of a function no part has: the place of its PASID register,
0xC0100 + 4 × 0xBFC1, is the place of the mailbox's command word, 0xF0004. -/
def strayRead : State :=
  { State.reset with
    supply := { State.reset.supply with powerGood := true }
    assay := { State.reset.assay with active := some .f0, ready := true }
    ports := [(0, { portReset with
      up := true, config := { portReset.config with pasid := true }, held := [⟨0xBFC1, ownReads, 0, 64⟩] })] }

/-- The read leaves with the PASID 2, which is the command that IMAGE_UPDATE has written. -/
theorem imageUpdate_strayRead_outs {t : State} (ht : exec .imageUpdate strayRead = .next t) :
    t.outs = [.hostRead ⟨0, 0xBFC1⟩ (some 2) 0 64] := by
  cases ht
  decide +kernel

/-- From the registers as they were, it leaves with the PASID 0. -/
theorem hostAsk_strayRead_outs : (hostAsk strayRead ⟨0, 0⟩ 0 0).outs = [.hostRead ⟨0, 0xBFC1⟩ (some 0) 0 64] := by
  decide +kernel

/-- Refutes O17: the frame of its IMAGE_UPDATE clause speaks of every state, and so of one whose port holds a read of a function
number past 64. A function's PASID register is found by its number alone, and this one's is the mailbox's command register: the read
that the update sends on ahead of its own leaves with the command just written (2) as its PASID, not with the 0 there before. -/
theorem not_assayCommandsComplete : ¬ Obligations.AssayCommandsComplete := by
  unfold Obligations.AssayCommandsComplete
  rintro ⟨himage, -⟩
  obtain ⟨t, ht, -, -, hrest⟩ := himage strayRead (by decide +kernel) (by decide +kernel) (by decide +kernel)
  have hopen : dmaOpen strayRead ⟨activeFacet strayRead / 4, 0⟩ = true := by decide +kernel
  rw [if_pos hopen] at hrest
  have houts := congrArg State.outs hrest
  have hasked : t.outs = [.hostRead ⟨0, 0xBFC1⟩ (some 0) 0 64] := houts.trans hostAsk_strayRead_outs
  rw [imageUpdate_strayRead_outs ht] at hasked
  exact absurd hasked (by decide)

end Sys2Proof.Machine
end

section
/-! Proofs of the clock islands' statements (03): the grain count, and the grain that passes on an empty queue. -/
namespace Sys2Proof.Machine

/-! ## Frames and grains (03 R68) -/

/-- Settles O4: the two parts are the quotient and the remainder by 128, and division by 128 recombines them. -/
theorem frameNumberAndGrainInFrame : Obligations.FrameNumberAndGrainInFrame := by
  unfold Obligations.FrameNumberAndGrainInFrame
  intro g
  exact ⟨rfl, rfl, Nat.div_add_mod g 128⟩

/-! ## What a scheduled flit leaves alone (04 R84, R92) -/

/-- The parts of the state that a scheduled flit leaves alone on its way, and that a grain's statement speaks of. -/
def State.flitFrame (s : State) : Clocks × List Instr × KMap Request × Fabric := (s.clk, s.pending, s.requests, s.fabric)

theorem raise_flitFrame (s : State) (t : Nat) (c : EventCode) (b f n d : Nat) :
    (raise s t c b f n d).flitFrame = s.flitFrame := by
  simp only [State.flitFrame, raise_clk, raise_pending, raise_requests, raise_fabric]

theorem regSet_flitFrame (s : State) (k : Nat) (w : Word) : (regSet s k w).flitFrame = s.flitFrame := rfl

theorem memWrite_flitFrame (s : State) (a : Nat) (d : List Byte) : (memWrite s a d).flitFrame = s.flitFrame := rfl

theorem bump_flitFrame (s : State) (k lo n d : Nat) : (bump s k lo n d).flitFrame = s.flitFrame := rfl

theorem setMem_flitFrame (s : State) (m : Memory) : State.flitFrame { s with mem := m } = s.flitFrame := rfl

theorem ite_flitFrame {p : Prop} [Decidable p] {a b s : State} (ha : a.flitFrame = s.flitFrame) (hb : b.flitFrame = s.flitFrame) :
    (if p then a else b).flitFrame = s.flitFrame := by
  split <;> assumption

theorem poisoning_flitFrame (s : State) (f : Nat) (o : Origin) (isFca : Bool) (a : Nat) (tn : Option Nat) :
    (poisoning s f o isFca a tn).flitFrame = s.flitFrame := by
  have hcount := bump_flitFrame s (fKey f 0x44) (poisonFld o) 8 1
  unfold poisoning
  generalize bump s (fKey f 0x44) (poisonFld o) 8 1 = u at hcount ⊢
  have howner (m : Memory) (b n d : Nat) : (raise { u with mem := m } 0 .poisonSet b f n d).flitFrame = s.flitFrame :=
    (raise_flitFrame _ _ _ _ _ _ _).trans ((setMem_flitFrame u m).trans hcount)
  refine ite_flitFrame ((bump_flitFrame _ _ _ _ _).trans hcount) ?_
  cases tn with
  | none => exact howner _ _ _ _
  | some t => exact ite_flitFrame (howner _ _ _ _) ((raise_flitFrame _ _ _ _ _ _ _).trans (howner _ _ _ _))

theorem rowCorrected_flitFrame (s : State) (r : RowId) : (rowCorrected s r).flitFrame = s.flitFrame := by
  unfold rowCorrected
  exact ite_flitFrame (setMem_flitFrame _ _) (setMem_flitFrame _ _)

theorem noteWeak_flitFrame (s : State) (g : Nat) : (noteWeak s g).flitFrame = s.flitFrame := by
  unfold noteWeak
  split
  · rfl
  · dsimp only
    split
    · exact (rowCorrected_flitFrame _ _).trans (bump_flitFrame _ _ _ _ _)
    · exact bump_flitFrame _ _ _ _ _

theorem noteRead_flitFrame (s : State) (t a n : Nat) : (noteRead s t a n).flitFrame = s.flitFrame := by
  unfold noteRead
  refine ite_flitFrame rfl ?_
  dsimp only
  rw [foldl_keeps State.flitFrame _ (fun _ _ => poisoning_flitFrame _ _ _ _ _ _),
    foldl_keeps State.flitFrame _ (fun _ _ => bump_flitFrame _ _ _ _ _), foldl_keeps State.flitFrame _ noteWeak_flitFrame]

theorem noteParts_flitFrame (s : State) (t a n : Nat) : (noteParts s t a n).flitFrame = s.flitFrame := by
  unfold noteParts
  exact ite_flitFrame rfl (foldl_keeps State.flitFrame _ (fun _ _ => noteRead_flitFrame _ _ _ _) _ _)

theorem arriveFlit_flitFrame (s : State) (x : QueuedFlit) : (arriveFlit s x).flitFrame = s.flitFrame := by
  unfold arriveFlit
  refine ite_flitFrame rfl (ite_flitFrame ?_ (regSet_flitFrame _ _ _))
  exact (memWrite_flitFrame _ _ _).trans ((noteParts_flitFrame _ _ _ _).trans (regSet_flitFrame _ _ _))

theorem slipAndArrive_flitFrame (s : State) (f g : Nat) (x : QueuedFlit) : (slipAndArrive s f g x).flitFrame = s.flitFrame := by
  have hslip : (slipFlit s f x.flit.flow).flitFrame = s.flitFrame := 
    (bump_flitFrame _ _ _ _ _).trans (bump_flitFrame _ _ _ _ _)
  unfold slipAndArrive
  exact ite_flitFrame ((arriveFlit_flitFrame _ _).trans hslip) hslip

theorem passFlit_flitFrame (s : State) (f : Nat) (x : QueuedFlit) : (passFlit s f x).flitFrame = s.flitFrame := by
  unfold passFlit
  split
  · exact arriveFlit_flitFrame _ _
  · exact slipAndArrive_flitFrame _ _ _ _

theorem sendDue_flitFrame (s : State) (f n : Nat) (xs : List QueuedFlit) : (sendDue s f n xs).flitFrame = s.flitFrame := by
  induction xs generalizing s n with
  | nil => rfl
  | cons x xs ih =>
    unfold sendDue
    exact ite_flitFrame ((ih _ _).trans (passFlit_flitFrame _ _ _)) ((ih _ _).trans (slipAndArrive_flitFrame _ _ _ _))

/-! ## The grain that passes (03 R67, R69) -/

/-- Of those parts, the grain's flits change the injection buffers alone. -/
theorem fabricGrain_flitFrame (s : State) :
    ∃ rest, (fabricGrain s).flitFrame = (s.clk, s.pending, s.requests, { s.fabric with inject := rest }) := by
  unfold fabricGrain takeFlits
  exact ⟨_, foldl_keeps State.flitFrame _ (fun _ _ => ite_flitFrame (sendDue_flitFrame _ _ _ _) rfl) _ _⟩

/-- With nothing in the buffers no flit goes. -/
theorem fabricGrain_idle {s : State} (h : s.fabric.inject = []) : fabricGrain s = s := by
  have hfab : { s.fabric with inject := [] } = s.fabric := by rw [← h]
  simp only [fabricGrain, takeFlits, h, List.map_nil, List.filter_nil, List.foldl_nil, hfab]

theorem schedEnd_flitFrame (s : State) :
    (schedEnd s).flitFrame = (s.clk, s.pending, s.requests, { s.fabric with active := [], ending := false }) := by
  unfold schedEnd
  refine foldl_keeps State.flitFrame _ (fun t f => ?_) _ _
  dsimp only
  rw [regSet_flitFrame, regSet_flitFrame]
  exact ite_flitFrame (regSet_flitFrame _ _ _) rfl

/-- A schedule that a CLEAR waits for is out of force from the first grain of a frame on. -/
theorem frameEnds_flitFrame (s : State) : (frameEnds s).flitFrame = (s.clk, s.pending, s.requests,
    if s.fabric.ending = true ∧ grainInFrame s.clk.grains.toNat = 0 then { s.fabric with active := [], ending := false }
    else s.fabric) := by
  unfold frameEnds
  split
  · exact schedEnd_flitFrame s
  · rfl

/-- The state with its grain count one higher. -/
def nextGrain (s : State) : State := { s with clk := { s.clk with grains := s.clk.grains + 1#64 } }

theorem tick_running {s : State} (hp : s.supply.powerGood = true) (hl : s.clk.locked = true) :
    tick s = fabricGrain (frameEnds (nextGrain s)) :=
  if_pos (by rw [hp, hl]; rfl)

theorem tick_stopped {s : State} (h : s.supply.powerGood = false ∨ s.clk.locked = false) : tick s = s :=
  if_neg (by rcases h with h | h <;> simp [h])

/-- With no flit and no CLEAR waiting, a grain moves the count alone. -/
theorem tick_idle {s : State} (hp : s.supply.powerGood = true) (hl : s.clk.locked = true) (hinject : s.fabric.inject = [])
    (hending : s.fabric.ending = false) : tick s = nextGrain s := by
  have hends : frameEnds (nextGrain s) = nextGrain s := if_neg fun h => Bool.noConfusion (hending.symm.trans h.1)
  rw [tick_running hp hl, hends, fabricGrain_idle (s := nextGrain s) hinject]

theorem tick_flitFrame {s : State} (hp : s.supply.powerGood = true) (hl : s.clk.locked = true) :
    ∃ fab, (tick s).flitFrame = ((nextGrain s).clk, s.pending, s.requests, fab) ∧ fab.active =
      if s.fabric.ending = true ∧ grainInFrame (s.clk.grains + 1#64).toNat = 0 then [] else s.fabric.active := by
  obtain ⟨rest, hgrain⟩ := fabricGrain_flitFrame (frameEnds (nextGrain s))
  obtain ⟨hclk, hpending, hrequests, hfabric⟩ := by
    simpa only [State.flitFrame, Prod.mk.injEq] using frameEnds_flitFrame (nextGrain s)
  rw [tick_running hp hl, hgrain, hclk, hpending, hrequests, hfabric]
  exact ⟨_, rfl, apply_ite Fabric.active _ _ _⟩

theorem step_emptyQueue {s : State} (h : s.pending = []) : step s = .next (tick s) := by
  simp only [step, h]

/-- Settles O2: a grain raises the count, may end the schedule, and sends flits, which touch neither the clocks, the queue, the
requests nor the schedule in force. -/
theorem emptyQueueCountsOneGrain : Obligations.EmptyQueueCountsOneGrain := by
  unfold Obligations.EmptyQueueCountsOneGrain
  intro s hs
  rw [step_emptyQueue hs]
  refine ⟨fun hp hl => ⟨fun hinject hending => by rw [tick_idle hp hl hinject hending]; rfl, tick s, rfl, ?_⟩,
    fun hstop => by rw [tick_stopped hstop]⟩
  obtain ⟨fab, hframe, hactive⟩ := tick_flitFrame hp hl
  simp only [State.flitFrame, Prod.mk.injEq] at hframe
  obtain ⟨hclk, hpending, hrequests, hfabric⟩ := hframe
  exact ⟨hclk, hpending.trans hs, hrequests, by rw [hfabric, hactive]⟩

end Sys2Proof.Machine
end

section
/-! Proof of the clock commands' statement (03 R63 to R69). -/
namespace Sys2Proof.Machine

/-! ## Ceilings (03 CLK_PMAX_A) -/

theorem mem_rangeFrom (n lo i : Nat) : i ∈ rangeFrom lo n ↔ lo ≤ i ∧ i < lo + n := by
  induction n generalizing lo with
  | zero => simp only [rangeFrom, List.not_mem_nil, false_iff]; omega
  | succ n ih => simp only [rangeFrom, List.mem_cons, ih]; omega

/-- The ceilings are the bits of a CLK_PMAX word that are not reserved. -/
theorem fld_pmaxMask (w : Word) {i : Nat} (hi : i < 4) : fld (w &&& 0x7F7F7F7F#32) (8 * i) 7 = fld w (8 * i) 7 := by
  have hmask : ∀ i, i < 4 → ∀ j, j < 7 → (0x7F7F7F7F#32).getLsbD (8 * i + j) = true := by decide
  apply Nat.eq_of_testBit_eq
  intro j
  rw [fld_testBit, fld_testBit, BitVec.getLsbD_and]
  by_cases hj : j < 7
  · rw [hmask i hi j hj, Bool.and_true]
  · simp [hj]

/-- Each ceiling is taken from its own bits, held at 104. -/
theorem fld_clampPmax (w : Word) {i : Nat} (hi : i < 4) : fld (clampPmax w) (8 * i) 7 = min (fld w (8 * i) 7) 104 := by
  simp only [clampPmax, List.foldl_cons, List.foldl_nil]
  match i, hi with
  | 0, _ | 1, _ | 2, _ | 3, _ => simp [fld_setFld_same, fld_setFld_ne]

/-! ## The fields of CLK_PMAX and CLK_PCUR -/

/-- SLEWING of a partition (03 R66). -/
def slewing (s : State) (p : Nat) : Nat := regFld s (pcurAt p).1 ((pcurAt p).2 + 7) 1

/-- The ceiling that the owner set for a partition. -/
def pmax (s : State) (p : Nat) : Nat := regFld s (pmaxAt p).1 (pmaxAt p).2 7

/-- No ceiling lies in a register of codes in force. -/
theorem pcurAt_ne_pmaxAt (p q : Nat) : (pcurAt p).1 ≠ (pmaxAt q).1 := by
  simp only [pcurAt, pmaxAt, fKey, facetBase]
  omega

/-- A partition's code in force and every partition's SLEWING bit lie apart. -/
theorem pcurAt_apart_slewing (p q : Nat) :
    (pcurAt q).2 + 7 ≤ (pcurAt p).2 + 7 ∨ (pcurAt p).2 + 7 + 1 ≤ (pcurAt q).2 := by
  simp only [pcurAt]
  omega

theorem slewingAt_apart {p q : Nat} (h : q ≠ p) : (pcurAt p).1 ≠ (pcurAt q).1 ∨
    (pcurAt q).2 + 7 + 1 ≤ (pcurAt p).2 + 7 ∨ (pcurAt p).2 + 7 + 1 ≤ (pcurAt q).2 + 7 := by
  simp only [pcurAt, fKey, facetBase]
  omega

/-- A target rests on the ceiling, the grant and the brake limit alone (03 R63). -/
theorem targetCode_congr {s t : State} {p : Nat} (hmax : pmax t p = pmax s p) (hclk : t.clk = s.clk) (hpower : t.power = s.power)
    (hassay : t.assay = s.assay) : targetCode t p = targetCode s p := by
  simp only [pmax] at hmax
  simp only [targetCode, grantCode, brakeLimit, hmax, hclk, hpower, hassay]

theorem targetCode_lt (s : State) (p : Nat) : targetCode s p < 2 ^ 7 :=
  lt_of_le_of_lt (min_le_left _ _) (fld_lt _ _ _)

/-- Writes of CLK_PCUR fields leave every target. -/
theorem targetCode_setPcur (s : State) (p q lo n v : Nat) :
    targetCode (regSetFld s (pcurAt p).1 lo n v) q = targetCode s q :=
  targetCode_congr (regFld_regSetFld_ne s _ _ _ _ _ _ _ (.inl (pcurAt_ne_pmaxAt p q)))
    (regSetFld_clk _ _ _ _ _) (regSetFld_power _ _ _ _ _) (regSetFld_assay _ _ _ _ _)

/-! ## SLEWING brought in line (03 R66) -/

theorem targetCode_retarget (s : State) (p q : Nat) : targetCode (retarget s p) q = targetCode s q :=
  targetCode_setPcur s p q _ _ _

theorem pcur_retarget (s : State) (p q : Nat) : pcur (retarget s p) q = pcur s q :=
  regFld_regSetFld_ne s _ _ _ _ _ _ _ (.inr (pcurAt_apart_slewing p q))

theorem pmax_retarget (s : State) (p q : Nat) : pmax (retarget s p) q = pmax s q :=
  regFld_regSetFld_ne s _ _ _ _ _ _ _ (.inl (pcurAt_ne_pmaxAt p q))

/-- SLEWING of a partition tells whether its code in force differs from its target. -/
def SlewingShown (s : State) (p : Nat) : Prop := slewing s p = if pcur s p = targetCode s p then 0 else 1

theorem slewingShown_retarget_same (s : State) (p : Nat) : SlewingShown (retarget s p) p := by
  have hfits : (pcurAt p).2 + 7 + 1 ≤ 32 := by
    simp only [pcurAt]
    omega
  rw [SlewingShown, pcur_retarget, targetCode_retarget, slewing, retarget, regFld_regSetFld_same _ _ _ _ _ hfits]
  split <;> rfl

/-- Bringing one partition's bit in line leaves the others' in line. -/
theorem slewingShown_retarget {s : State} (p : Nat) {q : Nat} (h : SlewingShown s q) : SlewingShown (retarget s p) q := by
  by_cases hq : q = p
  · rw [hq]
    exact slewingShown_retarget_same s p
  · have hkept : slewing (retarget s p) q = slewing s q := regFld_regSetFld_ne s _ _ _ _ _ _ _ (slewingAt_apart hq)
    rw [SlewingShown, hkept, pcur_retarget, targetCode_retarget]
    exact h

theorem slewingShown_foldl_retarget {l : List Nat} {q : Nat} (s : State) (h : q ∈ l) : SlewingShown (l.foldl retarget s) q := by
  induction l generalizing s with
  | nil => cases h
  | cons p l ih =>
    rcases List.mem_cons.mp h with rfl | h
    · exact foldl_inv (SlewingShown · q) _ (fun _ p hs => slewingShown_retarget p hs) l _ (slewingShown_retarget_same s q)
    · exact ih _ h

theorem retarget_withRegs (s : State) (p : Nat) (m : KMap Word) : { retarget s p with regs := m } = { s with regs := m } :=
  regSet_withRegs s _ _ m

/-! ## CLK_PMAX_WRITE (03 R63) -/

/-- Partition `i` of four in a CLK_PMAX register of facet `f`. -/
def pmaxPart (f : Nat) (high : Bool) (i : Nat) : Nat := 8 * f + (if high then 4 else 0) + i

theorem pmaxAt_pmaxPart (f : Nat) (high : Bool) {i : Nat} (hi : i < 4) :
    pmaxAt (pmaxPart f high i) = (fKey f (if high then 0x10004 else 0x10000), 8 * i) := by
  cases high with
  | false =>
    simp only [pmaxAt, pmaxPart, fKey, facetBase, Prod.mk.injEq, Bool.false_eq_true, if_false]
    omega
  | true =>
    simp only [pmaxAt, pmaxPart, fKey, facetBase, Prod.mk.injEq, if_true]
    omega

section PmaxWrite
variable (s : State) (f : Nat) (high : Bool) (w : Word)

theorem pmaxWrite_frame : { pmaxWrite s f high w with regs := s.regs } = s :=
  (foldl_keeps (fun t : State => { t with regs := s.regs }) retarget (fun t p => retarget_withRegs t p s.regs) _ _).trans
    (regSet_withRegs s _ _ s.regs)

theorem pmax_pmaxWrite {i : Nat} (hi : i < 4) :
    pmax (pmaxWrite s f high w) (pmaxPart f high i) = min (fld w (8 * i) 7) 104 := by
  refine (foldl_keeps (pmax · _) retarget (fun t p => pmax_retarget t p _) _ _).trans ?_
  rw [pmax, pmaxAt_pmaxPart f high hi, regFld, regGet_regSet_same, fld_pmaxMask _ hi, fld_clampPmax w hi]

theorem pcur_pmaxWrite {i : Nat} (hi : i < 4) : pcur (pmaxWrite s f high w) (pmaxPart f high i) = pcur s (pmaxPart f high i) := by
  have hkey := pcurAt_ne_pmaxAt (pmaxPart f high i) (pmaxPart f high i)
  rw [pmaxAt_pmaxPart f high hi] at hkey
  refine (foldl_keeps (pcur · _) retarget (fun t p => pcur_retarget t p _) _ _).trans ?_
  rw [pcur, regFld, regGet_regSet_ne _ _ _ _ hkey.symm]
  rfl

theorem slewingShown_pmaxWrite {i : Nat} (hi : i < 4) : SlewingShown (pmaxWrite s f high w) (pmaxPart f high i) :=
  slewingShown_foldl_retarget _ ((mem_rangeFrom _ _ _).mpr (by simp only [pmaxPart]; omega))

end PmaxWrite

theorem exec_clkPmaxWrite_live {s : State} {f : Nat} (high : Bool) (w : Word) (ha : alive s = true) (hf : f < 8)
    (hl : fabricLive s f = true) : exec (.clkPmaxWrite f high w) s = .next (pmaxWrite s f high w) := by
  have h : exec (.clkPmaxWrite f high w) s = execClkPmaxWrite f high w s := rfl
  simp [h, execClkPmaxWrite, ha, hf, hl]

/-! ## DCO_STEP (03 R64) -/

/-- One step from a code toward a target. -/
def codeStep (c t : Nat) : Nat := if c < t then c + 1 else if t < c then c - 1 else c

theorem dcoStep_eq (s : State) (p : Nat) :
    dcoStep s p = retarget (regSetFld s (pcurAt p).1 (pcurAt p).2 7 (codeStep (pcur s p) (targetCode s p))) p := rfl

theorem targetCode_dcoStep (s : State) (p : Nat) : targetCode (dcoStep s p) p = targetCode s p := by
  rw [dcoStep_eq, targetCode_retarget, targetCode_setPcur]

/-- A step does not leave the seven bits of a code. -/
theorem pcur_dcoStep (s : State) (p : Nat) : pcur (dcoStep s p) p = codeStep (pcur s p) (targetCode s p) := by
  have hfits : (pcurAt p).2 + 7 ≤ 32 := by
    simp only [pcurAt]
    omega
  have hcode : pcur s p < 2 ^ 7 := fld_lt _ _ _
  have htarget := targetCode_lt s p
  rw [dcoStep_eq, pcur_retarget, pcur, regFld_regSetFld_same _ _ _ _ _ hfits]
  refine Nat.mod_eq_of_lt ?_
  simp only [codeStep]
  split_ifs <;> omega

theorem dcoStep_frame (s : State) (p : Nat) : { dcoStep s p with regs := s.regs } = s :=
  (retarget_withRegs _ p s.regs).trans (regSet_withRegs s _ _ s.regs)

theorem exec_dcoStep_live {s : State} {p : Nat} (ha : alive s = true) (hk : s.clk.locked = true) (hp : p < 64)
    (hl : partLive s p = true) : exec (.dcoStep p) s = .next (dcoStep s p) := by
  have h : exec (.dcoStep p) s = execDcoStep p s := rfl
  simp [h, execDcoStep, ha, hk, hp, hl]

/-! ## DCO_FAULT, PLL_LOCK_LOST and CLOCK_RELOCK (03 R67, R69, Corners) -/

theorem exec_dcoFault_live {s : State} {p : Nat} (ha : alive s = true) (hp : p < 64) (hl : partLive s p = true) :
    exec (.dcoFault p) s = .next (fenceUnit (regSetFld s (fKey (p / 8) 0x10010) (8 + p % 8) 1 1) 1 p 4) := by
  have h : exec (.dcoFault p) s = execDcoFault p s := rfl
  simp [h, execDcoFault, ha, hp, hl]

theorem exec_pllLockLost_locked {s : State} (ha : alive s = true) (hk : s.clk.locked = true) :
    exec .pllLockLost s = .next (enterHeld { s with clk := { s.clk with locked := false } } .clockFault 0x11) := by
  have h : exec .pllLockLost s = execPllLockLost s := rfl
  simp [h, execPllLockLost, ha, hk]

theorem exec_clockRelock_unlocked {s : State} (gap : Nat) (ha : alive s = true) (hk : s.clk.locked = false) :
    exec (.clockRelock gap) s = .next (relock (emptyTables s) gap) := by
  have h : exec (.clockRelock gap) s = execClockRelock gap s := rfl
  simp [h, execClockRelock, ha, hk]

/-- The parts of the state that a relock sets or keeps and that its statement speaks of. -/
def State.relockFrame (s : State) : Clocks × Fabric × Coherence × Hallmark := (s.clk, s.fabric, s.coh, s.hmk)

theorem setRegs_relockFrame (s : State) (m : KMap Word) : State.relockFrame { s with regs := m } = s.relockFrame := rfl

theorem setMem_relockFrame (s : State) (m : Memory) : State.relockFrame { s with mem := m } = s.relockFrame := rfl

theorem raise_relockFrame (s : State) (t : Nat) (c : EventCode) (b f n d : Nat) :
    (raise s t c b f n d).relockFrame = s.relockFrame := by
  simp only [State.relockFrame, raise_clk, raise_fabric, raise_coh, raise_hmk]

/-- Of those parts, clearing the schedule changes the fabric's loads, schedule in force and CLEAR alone (04 R93). -/
theorem clearSchedule_relockFrame (s : State) : (clearSchedule s).relockFrame =
    (s.clk, { s.fabric with loads := [], active := [], ending := false }, s.coh, s.hmk) := by
  unfold clearSchedule
  exact foldl_keeps State.relockFrame _ (fun _ _ => (setRegs_relockFrame _ _).trans ((setRegs_relockFrame _ _).trans
    ((setRegs_relockFrame _ _).trans (setRegs_relockFrame _ _)))) _ _

theorem relock_relockFrame (s : State) (gap : Nat) : (relock s gap).relockFrame =
    ({ s.clk with locked := true, grains := 0#64 }, ⟨[], [], [], false⟩, State.reset.coh, s.hmk) := by
  unfold relock
  dsimp only
  exact (raise_relockFrame _ _ _ _ _ _ _).trans ((setMem_relockFrame _ _).trans (clearSchedule_relockFrame _))

/-- Settles O5: the ceiling and the step by the fields of CLK_PMAX and CLK_PCUR that they write, the faults by what they lead to,
the relock by the parts of the state that it sets. -/
theorem clockCommandsComplete : Obligations.ClockCommandsComplete := by
  unfold Obligations.ClockCommandsComplete
  refine ⟨fun s f high w ha hf hl => ?pmax, fun s p ha hk hp hl => ?step, fun s p ha hp hl => ?fault,
    fun _ ha hk => exec_pllLockLost_locked ha hk, fun s gap ha hk => ?relock⟩
  case pmax =>
    exact ⟨_, exec_clkPmaxWrite_live high w ha hf hl, pmaxWrite_frame s f high w, fun i hi =>
      ⟨pmax_pmaxWrite s f high w hi, pcur_pmaxWrite s f high w hi, slewingShown_pmaxWrite s f high w hi⟩⟩
  case step =>
    exact ⟨_, exec_dcoStep_live ha hk hp hl, dcoStep_frame s p, targetCode_dcoStep s p, pcur_dcoStep s p,
      slewingShown_retarget_same _ p⟩
  case fault =>
    exact ⟨_, exec_dcoFault_live ha hp hl, rfl, regFld_regSetFld_same _ _ _ _ _ (by omega)⟩
  case relock =>
    have hframe := relock_relockFrame (emptyTables s) gap
    simp only [State.relockFrame, Prod.mk.injEq] at hframe
    obtain ⟨hclk, hfabric, hcoh, hhmk⟩ := hframe
    exact ⟨_, exec_clockRelock_unlocked gap ha hk, by rw [hclk], by rw [hclk], by rw [hclk]; rfl, hfabric, hcoh, hhmk⟩

end Sys2Proof.Machine
end

section
/-! Refutation of the fabric schedule commands' statement (O6). -/
namespace Sys2Proof.Machine

/-- A live package, SEALED, whose port 0 is up with PASID on and holds a read of a function that no part has: the place of its PASID
register, 0x1C0100 + 4 × 0xFFC6, is the place of facet 1's FAB_SCHED_STATE, 0x200018. -/
def strayScheduleRead : State :=
  { strayRead with
    hmk := { State.reset.hmk with state := .sealed }
    ports := [(0, { portReset with
      up := true, config := { portReset.config with pasid := true }, held := [⟨0xFFC6, ownReads, 0, 64⟩] })] }

/-- The load on facet 1 lets the read go with the PASID 1, which is the LOADING that the load has just shown. -/
theorem fabSchedLoad_strayScheduleRead_outs {t : State} (ht : exec (.fabSchedLoad 1) strayScheduleRead = .next t) :
    t.outs = [.hostRead ⟨0, 0xFFC6⟩ (some 1) 0 64] := by
  cases ht
  decide +kernel

/-- From the registers as they were, it goes with the PASID 0. -/
theorem askOwner_strayScheduleRead_outs :
    (askOwner strayScheduleRead (pair (regGet strayScheduleRead) (fKey 1 0)) (regGet strayScheduleRead (fKey 1 8)).toNat).outs =
      [.hostRead ⟨0, 0xFFC6⟩ (some 0) 0 64] := by
  decide +kernel

/-- Refutes O6: its first clause says that a load sends what a read of the blob sends from the state before it, and says so of every
state, even one whose port holds a read of a function number past 64. A function's PASID register is found by its number alone, and this
one's is facet 1's FAB_SCHED_STATE: the read that the load on facet 1 lets go leaves with LOADING (1) as its
PASID, not with the NONE (0) there before. -/
theorem not_fabricScheduleCommandsComplete : ¬ Obligations.FabricScheduleCommandsComplete := by
  unfold Obligations.FabricScheduleCommandsComplete
  rintro ⟨hload, -⟩
  obtain ⟨t, ht, -, -, -, houts, -⟩ := hload strayScheduleRead 1 (by decide +kernel) (by decide +kernel) (by decide)
    (by decide +kernel) (by decide +kernel) (by decide +kernel)
  have hpasid := (fabSchedLoad_strayScheduleRead_outs ht).symm.trans (houts.trans askOwner_strayScheduleRead_outs)
  exact absurd hpasid (by decide)

end Sys2Proof.Machine
end

section
/-! SUPPORT. Line ownership: what a read of the directory, of a cache or of device memory gives after each write of the coherence state,
which message is delivered, what a read of sound cells leaves, and what a home does with a request that it takes at once (05 R95 to R101;
06 R122). -/
namespace Sys2Proof.Machine

/-! ## Reads after writes -/

section Reads
variable (s : State) (l p : Nat) (d : Dir) (c : Cache) (m : CohMsg)

@[simp] theorem dirOf_setDir_same : dirOf (setDir s l d) l = d := mapGet_mapSet_same _ _ _ _
@[simp] theorem dirOf_setDir_ne {k : Nat} (h : l ≠ k) : dirOf (setDir s l d) k = dirOf s k := mapGet_mapSet_ne _ _ _ _ _ h
@[simp] theorem dirOf_setCache : dirOf (setCache s p c) l = dirOf s l := rfl
@[simp] theorem dirOf_cohSend : dirOf (cohSend s m) l = dirOf s l := rfl
@[simp] theorem dirOf_settleFences : dirOf (settleFences s) l = dirOf s l := rfl
@[simp] theorem cacheOf_setCache_same : cacheOf (setCache s p c) p = c := mapGet_mapSet_same _ _ _ _
@[simp] theorem cacheOf_setDir : cacheOf (setDir s l d) p = cacheOf s p := rfl
@[simp] theorem cacheOf_cohSend : cacheOf (cohSend s m) p = cacheOf s p := rfl
@[simp] theorem cacheOf_settleFences : cacheOf (settleFences s) p = cacheOf s p := rfl
@[simp] theorem setCoh_setCoh (x y : Coherence) : setCoh (setCoh s x) y = setCoh s y := rfl
@[simp] theorem setCoh_setDir (x : Coherence) : setCoh (setDir s l d) x = setCoh s x := rfl
@[simp] theorem setCoh_setCache (x : Coherence) : setCoh (setCache s p c) x = setCoh s x := rfl
@[simp] theorem setCoh_cohSend (x : Coherence) : setCoh (cohSend s m) x = setCoh s x := rfl
@[simp] theorem setCoh_settleFences (x : Coherence) : setCoh (settleFences s) x = setCoh s x := rfl

@[simp] theorem setCoh_awaitFrom (r : LineReq) (ps : List Nat) (x : Coherence) : setCoh (awaitFrom s l r ps) x = setCoh s x := rfl
@[simp] theorem setCoh_self : setCoh s s.coh = s := rfl

/-- Outside the coherence state nothing has changed. -/
theorem cohFrame {s t : State} (h : setCoh t s.coh = s) : { t with coh := s.coh } = s := h

@[simp] theorem memRead_setCoh (x : Coherence) (a n : Nat) : memRead (setCoh s x) a n = memRead s a n := rfl
@[simp] theorem memPoison_setCoh (x : Coherence) (a n : Nat) : memPoison (setCoh s x) a n = memPoison s a n := rfl
@[simp] theorem lineOfMem_setCoh (x : Coherence) : lineOfMem (setCoh s x) l = lineOfMem s l := by
  simp only [lineOfMem, memRead_setCoh, memPoison_setCoh]

end Reads

/-! ## Memory written beside the coherence state -/

/-- The state with its coherence state and its memory replaced. -/
def withCohMem (s : State) (c : Coherence) (m : Memory) : State := { s with coh := c, mem := m }

section CohMem
variable (s : State) (c : Coherence) (m : Memory)

@[simp] theorem withCohMem_self : withCohMem s s.coh s.mem = s := rfl
@[simp] theorem withCohMem_setCoh (x : Coherence) : withCohMem (setCoh s x) c m = withCohMem s c m := rfl
@[simp] theorem withCohMem_setDir (l : Nat) (d : Dir) : withCohMem (setDir s l d) c m = withCohMem s c m := rfl
@[simp] theorem withCohMem_cohSend (x : CohMsg) : withCohMem (cohSend s x) c m = withCohMem s c m := rfl
@[simp] theorem withCohMem_memWrite (a : Nat) (d : List Byte) : withCohMem (memWrite s a d) c m = withCohMem s c m := rfl

@[simp] theorem withCohMem_poisonRange (a n : Nat) (o : Origin) : withCohMem (poisonRange s a n o) c m = withCohMem s c m := by
  unfold poisonRange
  split <;> rfl

@[simp] theorem withCohMem_memWriteP (a : Nat) (d : List Byte) (po : Option Origin) :
    withCohMem (memWriteP s a d po) c m = withCohMem s c m := by
  cases po with
  | none => rfl
  | some o => exact withCohMem_poisonRange _ c m a _ o

/-- Outside the coherence state and memory nothing has changed. -/
theorem cohMemFrame {s t : State} (h : withCohMem t s.coh s.mem = s) : { t with coh := s.coh, mem := s.mem } = s := h

@[simp] theorem poisonRange_coh (a n : Nat) (o : Origin) : (poisonRange s a n o).coh = s.coh := by
  unfold poisonRange
  split <;> rfl

@[simp] theorem memWriteP_coh (a : Nat) (d : List Byte) (po : Option Origin) : (memWriteP s a d po).coh = s.coh := by
  cases po with
  | none => rfl
  | some o => exact poisonRange_coh _ a _ o

@[simp] theorem memByte_setDir (l : Nat) (d : Dir) (a : Nat) : memByte (setDir s l d) a = memByte s a := rfl
@[simp] theorem memByte_cohSend (x : CohMsg) (a : Nat) : memByte (cohSend s x) a = memByte s a := rfl

end CohMem

/-! ## Delivery (04 R73) -/

/-- The state in which the messages `rest` are under way. -/
def withNet (s : State) (rest : List CohMsg) : State := setCoh s { s.coh with net := rest }

@[simp] theorem setCoh_withNet (s : State) (rest : List CohMsg) (c : Coherence) : setCoh (withNet s rest) c = setCoh s c := rfl
@[simp] theorem cacheOf_withNet (s : State) (rest : List CohMsg) (p : Nat) : cacheOf (withNet s rest) p = cacheOf s p := rfl

theorem takeFirst_head {sel want : CohMsg → Bool} {m : CohMsg} (rest : List CohMsg) (hsel : sel m = true) (hwant : want m = true) :
    takeFirst sel want (m :: rest) = some (m, rest) := by
  simp only [takeFirst, hsel, hwant, if_true]

/-- The oldest message under way goes to the cache it names. -/
theorem recvCache_head {s : State} {m : CohMsg} {rest : List CohMsg} {l p : Nat} {want : CohMsg → Bool} (hnet : s.coh.net = m :: rest)
    (hto : toCache m = some (l, p)) (hwant : want m = true) : recvCache s l p want = some (m, withNet s rest) := by
  unfold recvCache
  dsimp only
  rw [hnet, takeFirst_head rest ?_ hwant]
  · rfl
  · simp [hto]

/-- The oldest message under way goes from the cache that sent it to the home of its line. -/
theorem recvHome_head {s : State} {m : CohMsg} {rest : List CohMsg} {l p : Nat} {want : CohMsg → Bool} (hnet : s.coh.net = m :: rest)
    (hfrom : fromCache m = some (l, p)) (hwant : want m = true) : recvHome s l p want = some (m, withNet s rest) := by
  unfold recvHome
  dsimp only
  rw [hnet, takeFirst_head rest ?_ hwant]
  · rfl
  · simp [hfrom]

/-! ## Reads of cells that hold no error (06 R122) -/

theorem look_eq_none {α : Type} {m : KMap α} {k : Nat} : look m k = none ↔ ∀ x ∈ m, x.1 ≠ k := by
  induction m with
  | nil => simp [look]
  | cons x m ih =>
    obtain ⟨a, v⟩ := x
    by_cases h : a = k
    · simp [look, h]
    · simp [look, h, ih]

/-- What `readsClean` says of each granule. -/
theorem readsClean_iff {s : State} {a n : Nat} : readsClean s a n = true ↔ ∀ g ∈ granulesOf a n,
    (g ∈ s.mem.broken → (look s.mem.poison g).isSome = true) ∧ look s.mem.weak g = none := by
  simp [readsClean, List.all_eq_true, imp_iff_not_or]

/-- A read that meets no error counts nothing. -/
theorem noteRead_clean {s : State} {a n : Nat} (t : Nat) (h : readsClean s a n = true) : noteRead s t a n = s := by
  rw [readsClean_iff] at h
  have hweak : (s.mem.weak.map (·.1)).filter (granulesOf a n).contains = [] := by
    rw [List.filter_eq_nil_iff]
    intro g hg
    obtain ⟨x, hx, rfl⟩ := List.mem_map.mp hg
    exact fun hin => look_eq_none.mp (h x.1 (List.contains_iff_mem.mp hin)).2 x hx rfl
  have hbad : (granulesOf a n).filter (fun g => s.mem.broken.contains g && (look s.mem.poison g).isNone) = [] := by
    rw [List.filter_eq_nil_iff]
    intro g hg hbroken
    simp only [Bool.and_eq_true, List.contains_iff_mem, Option.isNone_iff_eq_none] at hbroken
    have hpoison := (h g hg).1 hbroken.1
    simp [hbroken.2] at hpoison
  simp only [noteRead, hweak, hbad, List.foldl_nil, List.flatMap_nil, List.eraseDups_nil, ite_self]

/-- A write that reads no cell in error counts nothing. -/
theorem noteParts_clean {s : State} {a n : Nat} (t : Nat) (h : writesClean s a n = true) : noteParts s t a n = s := by
  rw [writesClean, List.all_eq_true] at h
  unfold noteParts
  split
  · rfl
  · generalize (granulesOf a n).filter (fun g => !covers a n g) = gs at h
    induction gs with
    | nil => rfl
    | cons g gs ih =>
      rw [List.foldl_cons, noteRead_clean t (h g (List.mem_cons_self ..))]
      exact ih fun x hx => h x (List.mem_cons_of_mem g hx)

/-! ## Requests that a home takes at once (05 R98, R101) -/

/-- A line with no transaction and no queue: its home starts the request. -/
theorem submitReq_idle {s : State} {l : Nat} (req : LineReq) (hhome : (homeOf l).isSome = true) (htxn : look s.coh.txn l = none)
    (hqueue : mapGet (fun _ => []) s.coh.queue l = []) : submitReq s l req = startReq s l req := by
  obtain ⟨h, hh⟩ := Option.isSome_iff_exists.mp hhome
  simp [submitReq, hh, htxn, hqueue]

/-- A request that is no UPG, for a line that no cache holds. -/
theorem startReq_invalid {s : State} {l : Nat} {req : LineReq} (hreq : ∀ t, req ≠ .upg t) (hdir : dirOf s l = .invalid) :
    startReq s l req = grantMem s l req := by
  cases req with
  | upg t => exact absurd rfl (hreq t)
  | _ => simp [startReq, hdir]

theorem startReq_rdS_shared {s : State} {l : Nat} {v : DWord} (tid : Tid) (hdir : dirOf s l = .shared v) :
    startReq s l (.rdS tid) = grantMem s l (.rdS tid) := by
  simp [startReq, hdir, readsOnly]

/-- UPG of a sharer with no other live sharer. -/
theorem startReq_upg_alone {s : State} {l : Nat} {v : DWord} {tid : Tid} (hdir : dirOf s l = .shared v)
    (hmine : bitOf v tid.part = true) (halone : ∀ p, p ∈ sharersOf v → p = tid.part ∨ partLive s p = false) :
    startReq s l (.upg tid) = grantMem s l (.upg tid) := by
  have hothers : (sharersOf v).filter (fun p => some tid.part != some p && partLive s p) = [] := by
    rw [List.filter_eq_nil_iff]
    intro p hp
    rcases halone p hp with rfl | hdead
    · simp
    · simp [hdead]
  simp only [startReq, hdir, hmine, if_true, hothers, List.isEmpty_nil, Bool.or_true]

/-- A line that a live cache owns: the home forwards to the owner and waits for it. -/
theorem startReq_owned {s : State} {l p : Nat} {req : LineReq} (hreq : ∀ t, req ≠ .upg t) (hdir : dirOf s l = .owned p)
    (hlive : partLive s p = true) : startReq s l req =
      cohSend (awaitFrom s l req [p]) (if readsOnly req then .fwdS l p (reqTid req) else .fwdO l p (reqTid req)) := by
  cases req with
  | upg t => exact absurd rfl (hreq t)
  | _ => simp [startReq, hdir, hlive]

section Grants
variable {s : State} {l : Nat} (tid : Tid)

theorem grantMem_rdS_invalid (hdir : dirOf s l = .invalid) (hclean : readsClean s (lineAddr l) 128 = true) :
    grantMem s l (.rdS tid) =
      cohSend (setDir s l (.owned tid.part)) (.grant .dataE l tid (lineOfMem s l).1 (lineOfMem s l).2) := by
  simp [grantMem, noteLine, noteRead_clean _ hclean, grantReq, hdir]

theorem grantMem_rdS_shared {v : DWord} (hdir : dirOf s l = .shared v) (hclean : readsClean s (lineAddr l) 128 = true) :
    grantMem s l (.rdS tid) = cohSend (setDir s l (.shared (setBit v tid.part true)))
      (.grant .dataS l tid (lineOfMem s l).1 (lineOfMem s l).2) := by
  simp [grantMem, noteLine, noteRead_clean _ hclean, grantReq, hdir]

theorem grantMem_rdO (hclean : readsClean s (lineAddr l) 128 = true) : grantMem s l (.rdO tid) =
    cohSend (setDir s l (.owned tid.part)) (.grant .dataM l tid (lineOfMem s l).1 (lineOfMem s l).2) := by
  simp [grantMem, noteLine, noteRead_clean _ hclean, grantReq]

theorem grantMem_upg : grantMem s l (.upg tid) = cohSend (setDir s l (.owned tid.part)) (.grant .grantM l tid [] none) := rfl

end Grants

end Sys2Proof.Machine
end

section
/-! Proof of the statement about RD_S, RD_O and UPG at a home (05 R97, R98). -/
namespace Sys2Proof.Machine

/-! ## What a partition's access leads to (05 R95, R97; 06 R121, R127) -/

/-- A live partition that no fence instruction holds back asks for a line of a home. -/
structure MayAsk (s : State) (l : Nat) (tid : Tid) : Prop where
  alive : alive s = true
  live : partLive s tid.part = true
  part : tid.part < 64
  entry : tid.entry < 32
  home : (homeOf l).isSome = true
  free : s.coh.fencing.contains tid.part = false

/-- The state in which a partition's miss register has been taken for a line and the store to it. -/
def missTaken (s : State) (l : Nat) (tid : Tid) (st : Option (Nat × List Byte)) : State :=
  setCache s tid.part { cacheOf s tid.part with misses := place (cacheOf s tid.part).misses tid.entry ⟨l, st⟩ }

section Access
variable {s : State} {l : Nat} {tid : Tid} {st : Option (Nat × List Byte)} {req : LineReq}

theorem look_misses_missTaken : look (cacheOf (missTaken s l tid st) tid.part).misses tid.entry = some ⟨l, st⟩ := by
  simp [missTaken]

@[simp] theorem setCoh_missTaken (x : Coherence) : setCoh (missTaken s l tid st) x = setCoh s x := rfl

theorem lineOfMem_missTaken (k : Nat) : lineOfMem (missTaken s l tid st) k = lineOfMem s k := lineOfMem_setCoh _ _ _

theorem MayAsk.gate (h : MayAsk s l tid) : (!Machine.alive s || !partLive s tid.part || decide (64 ≤ tid.part) ||
    decide (32 ≤ tid.entry) || (homeOf l).isNone || s.coh.fencing.contains tid.part) = false := by
  rw [h.alive, h.live, h.free, Option.isNone_eq_false_iff.mpr h.home, decide_eq_false (Nat.not_le.mpr h.part),
    decide_eq_false (Nat.not_le.mpr h.entry)]
  rfl

/-- What the cache serves goes to no home. -/
theorem MayAsk.cacheRequest_hit (h : MayAsk s l tid) {u : State} (hhit : cacheHit s l tid.part st req = some u) :
    cacheRequest s l tid st req = u := by
  simp only [cacheRequest, h.gate, hhit, Bool.false_eq_true, if_false]

theorem cacheHit_absent (hline : look (cacheOf s tid.part).lines l = none) : cacheHit s l tid.part st req = none := by
  simp [cacheHit, hline]

/-- A read of a line held. -/
theorem cacheHit_read {h : Held} (hreq : readsOnly req = true) (hline : look (cacheOf s tid.part).lines l = some h) :
    cacheHit s l tid.part st req = some s := by
  simp only [cacheHit, hline, hreq, if_true]

/-- A store to a line held in E or M. -/
theorem cacheHit_store {h : Held} {off : Nat} {n : List Byte} (hreq : readsOnly req = false)
    (hline : look (cacheOf s tid.part).lines l = some h) (hstate : h.state ≠ .shared) :
    cacheHit s l tid.part (some (off, n)) req = some (setCache s tid.part { cacheOf s tid.part with
      lines := place (cacheOf s tid.part).lines l (storedLine h off n) }) := by
  simp only [cacheHit, hline, hreq, Bool.false_eq_true, if_false, if_neg hstate]

/-- A line held in S serves no store. -/
theorem cacheHit_shared (hreq : readsOnly req = false)
    (hline : ∀ h, look (cacheOf s tid.part).lines l = some h → h.state = .shared) : cacheHit s l tid.part st req = none := by
  unfold cacheHit
  split
  · rfl
  · simp [hreq, hline _ ‹_›]

/-- An access that its tenant or a fenced unit forbids. -/
theorem MayAsk.cacheRequest_fault (h : MayAsk s l tid) {f : Status} (hhit : cacheHit s l tid.part st req = none)
    (hmiss : look (cacheOf s tid.part).misses tid.entry = none) (hcheck : cacheCheck s l tid.part = some f) :
    cacheRequest s l tid st req = partFault s tid.part f := by
  simp only [cacheRequest, h.gate, hhit, hmiss, hcheck, Option.isSome_none, Bool.false_eq_true, if_false]

/-- An access that passes its check, to a line with no transaction and no queue: the home starts it. -/
theorem MayAsk.cacheRequest_start (h : MayAsk s l tid) (hhit : cacheHit s l tid.part st req = none)
    (hmiss : look (cacheOf s tid.part).misses tid.entry = none) (hcheck : cacheCheck s l tid.part = none)
    (htxn : look s.coh.txn l = none) (hqueue : mapGet (fun _ => []) s.coh.queue l = []) :
    cacheRequest s l tid st req = startReq (missTaken s l tid st) l req := by
  simp only [cacheRequest, h.gate, hhit, hmiss, hcheck, Option.isSome_none, Bool.false_eq_true, if_false]
  exact submitReq_idle req h.home htxn hqueue

end Access

/-- Settles O7: the cache serves what it holds, the check refuses what is forbidden, and what is left the home starts, by the line's
directory entry. -/
theorem ownershipRequestsAtHome : Obligations.OwnershipRequestsAtHome := by
  unfold Obligations.OwnershipRequestsAtHome
  intro s l tid st halive hlive hpart hentry hhome hfree
  have hask : MayAsk s l tid := ⟨halive, hlive, hpart, hentry, hhome, hfree⟩
  have hrdS : exec (.rdS l tid) s = .next (cacheRequest s l tid none (.rdS tid)) := rfl
  have hrdO (x) : exec (.rdO l tid x) s = .next (cacheRequest s l tid x (.rdO tid)) := rfl
  have hupg : exec (.upg l tid st) s = .next (cacheRequest s l tid st (.upg tid)) := rfl
  simp only [hrdS, hrdO, hupg]
  refine ⟨fun h hline => ?held, fun f hline hmiss hcheck => ?forbidden, fun hmiss hcheck htxn hqueue hshared => ?home⟩
  case held =>
    rw [hask.cacheRequest_hit (cacheHit_read rfl hline)]
    refine ⟨rfl, fun off n hstate => ?_⟩
    rw [hask.cacheRequest_hit (cacheHit_store rfl hline hstate)]
    exact ⟨_, rfl, by simp, cohFrame (by simp)⟩
  case forbidden =>
    have hfault {x req} : cacheRequest s l tid x req = partFault s tid.part f :=
      hask.cacheRequest_fault (cacheHit_absent hline) hmiss hcheck
    exact ⟨congrArg _ hfault, congrArg _ hfault, congrArg _ hfault⟩
  case home =>
    have hstart {x req} (hhit : cacheHit s l tid.part x req = none) :
        cacheRequest s l tid x req = startReq (missTaken s l tid x) l req :=
      hask.cacheRequest_start hhit hmiss hcheck htxn hqueue
    refine ⟨fun hdir hclean hline => ?invalid, fun v hdir => ⟨fun hclean hline => ?read, fun hmine halone => ?upgrade⟩,
      fun p hdir hplive hline => ?owned⟩
    case invalid =>
      have hmem {x req} (hreq : ∀ t, req ≠ .upg t) : cacheRequest s l tid x req = grantMem (missTaken s l tid x) l req :=
        (hstart (cacheHit_absent hline)).trans (startReq_invalid hreq hdir)
      rw [hmem (fun _ => LineReq.noConfusion), hmem (fun _ => LineReq.noConfusion),
        grantMem_rdS_invalid (s := missTaken s l tid none) tid hdir hclean, grantMem_rdO (s := missTaken s l tid st) tid hclean,
        lineOfMem_missTaken, lineOfMem_missTaken]
      exact ⟨⟨_, rfl, by simp, rfl, by simp [look_misses_missTaken], cohFrame (by simp)⟩,
        ⟨_, rfl, by simp, rfl, by simp [look_misses_missTaken], cohFrame (by simp)⟩⟩
    case read =>
      rw [hstart (cacheHit_absent hline), startReq_rdS_shared (s := missTaken s l tid none) tid hdir,
        grantMem_rdS_shared (s := missTaken s l tid none) tid hdir hclean, lineOfMem_missTaken]
      exact ⟨_, rfl, by simp, rfl, cohFrame (by simp)⟩
    case upgrade =>
      rw [hstart (cacheHit_shared rfl hshared), startReq_upg_alone (s := missTaken s l tid st) hdir hmine halone, grantMem_upg]
      exact ⟨_, rfl, by simp, rfl, by simp [look_misses_missTaken], cohFrame (by simp)⟩
    case owned =>
      have hforward {x req} (hreq : ∀ t, req ≠ .upg t) : cacheRequest s l tid x req =
          cohSend (awaitFrom (missTaken s l tid x) l req [p]) (if readsOnly req then .fwdS l p (reqTid req) else .fwdO l p (reqTid req)) :=
        (hstart (cacheHit_absent hline)).trans (startReq_owned hreq hdir hplive)
      rw [hforward (fun _ => LineReq.noConfusion), hforward (fun _ => LineReq.noConfusion)]
      exact ⟨⟨_, rfl, hdir, look_place_same _ _ _, rfl, cohFrame (by simp)⟩,
        ⟨_, rfl, hdir, look_place_same _ _ _, rfl, cohFrame (by simp)⟩⟩

end Sys2Proof.Machine
end

section
/-! Proofs of the statements about the messages that reach a cache: forwards, INV and WB_ACK (05 R98, R105), and grants (05 R97, R99). -/
namespace Sys2Proof.Machine

/-! ## Forwards (05 R98, R105) -/

section Forward
variable {s : State} {l p : Nat} {tid : Tid} {rest : List CohMsg}

theorem takeFwd_fwdS (hnet : s.coh.net = .fwdS l p tid :: rest) : takeFwd s l p true = answerFwd (withNet s rest) l p tid true := by
  simp only [takeFwd, recvCache_head hnet rfl (l := l) (p := p), beq_self_eq_true, Bool.and_self]

theorem takeFwd_fwdO (hnet : s.coh.net = .fwdO l p tid :: rest) : takeFwd s l p false = answerFwd (withNet s rest) l p tid false := by
  simp only [takeFwd, recvCache_head hnet rfl (l := l) (p := p), beq_self_eq_true, Bool.and_self, Bool.not_false]

/-- The line as a forward leaves it in the owner's cache. -/
theorem answerFwd_held {h : Held} (hline : look (cacheOf s p).lines l = some h) (keep : Bool) :
    answerFwd s l p tid keep = cohSend (setCache s p { cacheOf s p with
      lines := if keep then place (cacheOf s p).lines l { h with state := .shared } else remove (cacheOf s p).lines l })
      (.fwdData l p tid h.data h.poison none) := by
  simp only [answerFwd, hline]

/-- A line that stands only in the writeback buffer. -/
theorem answerFwd_buffered {e : Nat} {w : WbEntry} (hline : look (cacheOf s p).lines l = none)
    (hentry : wbFor (cacheOf s p) l = some (e, w)) (keep : Bool) :
    answerFwd s l p tid keep = cohSend s (.fwdData l p tid w.data w.poison (some e)) := by
  simp only [answerFwd, hline, hentry]

theorem takeInv_head (hnet : s.coh.net = .inv l p tid :: rest) : takeInv s l p =
    cohSend (setCache (withNet s rest) p { cacheOf s p with lines := remove (cacheOf s p).lines l }) (.ackInv l p tid) := by
  simp only [takeInv, recvCache_head hnet rfl (l := l) (p := p), beq_self_eq_true, Bool.and_self, cacheOf_withNet]

theorem takeWbAck_head (hnet : s.coh.net = .wbAck l tid :: rest) : takeWbAck s l tid =
    settleFences (setCache (withNet s rest) tid.part { cacheOf s tid.part with wbs := remove (cacheOf s tid.part).wbs tid.entry }) := by
  simp only [takeWbAck, recvCache_head hnet rfl (l := l) (p := tid.part), beq_self_eq_true, cacheOf_withNet]

end Forward

/-- Settles O10: each message is the oldest under way, so it is the one delivered; a forward finds the line in the cache or in its
writeback buffer. -/
theorem cacheAnswersForwards : Obligations.CacheAnswersForwards := by
  unfold Obligations.CacheAnswersForwards
  intro s l p tid rest
  have hfwdS : exec (.fwdS l p) s = .next (takeFwd s l p true) := rfl
  have hfwdO : exec (.fwdO l p) s = .next (takeFwd s l p false) := rfl
  have hinv : exec (.inv l p) s = .next (takeInv s l p) := rfl
  have hwbAck : exec (.wbAck l tid) s = .next (takeWbAck s l tid) := rfl
  simp only [hfwdS, hfwdO, hinv, hwbAck]
  refine ⟨fun h hline => ?held, fun e w hline hentry => ?buffered, fun hnet => ?inv, fun hnet => ?wbAck⟩
  case held =>
    refine ⟨fun hnet => ?_, fun hnet => ?_⟩
    · rw [takeFwd_fwdS hnet, answerFwd_held (s := withNet s rest) hline]
      exact ⟨_, rfl, by simp, rfl, cohFrame (by simp)⟩
    · rw [takeFwd_fwdO hnet, answerFwd_held (s := withNet s rest) hline]
      exact ⟨_, rfl, by simp, rfl, cohFrame (by simp)⟩
  case buffered =>
    refine ⟨fun hnet => ?_, fun hnet => ?_⟩
    · rw [takeFwd_fwdS hnet, answerFwd_buffered (s := withNet s rest) hline hentry]
      exact ⟨_, rfl, by simp, rfl, cohFrame (by simp)⟩
    · rw [takeFwd_fwdO hnet, answerFwd_buffered (s := withNet s rest) hline hentry]
      exact ⟨_, rfl, by simp, rfl, cohFrame (by simp)⟩
  case inv =>
    rw [takeInv_head hnet]
    exact ⟨_, rfl, by simp, rfl, cohFrame (by simp)⟩
  case wbAck =>
    rw [takeWbAck_head hnet]
    exact ⟨_, rfl, by simp, by simp, rfl, cohFrame (by simp)⟩

/-! ## What the fabric code's check of a line leaves alone (08 R166, R174) -/

theorem ite_coh {p : Prop} [Decidable p] {a b s : State} (ha : a.coh = s.coh) (hb : b.coh = s.coh) :
    (if p then a else b).coh = s.coh := by
  split <;> assumption

theorem poisoning_coh (s : State) (f : Nat) (o : Origin) (isFca : Bool) (a : Nat) (tn : Option Nat) :
    (poisoning s f o isFca a tn).coh = s.coh := by
  have hcount := bump_coh s (fKey f 0x44) (poisonFld o) 8 1
  unfold poisoning
  generalize bump s (fKey f 0x44) (poisonFld o) 8 1 = u at hcount ⊢
  have howner (m : Memory) (b n d : Nat) : (raise { u with mem := m } 0 .poisonSet b f n d).coh = s.coh :=
    (raise_coh _ _ _ _ _ _ _).trans hcount
  refine ite_coh ((bump_coh _ _ _ _ _).trans hcount) ?_
  cases tn with
  | none => exact howner _ _ _ _
  | some t => exact ite_coh (howner _ _ _ _) ((raise_coh _ _ _ _ _ _ _).trans (howner _ _ _ _))

theorem fabricMeets_coh (s : State) (f : Nat) (seen : FabricSeen) (fresh : List Nat) (isFca : Bool) (addr : Nat → Nat)
    (tn : Option Nat) : (fabricMeets s f seen fresh isFca addr tn).coh = s.coh := by
  unfold fabricMeets
  dsimp only
  rw [foldl_keeps State.coh _ (fun _ _ => poisoning_coh _ _ _ _ _ _)]
  have hcount (u : State) {p : Prop} [Decidable p] (k lo n v : Nat) : (if p then u else bump u k lo n v).coh = u.coh :=
    ite_coh rfl (bump_coh _ _ _ _ _)
  rw [hcount, hcount, foldl_keeps State.coh _ (fun _ _ => ite_coh (bump_coh _ _ _ _ _) rfl)]

theorem lineMeets_coh (s : State) (l p : Nat) (fab : FabricSeen) (po : Option Origin) : (lineMeets s l p fab po).coh = s.coh :=
  fabricMeets_coh _ _ _ _ _ _ _

/-- A line that the fabric brings without an error. -/
theorem lineMeets_sound (s : State) (l p : Nat) (po : Option Origin) : lineMeets s l p ⟨[], 0, []⟩ po = s := by
  simp [lineMeets, fabricMeets]

/-! ## Grants (05 R97, R99) -/

/-- A grant that carries the line reaches a cache with room in its set and a miss register that waits for it. -/
theorem takeGrant_room {s : State} {k : GrantKind} {l : Nat} {tid : Tid} {d : List Byte} {po : Option Origin} {rest : List CohMsg}
    {m : Miss} (fab : FabricSeen) (hkind : k ≠ .grantM) (hnet : s.coh.net = .grant k l tid d po :: rest)
    (hmiss : look (cacheOf s tid.part).misses tid.entry = some m) (hroom : inSet (cacheOf s tid.part) l < 16) :
    takeGrant s l tid ⟨none, fab⟩ = settleFences (setCache (lineMeets (withNet s rest) l tid.part fab po) tid.part
      { cacheOf s tid.part with
        lines := place (cacheOf s tid.part).lines l (installed k (look (cacheOf s tid.part).lines l) d (seenPoison fab po) m.store)
        misses := remove (cacheOf s tid.part).misses tid.entry }) := by
  have hfull : ¬ (16 ≤ inSet (cacheOf s tid.part) l ∧ (look (cacheOf s tid.part).lines l).isNone = true) :=
    fun h => absurd h.1 (Nat.not_le.mpr hroom)
  simp only [takeGrant, recvCache_head hnet rfl (l := l) (p := tid.part), beq_self_eq_true, Bool.and_self, cacheOf_withNet,
    if_neg hfull, if_neg hkind, hmiss]

/-- The bytes of a line after a store inside it: those stored, and elsewhere those there before. -/
theorem getD_mergeAt {d n : List Byte} {off : Nat} (h : off + n.length ≤ d.length) (i : Nat) : (mergeAt d off n).getD i 0#8 =
    if off ≤ i ∧ i < off + n.length then n.getD (i - off) 0#8 else d.getD i 0#8 := by
  have htake : (d.take off).length = off := by rw [List.length_take]; omega
  simp only [mergeAt, List.getD_eq_getElem?_getD, List.append_assoc, List.getElem?_append, htake, List.getElem?_take,
    List.getElem?_drop]
  grind

theorem length_mergeAt {d n : List Byte} {off : Nat} (h : off + n.length ≤ d.length) : (mergeAt d off n).length = d.length := by
  simp only [mergeAt, List.length_append, List.length_take, List.length_drop]
  omega

/-- The store that waits for a line in M is performed as the line arrives. -/
theorem installed_dataM_store (old : Option Held) (d : List Byte) (po : Option Origin) (off : Nat) (n : List Byte) :
    installed .dataM old d po (some (off, n)) = storedLine ⟨.modified, d, po, []⟩ off n := rfl

theorem installed_dataS (old : Option Held) (d : List Byte) (po : Option Origin) :
    installed .dataS old d po none = ⟨.shared, d, po, []⟩ := rfl

/-- Nothing that a store leaves in a line is cut off. -/
theorem storedLine_data {h : Held} {off : Nat} {n : List Byte} (hlen : h.data.length = 128) (hfits : off + n.length ≤ 128) :
    (storedLine h off n).data = mergeAt h.data off n :=
  List.take_of_length_le (by rw [length_mergeAt (by omega), hlen])

/-- A line keeps the poison that it carried, and gains FABRIC where it carried none and the check of its flit fails. -/
theorem seenPoison_eq (fab : FabricSeen) (po : Option Origin) :
    seenPoison fab po = if po = none ∧ fab.bad ≠ [] then some .fabric else po := by
  cases po with
  | some o => simp [seenPoison]
  | none => by_cases hbad : fab.bad = [] <;> simp [seenPoison, hbad]

/-- Settles O9: the grant is the oldest message under way and finds room, so it is installed with the store that the miss register
holds; a store's bytes stand at its offset. -/
theorem storeBeforeAnsweringForward : Obligations.StoreBeforeAnsweringForward := by
  unfold Obligations.StoreBeforeAnsweringForward
  refine ⟨fun s l tid d n off po rest hnet hlen hfits hmiss hroom => ?store, fun s l tid d po rest fab hnet hmiss hroom => ?load⟩
  case store =>
    have hdata : (storedLine ⟨.modified, d, seenPoison ⟨[], 0, []⟩ po, []⟩ off n).data = mergeAt d off n :=
      storedLine_data hlen hfits
    have hexec : exec (.dataGrant l tid ⟨none, ⟨[], 0, []⟩⟩) s = .next (takeGrant s l tid ⟨none, ⟨[], 0, []⟩⟩) := rfl
    rw [hexec, takeGrant_room _ GrantKind.noConfusion hnet hmiss hroom, installed_dataM_store, lineMeets_sound]
    refine ⟨_, storedLine ⟨.modified, d, seenPoison ⟨[], 0, []⟩ po, []⟩ off n, rfl, by simp, rfl, ?_, fun i hi => ?_,
      fun i hi => ?_, by simp, rfl, cohFrame (by simp)⟩
    · rw [hdata, length_mergeAt (by omega), hlen]
    · rw [hdata, getD_mergeAt (by omega), if_pos (by omega), Nat.add_sub_cancel_left]
    · rw [hdata, getD_mergeAt (by omega), if_neg (by omega)]
  case load =>
    have hexec : exec (.dataGrant l tid ⟨none, fab⟩) s = .next (takeGrant s l tid ⟨none, fab⟩) := rfl
    rw [hexec, takeGrant_room _ GrantKind.noConfusion hnet hmiss hroom, installed_dataS]
    refine ⟨_, ⟨.shared, d, seenPoison fab po, []⟩, rfl, by simp, rfl, rfl, seenPoison_eq fab po, by simp, ?_⟩
    exact congrArg Coherence.net (lineMeets_coh (withNet s rest) l tid.part fab po)

end Sys2Proof.Machine
end

section
/-! Proof of the statement about WB, EVICT, FWD_DATA and ACK_INV at a home (05 R97, R98, R105 to R107). -/
namespace Sys2Proof.Machine

/-! ## WB (05 R105 to R107) -/

section Writeback
variable {s : State} {l : Nat} {tid : Tid}

/-- The state with every partition's cache replaced. -/
def withCaches (s : State) (caches : KMap Cache) : State := setCoh s { s.coh with caches }

/-- Giving a line up to the writeback buffer changes caches alone. -/
theorem wbEvict_caches (s : State) (l : Nat) (tid : Tid) (data : List Byte) :
    ∃ caches, wbEvict s l tid data = withCaches s caches := by
  unfold wbEvict
  dsimp only
  split
  · split
    · exact ⟨s.coh.caches, rfl⟩
    · exact ⟨_, rfl⟩
  · exact ⟨s.coh.caches, rfl⟩

/-- A WB of one of the 16 entries, for a line of a home. -/
theorem writeback_eq (data : List Byte) (halive : alive s = true) (hpart : tid.part < 64) (hentry : tid.entry < 16)
    (hhome : (homeOf l).isSome = true) : writeback s l tid data =
      (takeWb (wbEvict s l tid data) l tid (wbLine (wbEvict s l tid data) l tid data)).getD (fenceUnit s 1 tid.part 5) := by
  have hgate : (!alive s || decide (64 ≤ tid.part) || decide (16 ≤ tid.entry) || (homeOf l).isNone) = false := by
    rw [halive, Option.isNone_eq_false_iff.mpr hhome, decide_eq_false (Nat.not_le.mpr hpart), decide_eq_false (Nat.not_le.mpr hentry)]
    rfl
  simp only [writeback, hgate, Bool.false_eq_true, if_false]
  cases takeWb (wbEvict s l tid data) l tid (wbLine (wbEvict s l tid data) l tid data) <;> rfl

/-- A discard is counted in a register of the home's facet and changes nothing else. -/
theorem countStale_regs (s : State) (l : Nat) : ∃ regs, countStale s l = { s with regs } := by
  unfold countStale
  split
  · exact ⟨_, rfl⟩
  · exact ⟨s.regs, rfl⟩

variable (d : List Byte × Option Origin)

theorem takeWb_stale (hstale : s.coh.stale.contains (tidNo tid, l) = true) : ∃ regs, takeWb s l tid d = some { s with
    regs, coh := { s.coh with stale := s.coh.stale.erase (tidNo tid, l), net := s.coh.net ++ [.wbAck l tid] } } := by
  obtain ⟨regs, hcount⟩ := countStale_regs (setCoh s { s.coh with stale := s.coh.stale.erase (tidNo tid, l) }) l
  exact ⟨regs, by simp only [takeWb, hstale, if_true, hcount]; rfl⟩

theorem takeWb_owner (hstale : s.coh.stale.contains (tidNo tid, l) = false) (hforward : forwardOut s l tid.part = false)
    (hdir : dirOf s l = .owned tid.part) :
    takeWb s l tid d = some (cohSend (setDir (lineToMem s l d) l .invalid) (.wbAck l tid)) := by
  simp only [takeWb, hstale, hforward, hdir, Bool.false_eq_true, if_false, if_true]

theorem takeWb_fault (hstale : s.coh.stale.contains (tidNo tid, l) = false) (hforward : forwardOut s l tid.part = false)
    (hdir : dirOf s l ≠ .owned tid.part) : takeWb s l tid d = none := by
  simp only [takeWb, hstale, hforward, if_neg hdir, Bool.false_eq_true, if_false]

/-- EVICT of the owner of a line that it does not hold in M. -/
theorem evictNotice_owner (halive : alive s = true) (hpart : tid.part < 64) (hhome : (homeOf l).isSome = true)
    (hclean : holdsM s l tid.part = false) (hforward : forwardOut s l tid.part = false) (hdir : dirOf s l = .owned tid.part) :
    evictNotice s l tid = setDir (dropClean s l tid.part) l .invalid := by
  have hgate : (!alive s || decide (64 ≤ tid.part) || (homeOf l).isNone || holdsM s l tid.part) = false := by
    rw [halive, Option.isNone_eq_false_iff.mpr hhome, hclean, decide_eq_false (Nat.not_le.mpr hpart)]
    rfl
  have hforward' : forwardOut (dropClean s l tid.part) l tid.part = false := hforward
  have hdir' : dirOf (dropClean s l tid.part) l = .owned tid.part := hdir
  simp only [evictNotice, hgate, hforward', hdir', Bool.false_eq_true, if_false, if_true]

end Writeback

/-! ## The end of a transaction for RD_O (05 R98) -/

/-- The state in which no transaction is in progress on a line. -/
def withoutTxn (s : State) (l : Nat) : State := setCoh s { s.coh with txn := remove s.coh.txn l }

section Answers
variable {s : State} {l p : Nat} {tid : Tid}

/-- What an answer to the transaction gives: the line `d` that it carries, or, where it carries none, the line as sound cells hold it. -/
def Supplies (s : State) (l : Nat) (carried : Option (List Byte × Option Origin)) (d : List Byte × Option Origin) : Prop :=
  carried = some d ∨ carried = none ∧ d = lineOfMem s l ∧ readsClean s (lineAddr l) 128 = true

/-- Nothing more is awaited, queued or waiting for a credit: the requester is granted the line. -/
theorem tryFinish_rdO {supplied : Option (List Byte × Option Origin)} {d : List Byte × Option Origin}
    (htxn : look s.coh.txn l = some ⟨.rdO tid, [], none, supplied⟩) (hline : Supplies s l supplied d)
    (hqueue : mapGet (fun _ => []) s.coh.queue l = []) (hwaits : s.coh.waits = []) :
    tryFinish s l = settleFences (grantReq (withoutTxn s l) l (.rdO tid) d none) := by
  have hserve : serveQueue (mapGet (fun _ => []) (grantReq (withoutTxn s l) l (.rdO tid) d none).coh.queue l).length
      (grantReq (withoutTxn s l) l (.rdO tid) d none) l = grantReq (withoutTxn s l) l (.rdO tid) d none :=
    congrArg (fun q : List LineReq => serveQueue q.length _ l) hqueue
  have hadmit : admitWaits (grantReq (withoutTxn s l) l (.rdO tid) d none).coh.waits.length
      (grantReq (withoutTxn s l) l (.rdO tid) d none) = grantReq (withoutTxn s l) l (.rdO tid) d none :=
    congrArg (fun w : List (Nat × LineReq) => admitWaits w.length _) hwaits
  have hout : setCoh s { s.coh with txn := remove s.coh.txn l } = withoutTxn s l := rfl
  simp only [tryFinish, htxn, List.isEmpty_nil, Bool.not_true, Bool.false_eq_true, if_false, toMemFirst, readsOnly, Bool.false_and, hout]
  rcases hline with rfl | ⟨rfl, rfl, hclean⟩
  · simp only [hserve, hadmit]
  · have hnote : noteLine (withoutTxn s l) l (.rdO tid) = withoutTxn s l := noteRead_clean (s := withoutTxn s l) _ hclean
    simp only [hnote, hserve, hadmit]

/-- The state in which a transaction for RD_O has had its last answer. -/
def answered (s : State) (l : Nat) (tid : Tid) (supplied : Option (List Byte × Option Origin)) : State :=
  setCoh s { s.coh with txn := place s.coh.txn l ⟨.rdO tid, [], none, supplied⟩ }

/-- The one answer that the transaction awaits ends it. -/
theorem answerTxn_rdO {carried : Option (List Byte × Option Origin)} {d : List Byte × Option Origin}
    (htxn : look s.coh.txn l = some ⟨.rdO tid, [p], none, none⟩) (hline : Supplies s l carried d)
    (hqueue : mapGet (fun _ => []) s.coh.queue l = []) (hwaits : s.coh.waits = []) :
    ∃ txn, look txn l = none ∧
      answerTxn s l p carried false = settleFences (grantReq (setCoh s { s.coh with txn }) l (.rdO tid) d none) := by
  have hline' : Supplies (answered s l tid carried) l carried d := by simpa [Supplies, answered] using hline
  have hawait : [p].filter (fun q => q != p) = [] := by simp
  refine ⟨_, look_remove_same _ l, (?_ : _ = tryFinish (answered s l tid carried) l).trans
    (tryFinish_rdO (look_place_same _ _ _) hline' hqueue hwaits)⟩
  simp only [answerTxn, htxn, List.contains_cons, beq_self_eq_true, Bool.true_or, Bool.not_true, Bool.false_eq_true, if_false, hawait]
  cases carried <;> rfl

/-- FWD_DATA of a line that its sender's cache held. -/
theorem takeFwdData_held {x : Tid} {d : List Byte} {po : Option Origin} {rest : List CohMsg}
    (htxn : look s.coh.txn l = some ⟨.rdO tid, [p], none, none⟩) (hnet : s.coh.net = .fwdData l p x d po none :: rest) :
    takeFwdData s l p = answerTxn (withNet s rest) l p (some (d, po)) false := by
  have htxn' : look (withNet s rest).coh.txn l = some ⟨.rdO tid, [p], none, none⟩ := htxn
  simp only [takeFwdData, recvHome_head hnet rfl (l := l) (p := p), beq_self_eq_true, Bool.and_self, htxn', readsOnly, Bool.false_and]

theorem takeAckInv_head {x : Tid} {rest : List CohMsg} (hnet : s.coh.net = .ackInv l p x :: rest) :
    takeAckInv s l p = settleFences (answerTxn (withNet s rest) l p none false) := by
  simp only [takeAckInv, recvHome_head hnet rfl (l := l) (p := p), beq_self_eq_true, Bool.and_self]

end Answers

/-- Settles O8: a WB by the three things that a home does with it, EVICT by its owner's directory entry, and the answers by the end of
the transaction that awaits them. -/
theorem writebackAcceptedOnce : Obligations.WritebackAcceptedOnce := by
  unfold Obligations.WritebackAcceptedOnce
  refine ⟨fun s l tid data halive hpart hentry hhome => ?sent, fun s l p tid rest htxn hqueue hwaits => ?answered⟩
  case sent =>
    obtain ⟨caches, hevict⟩ := wbEvict_caches s l tid data
    have hwb : exec (.wb l tid data) s = .next (writeback s l tid data) := rfl
    have hexec : exec (.evict l tid) s = .next (evictNotice s l tid) := rfl
    simp only [hwb, hexec, writeback_eq data halive hpart hentry hhome, hevict]
    generalize wbLine (withCaches s caches) l tid data = d
    refine ⟨fun hlen hstale hforward hdir => ?accepted, fun hstale => ?stale, fun hstale hforward hdir => ?fault,
      fun hclean hforward hdir => ?evict⟩
    case accepted =>
      rw [takeWb_owner (s := withCaches s caches) d hstale hforward hdir, Option.getD_some]
      have hbyte (a : Nat) : memByte (cohSend (setDir (lineToMem (withCaches s caches) l d) l .invalid) (.wbAck l tid)) a =
          if lineAddr l ≤ a ∧ a < lineAddr l + 128 then d.1.getD (a - lineAddr l) 0#8 else memByte s a := by
        rw [memByte_cohSend, memByte_setDir, lineToMem, memByte_memWriteP, hlen]
        rfl
      refine ⟨_, rfl, by simp, by simp [lineToMem, cohSend, setDir, withCaches], fun i hi => ?_, fun a ha => ?_,
        cohMemFrame (by simp [lineToMem, withCaches])⟩
      · rw [hbyte, lineAddr, if_pos (by omega), show 128 * l + i - l * 128 = i by omega]
      · rw [hbyte, lineAddr, if_neg (by omega)]
    case stale =>
      obtain ⟨regs, htake⟩ := takeWb_stale (s := withCaches s caches) d hstale
      rw [htake]
      exact ⟨_, rfl, rfl, rfl, rfl, rfl, rfl⟩
    case fault =>
      rw [takeWb_fault (s := withCaches s caches) d hstale hforward hdir, Option.getD_none]
    case evict =>
      rw [evictNotice_owner halive hpart hhome hclean hforward hdir]
      exact ⟨_, rfl, by simp, by simp [dropClean], rfl, cohFrame (by simp [dropClean])⟩
  case answered =>
    have hfwdData : exec (.fwdData l p) s = .next (settleFences (takeFwdData s l p)) := rfl
    have hackInv : exec (.ackInv l p) s = .next (takeAckInv s l p) := rfl
    rw [hfwdData, hackInv]
    have hends {carried d} (hline : Supplies s l carried d) : ∃ t,
        settleFences (answerTxn (withNet s rest) l p carried false) = t ∧ dirOf t l = .owned tid.part ∧ look t.coh.txn l = none ∧
          t.coh.net = rest ++ [.grant .dataM l tid d.1 d.2] ∧ { t with coh := s.coh } = s := by
      have hline' : Supplies (withNet s rest) l carried d := by simpa [Supplies, withNet] using hline
      obtain ⟨txn, htxn', hanswer⟩ := answerTxn_rdO (s := withNet s rest) htxn hline' hqueue hwaits
      rw [hanswer]
      exact ⟨_, rfl, by simp [grantReq], htxn', rfl, cohFrame (by simp [grantReq])⟩
    refine ⟨fun d po x hnet => ?_, fun x hnet hclean => ?_⟩
    · obtain ⟨t, ht, hrest⟩ := hends (.inl rfl : Supplies s l (some (d, po)) (d, po))
      exact ⟨t, by rw [takeFwdData_held htxn hnet, ht], hrest⟩
    · obtain ⟨t, ht, hrest⟩ := hends (.inr ⟨rfl, rfl, hclean⟩)
      exact ⟨t, by rw [takeAckInv_head hnet, ht], hrest⟩

end Sys2Proof.Machine
end

section
/-! SUPPORT. Device memory copied piece by piece: what a read of memory gives byte by byte, that a write leaves sound cells sound, and what
stands after some pieces of a copy (05 R109; 06 R122). -/
namespace Sys2Proof.Machine

/-! ## Numbers in order -/

theorem rangeFrom_eq_range' (lo n : Nat) : rangeFrom lo n = List.range' lo n := by
  induction n generalizing lo with
  | zero => rfl
  | succ n ih => rw [rangeFrom, ih, List.range'_succ]

theorem upto_succ (n : Nat) : upto (n + 1) = upto n ++ [n] := by
  rw [upto, upto, rangeFrom_eq_range', rangeFrom_eq_range', List.range'_concat, Nat.zero_add, Nat.one_mul]

/-- What holds at the start of a loop over the numbers below `n`, and after each of its steps, holds at its end. -/
theorem foldl_upto {β : Type} (P : Nat → β → Prop) (f : β → Nat → β) {b : β} {n : Nat} (hzero : P 0 b)
    (hstep : ∀ i u, i < n → P i u → P (i + 1) (f u i)) : P n ((upto n).foldl f b) := by
  induction n with
  | zero => exact hzero
  | succ n ih =>
    rw [upto_succ, List.foldl_append, List.foldl_cons, List.foldl_nil]
    exact hstep n _ (by omega) (ih fun i u hi => hstep i u (by omega))

/-! ## Bytes read -/

theorem length_memRead (s : State) (a n : Nat) : (memRead s a n).length = n := by
  rw [memRead, List.length_map, rangeFrom_eq_range', List.length_range']

theorem getD_memRead (s : State) (a : Nat) {n i : Nat} (hi : i < n) : (memRead s a n).getD i 0#8 = memByte s (a + i) := by
  rw [memRead, rangeFrom_eq_range', List.getD_eq_getElem?_getD, List.getElem?_map, List.getElem?_range' hi]
  simp

/-! ## Sound cells stay sound (06 R122) -/

theorem look_foldl_place {α : Type} (v : α) {gs : List Nat} {g : Nat} (hg : g ∉ gs) (m : KMap α) :
    look (gs.foldl (fun m x => place m x v) m) g = look m g := by
  induction gs generalizing m with
  | nil => rfl
  | cons x gs ih =>
    obtain ⟨hx, hgs⟩ := not_or.mp (hg ∘ List.mem_cons.mpr)
    rw [List.foldl_cons, ih hgs, look_place_ne _ _ _ _ (Ne.symm hx)]

theorem look_foldl_remove {α : Type} {gs : List Nat} {g : Nat} (hg : g ∉ gs) (m : KMap α) :
    look (gs.foldl (fun m x => remove m x) m) g = look m g := by
  induction gs generalizing m with
  | nil => rfl
  | cons x gs ih =>
    obtain ⟨hx, hgs⟩ := not_or.mp (hg ∘ List.mem_cons.mpr)
    rw [List.foldl_cons, ih hgs, look_remove_ne _ _ _ (Ne.symm hx)]

/-- No cell of `m'` holds an error that it does not hold in `m`. -/
def NoNewErrors (m m' : Memory) : Prop := ∀ g, (g ∈ m'.broken → g ∈ m.broken ∧ look m'.poison g = look m.poison g) ∧
  (look m.weak g = none → look m'.weak g = none)

theorem look_filter_none {α : Type} {m : KMap α} {k : Nat} (f : Nat × α → Bool) (h : look m k = none) : look (m.filter f) k = none :=
  look_eq_none.mpr fun x hx => look_eq_none.mp h x (List.mem_filter.mp hx).1

theorem cleanWrite_noNewErrors (m : Memory) (a n : Nat) : NoNewErrors m (cleanWrite m a n) := by
  intro g
  unfold cleanWrite
  split
  · exact ⟨fun h => ⟨h, rfl⟩, id⟩
  · refine ⟨fun h => ?_, look_filter_none _⟩
    obtain ⟨hbroken, hout⟩ := List.mem_filter.mp h
    have hg : g ∉ granulesOf a n := by simpa using hout
    refine ⟨hbroken, ?_⟩
    dsimp only
    rw [look_foldl_place _ fun h => hg (List.mem_filter.mp h).1, look_foldl_remove fun h => hg (List.mem_filter.mp h).1]

theorem poisonRange_noNewErrors (s : State) (a n : Nat) (o : Origin) : NoNewErrors s.mem (poisonRange s a n o).mem := by
  intro g
  unfold poisonRange
  split
  · exact ⟨fun h => ⟨h, rfl⟩, id⟩
  · refine ⟨fun h => ?_, look_filter_none _⟩
    obtain ⟨hbroken, hout⟩ := List.mem_filter.mp h
    have hg : g ∉ granulesOf a n := by simpa using hout
    exact ⟨hbroken, look_foldl_place _ hg _⟩

theorem memWriteP_noNewErrors (s : State) (a : Nat) (d : List Byte) (po : Option Origin) :
    NoNewErrors s.mem (memWriteP s a d po).mem := by
  cases po with
  | none => exact cleanWrite_noNewErrors _ _ _
  | some o => exact poisonRange_noNewErrors { s with mem := { s.mem with bytes := putBytes s.mem.bytes a d } } _ _ _

theorem readsClean_of_noNewErrors {s t : State} (h : NoNewErrors s.mem t.mem) {a n : Nat} (hclean : readsClean s a n = true) :
    readsClean t a n = true := by
  rw [readsClean_iff] at hclean ⊢
  intro g hg
  obtain ⟨hpoison, hweak⟩ := hclean g hg
  obtain ⟨hbroken, hkept⟩ := h g
  exact ⟨fun hb => by rw [(hbroken hb).2]; exact hpoison (hbroken hb).1, hkept hweak⟩

/-! ## Copies -/

/-- `t` is `s` with `n` bytes at `src` copied to `dst`, and with no entry of a directory, no transaction and no queue of a home changed. -/
structure Copied (s t : State) (src dst n : Nat) : Prop where
  frame : withCohMem t s.coh s.mem = s
  txn : t.coh.txn = s.coh.txn
  queue : t.coh.queue = s.coh.queue
  waits : t.coh.waits = s.coh.waits
  dir : ∀ l, dirOf t l = dirOf s l
  bytes : ∀ a, memByte t a = if dst ≤ a ∧ a < dst + n then memByte s (src + (a - dst)) else memByte s a
  clean : ∀ a k, readsClean s a k = true → readsClean t a k = true

theorem Copied.nothing (s : State) (src dst : Nat) : Copied s s src dst 0 where
  frame := rfl
  txn := rfl
  queue := rfl
  waits := rfl
  dir _ := rfl
  bytes a := by rw [if_neg (by omega)]
  clean _ _ h := h

/-- A copy that leaves the coherence state alone changes memory alone. -/
theorem Copied.memFrame {s t : State} {src dst n : Nat} (h : Copied s t src dst n) (hcoh : t.coh = s.coh) :
    { t with mem := s.mem } = s := by
  have hframe := h.frame
  rw [← hcoh] at hframe
  exact hframe

/-- One more piece of a copy whose source and destination lie apart. -/
theorem Copied.memWriteP {s t : State} {src dst n k : Nat} (h : Copied s t src dst n) (po : Option Origin)
    (hapart : dst + (n + k) ≤ src ∨ src + (n + k) ≤ dst) :
    Copied s (memWriteP t (dst + n) (memRead t (src + n) k) po) src dst (n + k) where
  frame := by rw [withCohMem_memWriteP, h.frame]
  txn := by rw [memWriteP_coh, h.txn]
  queue := by rw [memWriteP_coh, h.queue]
  waits := by rw [memWriteP_coh, h.waits]
  dir l := by rw [← h.dir l, dirOf, memWriteP_coh, dirOf]
  bytes a := by
    rw [memByte_memWriteP, length_memRead]
    by_cases hnew : dst + n ≤ a ∧ a < dst + n + k
    · rw [if_pos hnew, if_pos (by omega), getD_memRead _ _ (by omega), h.bytes, if_neg (by omega)]
      congr 1
      omega
    · rw [if_neg hnew, h.bytes]
      by_cases hold : dst ≤ a ∧ a < dst + n
      · rw [if_pos hold, if_pos (by omega)]
      · rw [if_neg hold, if_neg (by omega)]
  clean a m hclean := readsClean_of_noNewErrors (memWriteP_noNewErrors _ _ _ _) (h.clean a m hclean)

/-- A line that no cache holds is entered as such. -/
theorem Copied.setDir_invalid {s t : State} {src dst n l : Nat} (h : Copied s t src dst n) (hdir : dirOf s l = .invalid) :
    Copied s (setDir t l .invalid) src dst n where
  frame := by rw [withCohMem_setDir, h.frame]
  txn := h.txn
  queue := h.queue
  waits := h.waits
  dir k := by
    by_cases hk : l = k
    · rw [← hk, dirOf_setDir_same, hdir]
    · exact (dirOf_setDir_ne _ _ _ hk).trans (h.dir k)
  bytes := h.bytes
  clean := h.clean

end Sys2Proof.Machine
end

section
/-! Proof of the statement about I/O accesses, near-store transfers and the fence instruction (05 R102, R108 to R111). -/
namespace Sys2Proof.Machine

/-! ## Accesses of I/O agents (05 R108) -/

section Io
variable {s : State} {id tn l : Nat} {op : IoOp}

theorem dirOf_ioResult (d : List Byte × Option Origin) (k : Nat) : dirOf (ioResult s id d) k = dirOf s k := rfl

/-- An access that fails its check. -/
theorem ioAccess_fault (found : List (Nat × Nat × CellCheck)) {st : Status} (halive : alive s = true) (hfits : ioFits op = true)
    (hcheck : ioCheck s tn l op = some st) :
    ioAccess s id tn l op found = setCoh s { s.coh with ioFaults := s.coh.ioFaults ++ [(id, st)] } := by
  simp only [ioAccess, halive, hfits, hcheck, Bool.not_true, Bool.or_self, Bool.false_eq_true, if_false]

/-- The home of a line has a credit, nothing waits for one there, the line has no transaction and no queue, and no cache holds it. -/
structure HomeFree (s : State) (l : Nat) : Prop where
  home : ∃ h, homeOf l = some h ∧ ioAt s h < 2048 ∧ s.coh.waits.any (fun w => homeOf w.1 == some h) = false
  txn : look s.coh.txn l = none
  queue : mapGet (fun _ => []) s.coh.queue l = []
  dir : dirOf s l = .invalid

/-- The home takes the line at once. -/
theorem HomeFree.credit (h : HomeFree s l) : ∃ f, homeOf l = some f ∧
    ¬ (2048 ≤ ioAt s f ∨ s.coh.waits.any (fun w => homeOf w.1 == some f) = true) := by
  obtain ⟨f, hf, hcredit, hwaits⟩ := h.home
  exact ⟨f, hf, not_or.mpr ⟨Nat.not_le.mpr hcredit, by rw [hwaits]; exact Bool.false_ne_true⟩⟩

theorem HomeFree.submitReq (h : HomeFree s l) {req : LineReq} (hreq : ∀ t, req ≠ .upg t) : submitReq s l req = grantMem s l req := by
  obtain ⟨f, hf, -, -⟩ := h.home
  rw [submitReq_idle req (by rw [hf]; rfl) h.txn h.queue, startReq_invalid hreq h.dir]

/-- An access that passes its check, with nothing new found in the cells. -/
theorem HomeFree.ioAccess (h : HomeFree s l) (halive : alive s = true) (hfits : ioFits op = true) (hcheck : ioCheck s tn l op = none) :
    ioAccess s id tn l op [] = grantMem s l (.io id tn op) := by
  obtain ⟨f, hf, hfull⟩ := h.credit
  have hfound : cellsFound s l op [] = s := rfl
  simp only [Machine.ioAccess, halive, hfits, hcheck, Bool.not_true, Bool.or_self, Bool.false_eq_true, if_false, ioRun, hf, if_neg hfull,
    h.dir, hfound]
  exact h.submitReq fun _ => LineReq.noConfusion

theorem grantMem_io_read (hclean : readsClean s (lineAddr l) 128 = true) :
    grantMem s l (.io id tn .read) = ioResult s id (lineOfMem s l) := by
  simp only [grantMem, noteLine, noteRead_clean _ hclean, grantReq]

theorem grantMem_io_write {off : Nat} {n : List Byte} (hfits : off + n.length ≤ 128)
    (hclean : writesClean s (lineAddr l + off) n.length = true) : grantMem s l (.io id tn (.write off n)) =
      ioResult (setDir (memWrite s (lineAddr l + off) n) l .invalid) id ([], none) := by
  have hbytes : n.take (128 - off) = n := List.take_of_length_le (by omega)
  simp only [grantMem, noteLine, hbytes, noteParts_clean _ hclean, grantReq]

end Io

/-! ## Lines of near-store transfers (05 R109, R110) -/

section Lines
variable {s : State} {l p near : Nat}

theorem HomeFree.submitIo (h : HomeFree s l) {req : LineReq} (hreq : ∀ t, req ≠ .upg t) : submitIo s l req = grantMem s l req := by
  obtain ⟨f, hf, hfull⟩ := h.credit
  simp only [Machine.submitIo, hf, if_neg hfull]
  exact h.submitReq hreq

theorem grantMem_nsFill (hclean : readsClean s (lineAddr l) 128 = true) : grantMem s l (.nsFill p near) =
    memWriteP s (p * 0x400000 + near) (memRead s (lineAddr l) 128) (memPoison s (lineAddr l) 128) := by
  simp only [grantMem, noteLine, noteRead_clean _ hclean, grantReq, lineOfMem]

theorem grantMem_nsDrain (hclean : readsClean s (p * 0x400000 + near) 128 = true) : grantMem s l (.nsDrain p near) =
    setDir (memWriteP s (lineAddr l) (memRead s (p * 0x400000 + near) 128) (memPoison s (p * 0x400000 + near) 128)) l .invalid := by
  simp only [grantMem, noteLine, noteRead_clean _ hclean, grantReq]

/-- A copy leaves the homes as free as they were. -/
theorem Copied.homeFree {t : State} {src dst n : Nat} (h : Copied s t src dst n) (hfree : HomeFree s l) : HomeFree t l where
  home := by
    obtain ⟨f, hf, hcredit, hwaits⟩ := hfree.home
    refine ⟨f, hf, ?_, by rw [h.waits, hwaits]⟩
    simpa only [ioAt, h.txn, h.queue] using hcredit
  txn := by rw [h.txn, hfree.txn]
  queue := by rw [h.queue, hfree.queue]
  dir := by rw [h.dir, hfree.dir]

theorem homeOf_low (h : lineAddr l < 0x1000000000) : homeOf l = none := by
  unfold homeOf locOf
  split_ifs <;> rfl

/-- A line of a home lies above every near store (06 R114). -/
theorem le_lineAddr_of_home (h : (homeOf l).isSome = true) : 0x1000000000 ≤ lineAddr l := by
  by_contra hlow
  simp [homeOf_low (Nat.not_le.mp hlow)] at h

end Lines

/-! ## NS_FILL and NS_DRAIN (05 R109, R110) -/

section Transfer
variable {s : State} {p near mem len : Nat} (mk : Nat → LineReq)

/-- A live partition of a sealed package that no fence instruction holds back. -/
structure MayTransfer (s : State) (p : Nat) : Prop where
  alive : alive s = true
  isSealed : isSealedNow s = true
  part : p < 64
  live : partLive s p = true
  free : s.coh.fencing.contains p = false

theorem MayTransfer.gate (h : MayTransfer s p) :
    (!Machine.alive s || !isSealedNow s || !partLive s p || decide (64 ≤ p) || s.coh.fencing.contains p) = false := by
  rw [h.alive, h.isSealed, h.live, h.free, decide_eq_false (Nat.not_le.mpr h.part)]
  rfl

theorem MayTransfer.nsTransfer_fault (h : MayTransfer s p) {st : Status} (hcheck : nsCheck s p near mem len = some st) :
    nsTransfer s p near mem len mk = partFault s p st := by
  simp only [nsTransfer, h.gate, hcheck, Bool.false_eq_true, if_false]

theorem MayTransfer.nsTransfer_lines (h : MayTransfer s p) (hcheck : nsCheck s p near mem len = none) :
    nsTransfer s p near mem len mk =
      (upto (len / 128)).foldl (fun s i => submitIo s (mem / 128 + i) (mk (near + 128 * i))) s := by
  simp only [nsTransfer, h.gate, hcheck, Bool.false_eq_true, if_false]

theorem nsCheck_misaligned (h : mem % 128 ≠ 0 ∨ near % 128 ≠ 0 ∨ len % 128 ≠ 0) : nsCheck s p near mem len = some .badAlign :=
  if_pos h

/-- A transfer that passes its check is one of whole lines, inside the near store. -/
theorem nsCheck_none (h : nsCheck s p near mem len = none) :
    mem % 128 = 0 ∧ near % 128 = 0 ∧ len % 128 = 0 ∧ near + len ≤ 0x400000 := by
  unfold nsCheck at h
  split_ifs at h
  omega

end Transfer

/-- The lines of memory that a transfer names, each at a home that is free to take it. -/
def LinesFree (s : State) (mem len : Nat) : Prop := ∀ i, i < len / 128 → HomeFree s (mem / 128 + i)

section Copying
variable {s : State} {p near mem len : Nat}

/-- Line `i` of aligned memory. -/
theorem lineAddr_of_aligned (h : mem % 128 = 0) (i : Nat) : lineAddr (mem / 128 + i) = mem + 128 * i := by
  unfold lineAddr
  omega

/-- The near stores lie below the memory that homes keep. -/
theorem LinesFree.apart (h : LinesFree s mem len) (hp : p < 64) (hcheck : nsCheck s p near mem len = none) {i : Nat}
    (hi : i < len / 128) : p * 0x400000 + near + (128 * i + 128) ≤ mem := by
  obtain ⟨hmem, -, -, hfits⟩ := nsCheck_none hcheck
  obtain ⟨f, hf, -⟩ := (h 0 (by omega)).home
  have habove : 0x1000000000 ≤ lineAddr (mem / 128 + 0) := le_lineAddr_of_home (by rw [hf]; rfl)
  rw [lineAddr_of_aligned hmem] at habove
  omega

/-- A fill copies memory into the near store line by line, and nothing of the homes' state changes. -/
theorem nsFill_copied (hp : p < 64) (hcheck : nsCheck s p near mem len = none) (hfree : LinesFree s mem len)
    (hclean : ∀ i, i < len / 128 → readsClean s (lineAddr (mem / 128 + i)) 128 = true) :
    ∃ t, (upto (len / 128)).foldl (fun s i => submitIo s (mem / 128 + i) (.nsFill p (near + 128 * i))) s = t ∧
      Copied s t mem (p * 0x400000 + near) (128 * (len / 128)) ∧ t.coh = s.coh := by
  refine ⟨_, rfl, foldl_upto (fun i t => Copied s t mem (p * 0x400000 + near) (128 * i) ∧ t.coh = s.coh) _
    ⟨Copied.nothing s _ _, rfl⟩ fun i u hi ⟨hcopied, hcoh⟩ => ?_⟩
  rw [(hcopied.homeFree (hfree i hi)).submitIo (fun _ => LineReq.noConfusion), grantMem_nsFill (hcopied.clean _ _ (hclean i hi)),
    lineAddr_of_aligned (nsCheck_none hcheck).1, ← Nat.add_assoc, Nat.mul_succ]
  exact ⟨hcopied.memWriteP _ (.inl (hfree.apart hp hcheck hi)), by rw [memWriteP_coh, hcoh]⟩

/-- A drain copies the near store into memory line by line. -/
theorem nsDrain_copied (hp : p < 64) (hcheck : nsCheck s p near mem len = none) (hfree : LinesFree s mem len)
    (hclean : ∀ i, i < len / 128 → readsClean s (p * 0x400000 + (near + 128 * i)) 128 = true) :
    Copied s ((upto (len / 128)).foldl (fun s i => submitIo s (mem / 128 + i) (.nsDrain p (near + 128 * i))) s)
      (p * 0x400000 + near) mem (128 * (len / 128)) := by
  refine foldl_upto (fun i t => Copied s t (p * 0x400000 + near) mem (128 * i)) _ (Copied.nothing s _ _) fun i u hi hcopied => ?_
  rw [(hcopied.homeFree (hfree i hi)).submitIo (fun _ => LineReq.noConfusion), grantMem_nsDrain (hcopied.clean _ _ (hclean i hi)),
    lineAddr_of_aligned (nsCheck_none hcheck).1, ← Nat.add_assoc, Nat.mul_succ]
  exact (hcopied.memWriteP _ (.inr (hfree.apart hp hcheck hi))).setDir_invalid (hfree i hi).dir

end Copying

/-! ## Failed accesses of partition code (05 R109) -/

section Fault
variable {s : State} {p : Nat} (st : Status)

theorem partTag_setCoh (c : Coherence) : partTag (setCoh s c) p = partTag s p := rfl

/-- A failed access of partition code that works for no request is listed. -/
theorem partFault_idle (h : partTag s p = none) :
    partFault s p st = setCoh s { s.coh with nsFaults := s.coh.nsFaults ++ [(p, st)] } := by
  simp only [partFault, partTag_setCoh, h]

/-- One that works for a request of no pipeline ends it too. -/
theorem partFault_request {tag : Nat} {r : Request} (h : partTag s p = some tag) (hr : look s.requests tag = some r)
    (hpipe : r.pipe = none) :
    partFault s p st = finish (setCoh s { s.coh with nsFaults := s.coh.nsFaults ++ [(p, st)] }) tag st [] := by
  simp only [partFault, partTag_setCoh, h, setCoh_requests, hr, hpipe]

end Fault

/-! ## The fence instruction (03 R61, 05 R111) -/

/-- A partition with nothing outstanding, while no other waits. -/
theorem settleFences_alone {s : State} {p : Nat} (hpending : nsPending s p = false) (hfencing : s.coh.fencing = []) :
    settleFences (setCoh s { s.coh with fencing := s.coh.fencing ++ [p] }) = setCoh s { s.coh with
      fencing := [], fenced := mapSet (fun _ => 0) s.coh.fenced p (mapGet (fun _ => 0) s.coh.fenced p + 1) } := by
  have hpending' (c : List Nat) : nsPending (setCoh s { s.coh with fencing := c }) p = false := hpending
  simp only [settleFences, hfencing, List.nil_append, setCoh_coh, List.filter_cons, List.filter_nil, hpending', Bool.not_false,
    if_true, Bool.false_eq_true, if_false, List.foldl_cons, List.foldl_nil, setCoh_setCoh]

/-- Settles O11: an I/O access by its check and then at a home that is free to take it; a transfer by its check and then line by line;
the fence instruction by what is outstanding. -/
theorem ioAndNearStoreTransfers : Obligations.IoAndNearStoreTransfers := by
  unfold Obligations.IoAndNearStoreTransfers
  have hfill (s p mem near len) : exec (.nsFill p mem near len) s = .next (nsTransfer s p near mem len (fun n => .nsFill p n)) := rfl
  have hdrain (s p near mem len) : exec (.nsDrain p near mem len) s = .next (nsTransfer s p near mem len (fun n => .nsDrain p n)) := rfl
  refine ⟨fun s id tn l h halive hhome hcredit hwaits htxn hqueue hdir => ?io, fun s id tn l op found st halive hfits hcheck => ?refused,
    fun s p mem near len halive hsealed hp hlive hcheck hfencing hwaits hcredit hlines => ?transfer,
    fun s p halive hp hlive hpending hfencing => ?fence, fun s p mem near len halive hsealed hp hlive hfencing halign => ?misaligned⟩
  case io =>
    have hfree : HomeFree s l := ⟨⟨h, hhome, hcredit, hwaits⟩, htxn, hqueue, hdir⟩
    have hexec (op) : exec (.ioAccess id tn l op []) s = .next (ioAccess s id tn l op []) := rfl
    refine ⟨fun hcheck hclean => ?_, fun off n hfits hcheck hclean => ?_⟩
    · rw [hexec, hfree.ioAccess halive rfl hcheck, grantMem_io_read hclean]
      exact ⟨_, rfl, rfl, rfl⟩
    · have haddr : lineAddr l + off = 128 * l + off := by rw [lineAddr, Nat.mul_comm]
      rw [hexec, hfree.ioAccess halive (op := .write off n) (decide_eq_true hfits) hcheck,
        grantMem_io_write hfits (by rwa [haddr]), haddr]
      exact ⟨_, rfl, by rw [dirOf_ioResult, dirOf_setDir_same], fun a => memByte_memWrite s _ n a, cohMemFrame (by simp [ioResult])⟩
  case refused =>
    exact congrArg _ (ioAccess_fault found halive hfits hcheck)
  case transfer =>
    have hmay : MayTransfer s p := ⟨halive, hsealed, hp, hlive, hfencing⟩
    have hfree : LinesFree s mem len := fun i hi => by
      obtain ⟨hhome, htxn, hqueue, hdir⟩ := hlines i hi
      obtain ⟨f, hf⟩ := Option.isSome_iff_exists.mp hhome
      exact ⟨⟨f, hf, hcredit f, by rw [hwaits]; rfl⟩, htxn, hqueue, hdir⟩
    have hlen : 128 * (len / 128) = len := by
      obtain ⟨-, -, hwhole, -⟩ := nsCheck_none hcheck
      omega
    rw [hfill, hdrain, hmay.nsTransfer_lines _ hcheck, hmay.nsTransfer_lines _ hcheck]
    refine ⟨fun hclean => ?_, fun hclean => ?_⟩
    · obtain ⟨t, ht, hcopied, hcoh⟩ := nsFill_copied hp hcheck hfree hclean
      rw [hlen] at hcopied
      exact ⟨t, congrArg _ ht, hcopied.bytes, hcopied.memFrame hcoh⟩
    · have hcopied := nsDrain_copied hp hcheck hfree hclean
      rw [hlen] at hcopied
      exact ⟨_, rfl, hcopied.bytes, fun i hi => (hcopied.dir _).trans (hfree i hi).dir, cohMemFrame hcopied.frame⟩
  case fence =>
    have hexec : exec (.fenceInstruction p) s = .next (settleFences (setCoh s { s.coh with fencing := s.coh.fencing ++ [p] })) := by
      have hgate : (!alive s || !partLive s p || decide (64 ≤ p)) = false := by
        rw [halive, hlive, decide_eq_false (Nat.not_le.mpr hp)]
        rfl
      have hrun : exec (.fenceInstruction p) s = execFenceInstruction p s := rfl
      rw [hrun, execFenceInstruction, hgate]
      rfl
    rw [hexec, settleFences_alone hpending hfencing]
    exact ⟨_, rfl, rfl, by simp, rfl⟩
  case misaligned =>
    have hmay : MayTransfer s p := ⟨halive, hsealed, hp, hlive, hfencing⟩
    rw [hfill, hdrain, hmay.nsTransfer_fault _ (nsCheck_misaligned halign), hmay.nsTransfer_fault _ (nsCheck_misaligned halign)]
    exact ⟨rfl, rfl, fun htag => partFault_idle _ htag, fun tag r htag hr hpipe => partFault_request _ htag hr hpipe⟩

end Sys2Proof.Machine
end

section
/-! Proof of the statement about device memory read after a write, and about stored poison (06 R114; 08 R169, R172). -/
namespace Sys2Proof.Machine

/-! ## Stored poison (06 R122, 08 R169) -/

theorem look_foldl_place_mem {α : Type} (v : α) {gs : List Nat} {g : Nat} (hg : g ∈ gs) (m : KMap α) :
    look (gs.foldl (fun m x => place m x v) m) g = some v := by
  induction gs generalizing m with
  | nil => exact absurd hg List.not_mem_nil
  | cons x gs ih =>
    rw [List.foldl_cons]
    by_cases hlater : g ∈ gs
    · exact ih hlater _
    · obtain rfl : g = x := (List.mem_cons.mp hg).resolve_right hlater
      rw [look_foldl_place v hlater, look_place_same]

theorem look_foldl_remove_mem {α : Type} {gs : List Nat} {g : Nat} (hg : g ∈ gs) (m : KMap α) :
    look (gs.foldl (fun m x => remove m x) m) g = none := by
  induction gs generalizing m with
  | nil => exact absurd hg List.not_mem_nil
  | cons x gs ih =>
    rw [List.foldl_cons]
    by_cases hlater : g ∈ gs
    · exact ih hlater _
    · obtain rfl : g = x := (List.mem_cons.mp hg).resolve_right hlater
      rw [look_foldl_remove hlater, look_remove_same]

/-- Poison after a range is poisoned: the new origin on the granules touched. -/
theorem look_poisonRange (s : State) (a g : Nat) {n : Nat} (o : Origin) (hn : n ≠ 0) :
    look (poisonRange s a n o).mem.poison g = if g ∈ granulesOf a n then some o else look s.mem.poison g := by
  rw [poisonRange, if_neg hn]
  split
  · next hg => exact look_foldl_place_mem o hg _
  · next hg => exact look_foldl_place o hg _

/-- A clean write takes the poison of a granule that it covers whole. -/
theorem look_cleanWrite_covered (m : Memory) {a n g : Nat} (hn : n ≠ 0) (hg : g ∈ granulesOf a n) (hwhole : covers a n g = true) :
    look (cleanWrite m a n).poison g = none := by
  have hpart : g ∉ (granulesOf a n).filter (fun g => m.broken.contains g && !covers a n g) := by simp [hwhole]
  rw [cleanWrite, if_neg hn]
  dsimp only
  rw [look_foldl_place _ hpart, look_foldl_remove_mem (List.mem_filter.mpr ⟨hg, hwhole⟩)]

/-- A clean write leaves the poison of a granule that it does not touch. -/
theorem look_cleanWrite_untouched (m : Memory) {a n g : Nat} (hg : g ∉ granulesOf a n) :
    look (cleanWrite m a n).poison g = look m.poison g := by
  unfold cleanWrite
  split
  · rfl
  · dsimp only
    rw [look_foldl_place _ fun h => hg (List.mem_filter.mp h).1, look_foldl_remove fun h => hg (List.mem_filter.mp h).1]

/-- A write of device memory changes device memory alone. -/
theorem memWriteP_frame (s : State) (a : Nat) (d : List Byte) (p : Option Origin) : { memWriteP s a d p with mem := s.mem } = s := by
  have h : withCohMem (memWriteP s a d p) s.coh s.mem = s := withCohMem_memWriteP s s.coh s.mem a d p
  rw [← memWriteP_coh s a d p] at h
  exact h

theorem statusCode_poisonStatus (o : Origin) : statusCode (poisonStatus o) = 0xA0 + originCode o := by cases o <;> rfl

theorem isFailure_poisonStatus (o : Origin) : isFailure (poisonStatus o) = true := by
  rw [isFailure, statusCode_poisonStatus]
  exact decide_eq_true (by omega)

/-- Settles O14: bytes by the law of `putBytes`, poison granule by granule through the folds that place and remove it. -/
theorem deviceMemoryReadAfterWrite : Obligations.DeviceMemoryReadAfterWrite := by
  unfold Obligations.DeviceMemoryReadAfterWrite
  refine ⟨fun s a d p => ⟨memByte_memWriteP s a d p, memWriteP_wf s a d p, memWriteP_frame s a d p⟩,
    fun s a n g o hn => look_poisonRange s a g o hn, fun s a g d hd => ⟨fun hg hwhole => ?_, fun hg => ?_⟩,
    statusCode_poisonStatus, isFailure_poisonStatus⟩
  · exact look_cleanWrite_covered s.mem (mt List.length_eq_zero_iff.mp hd) hg hwhole
  · exact look_cleanWrite_untouched s.mem hg

end Sys2Proof.Machine
end

section
/-! Proof of the statement about a grant's fall and rise (06 R133). -/
namespace Sys2Proof.Machine

/-- The values kept of a reservation once `v` is evaluated: a changed reservation starts afresh. -/
def keptValues (periodic : Bool) (s : State) (i v : Nat) : List Nat :=
  if resvWord s i = mapGet (fun _ => 0#32) s.mem.lastResv i then keepValue periodic v (mapGet (fun _ => []) s.mem.history i) else [v]

/-- The grant that an evaluated value leaves: itself when the reservation changed or the grant falls, and otherwise the lowest value of
the last 1 ms when that rises. -/
def nextGrant (periodic : Bool) (s : State) (i v : Nat) : Nat :=
  let cur := regFld s (grantKey i) 0 20
  let hist := keptValues periodic s i v
  if resvWord s i ≠ mapGet (fun _ => 0#32) s.mem.lastResv i then v
  else if v ≤ cur then v
  else if hist.length = historyLen ∧ cur < hist.foldl min v then hist.foldl min v else cur

/-- The state with a value evaluated for a reservation, before the events that report it. -/
def withGrant (periodic : Bool) (s : State) (i v : Nat) : State :=
  regSetFld { s with mem := { s.mem with
    history := mapSet (fun _ => []) s.mem.history i (keptValues periodic s i v)
    lastResv := mapSet (fun _ => 0#32) s.mem.lastResv i (resvWord s i) } } (grantKey i) 0 20 (nextGrant periodic s i v)

/-- What no event touches reads, after an evaluated value takes effect, as in the state that holds the new grant. -/
theorem grantValue_view {α : Type} (view : State → α)
    (hraise : ∀ s t c b f n d, view (raise s t c b f n d) = view s) (periodic : Bool) (s : State) (f : Nat) (tier : Tier) (t v : Nat) :
    view (grantValue periodic s f tier t v) = view (withGrant periodic s (resvIndex t f tier) v) := by
  unfold grantValue
  extract_lets
  split
  · split
    · exact hraise _ _ _ _ _ _ _
    · exact (hraise _ _ _ _ _ _ _).trans (hraise _ _ _ _ _ _ _)
  · rfl

theorem nextGrant_lt (periodic : Bool) (s : State) (i : Nat) {v : Nat} (hv : v < 2 ^ 20) : nextGrant periodic s i v < 2 ^ 20 := by
  unfold nextGrant
  extract_lets cur hist
  split_ifs
  · exact hv
  · exact hv
  · rw [List.foldl_min]
    exact min_lt_of_left_lt hv
  · exact fld_lt _ 0 20

/-- The grant read after an evaluated value takes effect. -/
theorem regFld_grantValue (periodic : Bool) (s : State) (f : Nat) (tier : Tier) (t : Nat) {v : Nat} (hv : v < 2 ^ 20) :
    regFld (grantValue periodic s f tier t v) (grantKey (resvIndex t f tier)) 0 20 =
      nextGrant periodic s (resvIndex t f tier) v := by
  rw [grantValue_view (fun s => regFld s _ 0 20) fun s t c b f n d => by simp only [regFld, regGet, raise_regs], withGrant,
    regFld_regSetFld_same _ _ _ _ _ (by omega), Nat.mod_eq_of_lt (nextGrant_lt periodic s _ hv)]

/-- The values kept after an evaluated value takes effect. -/
theorem history_grantValue (periodic : Bool) (s : State) (f : Nat) (tier : Tier) (t v : Nat) :
    mapGet (fun _ => []) (grantValue periodic s f tier t v).mem.history (resvIndex t f tier) =
      keptValues periodic s (resvIndex t f tier) v := by
  rw [grantValue_view State.mem raise_mem, withGrant, regSetFld_mem]
  exact mapGet_mapSet_same _ _ _ _

/-- Settles O13: the grant read is `nextGrant`, whose branches are the cases of R133. -/
theorem grantFallsAtOnceRisesAfterOneMillisecond : Obligations.GrantFallsAtOnceRisesAfterOneMillisecond := by
  unfold Obligations.GrantFallsAtOnceRisesAfterOneMillisecond
  intro s f t v tier hv i old cur hist
  have hgrant : regFld (applyGrant s f tier t v) (grantKey i) 0 20 = nextGrant true s i v := regFld_grantValue true s f tier t hv
  have hkept (h : resvWord s i = old) : keptValues true s i v = hist := if_pos h
  rw [hgrant, nextGrant]
  refine ⟨fun h => if_pos h, fun h hfall => ?fall, fun h hrise hstay => ?stay, fun h hrise hfull hlow => ?rise,
    fun x xs h hhist => ?atOnce⟩
  case fall => rw [if_neg (not_not.mpr h), if_pos hfall]
  case stay =>
    rw [if_neg (not_not.mpr h), if_neg (by omega), hkept h, if_neg]
    rintro ⟨hfull, hlow⟩
    exact hstay.elim hfull.not_lt hlow.not_ge
  case rise => rw [if_neg (not_not.mpr h), if_neg (by omega), hkept h, if_pos ⟨hfull, hlow⟩]
  case atOnce =>
    rw [history_grantValue, keptValues, if_pos h, hhist]
    rfl

end Sys2Proof.Machine
end

section
/-! Proof of the memory commands' statement: scrubbing, row retirement, grant evaluation and a lost PHY (06 R121 to R125, R131). -/
namespace Sys2Proof.Machine

/-! ## A count raised beside a change of memory -/

section CountAndMem
variable (s : State) (m : Memory) (k lo n d : Nat)

theorem bump_withMem : bump { s with mem := m } k lo n d = { bump s k lo n d with mem := m } := rfl

theorem bump_withMem_self : ({ bump s k lo n d with mem := s.mem } : State) = bump s k lo n d := rfl

theorem bump_withMem_frame : ({ ({ bump s k lo n d with mem := m } : State) with regs := s.regs, mem := s.mem } : State) = s := rfl

theorem regFld_bump_withMem (h : lo + n ≤ 32) :
    regFld { bump s k lo n d with mem := m } k lo n = min (regFld s k lo n + d) (2 ^ n - 1) := regFld_bump_same s k lo n d h

end CountAndMem

/-! ## Scrubbing (06 R122 to R124) -/

/-- A correction of a row changes its count of corrections and the copies under way alone. -/
theorem rowCorrected_eq (s : State) (r : RowId) : ∃ rowHits copying,
    rowCorrected s r = { s with mem := { s.mem with rowHits, copying } } := by
  unfold rowCorrected
  extract_lets
  split <;> exact ⟨_, _, rfl⟩

section Scrub
variable {s : State} {a : Nat} (row : Nat) (halive : alive s = true)
  (hpop : populated s (a / granule a * granule a) (granule a) = true)
  (hlive : rangeLive s (a / granule a * granule a) (granule a) = true)
  (hclean : look s.mem.poison (a / granule a * granule a) = none)
include halive hpop hlive hclean

/-- A live granule without stored poison is read. -/
theorem scrub_gate : ¬ (!alive s || !populated s (a / granule a * granule a) (granule a) ||
    !rangeLive s (a / granule a * granule a) (granule a) || (look s.mem.poison (a / granule a * granule a)).isSome) = true := by
  simp [halive, hpop, hlive, hclean]

theorem scrub_clean : scrub s a row .clean = s := if_neg (scrub_gate halive hpop hlive hclean)

theorem scrub_correctable : ∃ m : Memory, m.bytes = s.mem.bytes ∧ m.broken = s.mem.broken ∧
    scrub s a row .correctable = { bump s (eccKey a) 16 16 1 with mem := m } := by
  rw [scrub, if_neg (scrub_gate halive hpop hlive hclean)]
  dsimp only
  rw [bump_withMem]
  split
  · next r _ =>
    obtain ⟨rowHits, copying, h⟩ := rowCorrected_eq { bump s (eccKey a) 16 16 1 with
      mem := { s.mem with weak := remove s.mem.weak (a / granule a * granule a) } } r
    rw [h]
    exact ⟨{ s.mem with weak := remove s.mem.weak (a / granule a * granule a), rowHits, copying }, rfl, rfl, rfl⟩
  · exact ⟨{ s.mem with weak := remove s.mem.weak (a / granule a * granule a) }, rfl, rfl, rfl⟩

theorem scrub_uncorrectable : ∃ m : Memory, m.bytes = s.mem.bytes ∧ a / granule a * granule a ∈ m.broken ∧
    scrub s a row .uncorrectable = { bump s (eccKey a) 0 16 1 with mem := m } := by
  rw [scrub, if_neg (scrub_gate halive hpop hlive hclean)]
  dsimp only
  rw [bump_mem]
  split
  · next hbroken => exact ⟨s.mem, rfl, List.contains_iff_mem.mp hbroken, (bump_withMem_self s _ _ _ _).symm⟩
  · exact ⟨{ s.mem with
      broken := s.mem.broken ++ [a / granule a * granule a]
      weak := remove s.mem.weak (a / granule a * granule a) }, rfl, List.mem_append_right _ (List.mem_singleton_self _), rfl⟩

end Scrub

/-! ## Row retirement (06 R124, R125) -/

/-- What the Assay controller keeps lists a row for which there is room: the list is written when the row is new to it. -/
theorem listRow_room {s : State} (r : RowId) (hroom : s.nor.retired.length < 4096) :
    rowNo r ∈ (listRow s r).nor.retired ∧
    (listRow s r).outs = s.outs ++ (if s.nor.retired.contains (rowNo r) then [] else [.nor norWriteCmds norKept.1 norKept.2]) ∧
    (listRow s r).mem = s.mem ∧ ({ listRow s r with nor := s.nor, outs := s.outs } : State) = s := by
  unfold listRow
  by_cases hlisted : s.nor.retired.contains (rowNo r) = true
  · rw [if_pos hlisted, if_pos hlisted, List.append_nil]
    exact ⟨List.contains_iff_mem.mp hlisted, rfl, rfl, rfl⟩
  · rw [if_neg hlisted, if_neg hlisted, if_pos hroom]
    exact ⟨List.mem_append_right _ (List.mem_singleton_self _), rfl, rfl, rfl⟩

/-- Listing a row beside a count and a change of memory, as every retirement does. -/
theorem listRow_bump_room (s : State) (m : Memory) (k lo n d : Nat) (r : RowId) (hroom : s.nor.retired.length < 4096) :
    rowNo r ∈ (listRow { bump s k lo n d with mem := m } r).nor.retired ∧
    (listRow { bump s k lo n d with mem := m } r).outs =
      s.outs ++ (if s.nor.retired.contains (rowNo r) then [] else [.nor norWriteCmds norKept.1 norKept.2]) ∧
    (listRow { bump s k lo n d with mem := m } r).mem = m ∧
    ({ listRow { bump s k lo n d with mem := m } r with regs := s.regs, mem := s.mem, nor := s.nor, outs := s.outs } : State) = s := by
  obtain ⟨hlisted, houts, hmem, hframe⟩ := listRow_room (s := { bump s k lo n d with mem := m }) r hroom
  exact ⟨hlisted, houts, hmem,
    (congrArg (fun t : State => { t with regs := s.regs, mem := s.mem }) hframe).trans (bump_withMem_frame s m k lo n d)⟩

/-- A finished copy of an HBM row takes one of its bank's repairs. -/
theorem rowCopied_hbm_room {s : State} {f row : Nat} (hcopying : (⟨true, f, row⟩ : RowId) ∈ s.mem.copying) :
    rowCopied s ⟨true, f, row⟩ true =
      listRow { bump s (fKey f 0x20020) 24 8 1 with
        mem := { s.mem with
          copying := s.mem.copying.erase ⟨true, f, row⟩
          retired := s.mem.retired ++ [⟨true, f, row⟩] } } ⟨true, f, row⟩ := by
  have hgate : ¬ (!s.mem.copying.contains ⟨true, f, row⟩) = true := by simp [hcopying]
  rw [rowCopied, if_neg hgate]
  dsimp only
  rw [if_pos rfl, if_pos rfl, bump_withMem]

/-- Settles O12: each command's effect by the lemma that says it of its operation. -/
theorem memoryCommandsComplete : Obligations.MemoryCommandsComplete := by
  unfold Obligations.MemoryCommandsComplete
  refine ⟨?scrub, fun s f row hcopying hroom => ?retire, fun s halive => ?evaluation, fun s u k n halive hunit => ?phy⟩
  case scrub =>
    intro s a row halive g hpop hlive hclean
    obtain ⟨m, hbytes, hbroken, hcorrected⟩ := scrub_correctable row halive hpop hlive hclean
    obtain ⟨m', hbytes', hbroken', hbeyond⟩ := scrub_uncorrectable row halive hpop hlive hclean
    exact ⟨⟨_, rfl, scrub_clean row halive hpop hlive hclean⟩,
      ⟨_, congrArg Host.Outcome.next hcorrected, hbytes, hbroken, regFld_bump_withMem s m _ 16 16 1 (by omega),
        bump_withMem_frame s m _ _ _ _⟩,
      ⟨_, congrArg Host.Outcome.next hbeyond, hbytes', hbroken', regFld_bump_withMem s m' _ 0 16 1 (by omega),
        bump_withMem_frame s m' _ _ _ _⟩⟩
  case retire =>
    obtain ⟨hlisted, houts, hmem, hframe⟩ := listRow_bump_room s { s.mem with
      copying := s.mem.copying.erase ⟨true, f, row⟩
      retired := s.mem.retired ++ [⟨true, f, row⟩] } (fKey f 0x20020) 24 8 1 ⟨true, f, row⟩ hroom
    refine ⟨_, congrArg Host.Outcome.next (rowCopied_hbm_room hcopying), ?_, ?_, hlisted, houts, hframe⟩
    · rw [hmem]
    · rw [hmem]
      exact List.mem_append_right _ (List.mem_singleton_self _)
  case evaluation =>
    have hexec : exec .resvEvaluation s = execResvEvaluation s := rfl
    rw [hexec, execResvEvaluation, if_pos halive]
  case phy =>
    have hexec : exec (.phyLockLost u) s = execPhyLockLost u s := rfl
    rw [hexec, execPhyLockLost, hunit]
    exact congrArg Host.Outcome.next (if_pos halive)

end Sys2Proof.Machine
end

section
/-! SUPPORT. Flash: what a LUN's queue, its operation in flight, a read and a page give after each operation on them, and how far an
operation of the flash controllers reaches (07 R139 to R161). -/
namespace Sys2Proof.Machine

/-! ## Maps changed entry by entry, and entries of a list by number -/

theorem look_filter_keys {α : Type} (m : KMap α) (g : Nat → Bool) (k : Nat) :
    look (m.filter (fun p => g p.1)) k = if g k then look m k else none := by
  induction m with
  | nil => simp [look]
  | cons p m ih =>
    obtain ⟨a, v⟩ := p
    by_cases hg : g a = true <;> by_cases ha : a = k <;> simp_all [look]

theorem look_map_values {α : Type} {g : Nat × α → Nat × α} (hkey : ∀ p, (g p).1 = p.1) (m : KMap α) (k : Nat) :
    look (m.map g) k = (look m k).map (fun v => (g (k, v)).2) := by
  induction m with
  | nil => rfl
  | cons p m ih =>
    obtain ⟨a, v⟩ := p
    rw [List.map_cons, show g (a, v) = (a, (g (a, v)).2) from Prod.ext (hkey (a, v)) rfl, look, look]
    split
    · next ha => subst ha; rfl
    · exact ih

theorem upto_eq_range (n : Nat) : upto n = List.range n := (rangeFrom_eq_range' 0 n).trans List.range_eq_range'.symm

theorem filterMap_upto_getElem? {α : Type} (l : List α) : (upto l.length).filterMap (fun k => l[k]?) = l := by
  induction l with
  | nil => rfl
  | cons x l ih =>
    rw [upto_eq_range] at ih ⊢
    rw [List.length_cons, List.range_succ_eq_map, List.filterMap_cons, List.filterMap_map]
    exact congrArg (List.cons x) ih

/-- All entries but the i-th, taken by their numbers. -/
theorem filterMap_upto_ne {α : Type} (l : List α) (i : Nat) :
    ((upto l.length).filter (fun k => !([i].contains k))).filterMap (fun k => l[k]?) = l.eraseIdx i := by
  induction l generalizing i with
  | nil => rfl
  | cons x l ih =>
    rw [upto_eq_range, List.length_cons, List.range_succ_eq_map, List.filter_cons, List.filter_map]
    cases i with
    | zero =>
      have hall : (List.range l.length).filter ((fun k => !([0].contains k)) ∘ Nat.succ) = upto l.length := by
        rw [upto_eq_range]
        exact List.filter_eq_self.mpr fun k _ => by simp
      rw [hall, if_neg (by simp), List.filterMap_map]
      exact filterMap_upto_getElem? l
    | succ i =>
      have hsucc : ((fun k => !([i + 1].contains k)) ∘ Nat.succ) = fun k => !([i].contains k) := by
        funext k
        simp
      rw [hsucc, if_pos (by simp), List.filterMap_cons, List.filterMap_map, ← upto_eq_range]
      exact congrArg (List.cons x) (ih i)

/-! ## Reach: the flash controllers and the outputs -/

/-- From s to t at most the flash controllers changed, and what has left the package. -/
structure FlashReach (s t : State) : Prop where
  frame : ({ t with flash := s.flash, outs := s.outs } : State) = s

theorem FlashReach.refl (s : State) : FlashReach s s := ⟨rfl⟩

theorem FlashReach.trans {s t u : State} (h : FlashReach s t) (k : FlashReach t u) : FlashReach s u :=
  ⟨(congrArg (fun x : State => { x with flash := s.flash, outs := s.outs }) k.frame).trans h.frame⟩

theorem FlashReach.ite {s t u : State} {p : Prop} [Decidable p] (ht : FlashReach s t) (hu : FlashReach s u) :
    FlashReach s (if p then t else u) := by
  split <;> assumption

theorem withFlash_reach (s : State) (flash : Flash) : FlashReach s { s with flash } := ⟨rfl⟩

theorem emit_reach (s : State) (o : Out) : FlashReach s (emit s o) := ⟨rfl⟩

theorem setQueue_reach (s : State) (lun : Nat) (q : List NandCmd) : FlashReach s (setQueue s lun q) := withFlash_reach s _

theorem setFlight_reach (s : State) (lun : Nat) (f : Option NandFlight) : FlashReach s (setFlight s lun f) := withFlash_reach s _

theorem placeRead_reach (s : State) (id : Nat) (r : ExtentRead) : FlashReach s (placeRead s id r) := withFlash_reach s _

theorem setLevel_reach (s : State) (lun code : Nat) : FlashReach s (setLevel s lun code) := by
  unfold setLevel
  exact .ite (.refl s) ((withFlash_reach s _).trans (emit_reach _ _))

theorem enqueue_reach (s : State) (op : NandOp) (cls : NandClass) (tenant : Nat) (d : List Byte) :
    FlashReach s (enqueue s op cls tenant d) := (setQueue_reach s op.lun _).trans (withFlash_reach _ _)

theorem ensureRead_reach (s : State) (id : Nat) (r : ExtentRead) : FlashReach s (ensureRead s id r) := by
  have hplace := fun n => placeRead_reach s id { r with waits := n }
  unfold ensureRead
  dsimp only
  split
  · exact .ite ((hplace _).trans (emit_reach _ _)) (hplace _)
  · exact .ite ((hplace _).trans (enqueue_reach _ _ _ _ _)) ((hplace _).trans ((setQueue_reach _ _ _).trans (withFlash_reach _ _)))

/-! ## Queues and reads (07 R154, R157) -/

@[simp] theorem lunQueue_setQueue (s : State) (lun : Nat) (q : List NandCmd) (k : Nat) :
    lunQueue (setQueue s lun q) k = if lun = k then q else lunQueue s k := mapGet_mapSet _ _ _ _ _

theorem lunQueue_setFlight (s : State) (lun : Nat) (f : Option NandFlight) (k : Nat) : lunQueue (setFlight s lun f) k = lunQueue s k := rfl

theorem lunQueue_emit (s : State) (o : Out) (k : Nat) : lunQueue (emit s o) k = lunQueue s k := rfl

theorem look_setFlight_same (s : State) (lun : Nat) (f : NandFlight) : look (setFlight s lun (some f)).flash.inFlight lun = some f :=
  look_place_same _ _ _

theorem setFlight_outs (s : State) (lun : Nat) (f : Option NandFlight) : (setFlight s lun f).outs = s.outs := rfl

theorem setQueue_outs (s : State) (lun : Nat) (q : List NandCmd) : (setQueue s lun q).outs = s.outs := rfl

theorem lunQueue_enqueue_same (s : State) (op : NandOp) (cls : NandClass) (tenant : Nat) (d : List Byte) :
    lunQueue (enqueue s op cls tenant d) op.lun = lunQueue s op.lun ++ [⟨s.flash.nextCmd, op, cls, tenant, d⟩] :=
  (lunQueue_setQueue s op.lun _ op.lun).trans (if_pos rfl)

/-- Which command serves a page read follows from what waits and what is in flight alone. -/
theorem queuedRead_congr {s t : State} (hwaiting : t.flash.waiting = s.flash.waiting) (hflight : t.flash.inFlight = s.flash.inFlight)
    (op : NandOp) : queuedRead t op = queuedRead s op := by
  unfold queuedRead lunQueue
  rw [hwaiting, hflight]

/-- A command that has just joined its queue serves its page. -/
theorem queuedRead_enqueue (s : State) (op : NandOp) (cls : NandClass) (tenant : Nat) (d : List Byte) :
    queuedRead (enqueue s op cls tenant d) op = some s.flash.nextCmd := by
  simp [queuedRead, lunQueue_enqueue_same]

/-- A read at the default level waits for the command that reads its page, queued before or now. -/
theorem ensureRead_waits (s : State) (id : Nat) {r : ExtentRead} (hlevel : r.level = 0) (hsoft : r.soft = 0) :
    ∃ w, look (ensureRead s id r).flash.reads id = some { r with waits := w } ∧
      queuedRead (ensureRead s id r) (r.op s) = some w ∧ (ensureRead s id r).flash.finished = s.flash.finished := by
  unfold ensureRead
  dsimp only
  split
  · next w hw =>
    refine ⟨w, ?_⟩
    split <;> exact ⟨look_place_same _ _ _, (queuedRead_congr (by rfl) (by rfl) _).trans hw, rfl⟩
  · rw [if_pos ⟨hlevel, hsoft⟩]
    exact ⟨s.flash.nextCmd, look_place_same _ _ _, queuedRead_enqueue _ _ _ _ _, rfl⟩

/-- A read of a request ends among those that its request finds. -/
theorem endRead_request {r : ExtentRead} (hreader : r.reader < 65536) (s : State) (id : Nat) (st : Option Status) :
    endRead s id r st = { s with flash := { s.flash with
      reads := remove s.flash.reads id
      finished := s.flash.finished ++ [⟨r.reader, r.extent, r.data, r.bad, st⟩] } } := by
  rw [endRead, if_neg (by omega), if_neg (by omega)]

/-- The read of a flash job ends as its job does with it. -/
theorem endRead_job {r : ExtentRead} {f : Nat} (hreader : r.reader = jobReader f) (s : State) (id : Nat) (st : Option Status) :
    endRead s id r st = jobReadEnds { s with flash := { s.flash with reads := remove s.flash.reads id } } f r st := by
  have hf : r.reader - 65537 = f := by rw [hreader]; unfold jobReader; omega
  rw [endRead, if_pos (by rw [hreader]; unfold jobReader; omega), if_pos (by rw [hreader]; unfold jobReader; omega), hf]

/-- A LUN is given free, or not; nothing else happens to it. -/
theorem releaseLun_eq (s : State) (lun : Nat) : ∃ inFlight, releaseLun s lun = { s with flash := { s.flash with inFlight } } := by
  unfold releaseLun
  split
  · exact ⟨_, rfl⟩
  · split <;> exact ⟨_, rfl⟩

/-- A LUN whose data a read still wants stays taken. -/
theorem releaseLun_wanted {s : State} {lun : Nat} {f : NandFlight} (hflight : look s.flash.inFlight lun = some f)
    (hwanted : s.flash.reads.any (fun p => f.parts.any (fun c => c.num == p.2.waits)) = true) : releaseLun s lun = s := by
  simp [releaseLun, hflight, hwanted]

/-- Each codeword is selected by one output. -/
theorem selectCw_foldl (wants : List Nat) (s : State) (lun : Nat) :
    ∃ outs, wants.foldl (fun s a => selectCw s lun a) s = { s with outs } :=
  foldl_inv (fun t => ∃ outs, t = { s with outs }) _ (fun _ _ ⟨outs, h⟩ => ⟨outs ++ _, by rw [h]; rfl⟩) wants s ⟨_, rfl⟩

/-! ## The host's side of a job (07 R158, R159) -/

theorem translate_eq (s : State) (fn : FnId) (a : Nat) : ∃ atc outs, translate s fn a = { s with atc, outs := s.outs ++ outs } := by
  unfold translate
  dsimp only
  split
  · exact ⟨_, [], by rw [List.append_nil]⟩
  · exact ⟨_, _, rfl⟩

/-- Transfers that leave change the translations kept and send each its write, under one PASID. -/
theorem hostWrites_eq (fn : FnId) (d : List Byte) (a : Nat) (parts : List (Nat × Nat)) (s : State) : ∃ atc outs,
    parts.foldl (fun s p => emit (translate s fn p.1) (.hostWrite fn (pasidOf s fn) p.1 (slice d (p.1 - a) p.2))) s =
      { s with atc, outs := s.outs ++ outs } ∧
    ∀ x ∈ parts, .hostWrite fn (pasidOf s fn) x.1 (slice d (x.1 - a) x.2) ∈ outs := by
  induction parts generalizing s with
  | nil => exact ⟨s.atc, [], by rw [List.append_nil]; rfl, by simp⟩
  | cons p parts ih =>
    obtain ⟨atc, sent, htranslate⟩ := translate_eq s fn p.1
    obtain ⟨atc', outs, hrest, hmem⟩ := ih (emit (translate s fn p.1) (.hostWrite fn (pasidOf s fn) p.1 (slice d (p.1 - a) p.2)))
    rw [htranslate] at hrest hmem
    refine ⟨atc', sent ++ (.hostWrite fn (pasidOf s fn) p.1 (slice d (p.1 - a) p.2) :: outs), ?_, ?_⟩
    · rw [List.foldl_cons, htranslate, hrest]
      simp [emit]
    · intro x hx
      rcases List.mem_cons.mp hx with rfl | hx
      · simp
      · exact List.mem_append_right _ (List.mem_cons_of_mem _ (hmem x hx))

theorem hostSend_eq (s : State) (fn : FnId) (a : Nat) (d : List Byte) : ∃ atc outs,
    hostSend s fn a d = { s with atc, outs := s.outs ++ outs } ∧
    ∀ x ∈ hostParts (maxPayload s fn.port) a d.length, .hostWrite fn (pasidOf s fn) x.1 (slice d (x.1 - a) x.2) ∈ outs :=
  hostWrites_eq fn d a _ s

/-- Reads that leave a port change the port, the translations kept and the outputs alone. -/
theorem pumpReads_eq (n p : Nat) (s : State) : ∃ ports atc outs,
    pumpReads n s p = { s with ports, atc, outs := s.outs ++ outs } := by
  induction n generalizing s with
  | zero => exact ⟨_, _, [], by rw [List.append_nil]; rfl⟩
  | succ n ih =>
    unfold pumpReads
    dsimp only
    split
    · exact ⟨_, _, [], by rw [List.append_nil]⟩
    · next x _ =>
      split
      · exact ⟨_, _, [], by rw [List.append_nil]⟩
      · obtain ⟨atc, sent, htranslate⟩ := translate_eq
          (setPort s p { portOf s p with reads := (portOf s p).reads ++ [x], held := (portOf s p).held.erase x }) ⟨p, x.tenant⟩ x.addr
        rw [htranslate]
        obtain ⟨ports, atc', outs, hrest⟩ := ih (emit { (setPort s p { portOf s p with
          reads := (portOf s p).reads ++ [x], held := (portOf s p).held.erase x }) with
            atc, outs := s.outs ++ sent } (.hostRead ⟨p, x.tenant⟩ (pasidOf s ⟨p, x.tenant⟩) x.addr x.len))
        exact ⟨ports, atc', _, hrest.trans (by rw [emit_outs, List.append_assoc, List.append_assoc]; rfl)⟩

theorem hostAsk_eq (s : State) (fn : FnId) (a n : Nat) : ∃ ports atc outs,
    hostAsk s fn a n = { s with ports, atc, outs := s.outs ++ outs } := pumpReads_eq _ _ _

/-- A job that waits for its next entry asks at most the host. -/
theorem jobAsk_eq (s : State) (f : Nat) : ∃ ports atc outs, jobAsk s f = { s with ports, atc, outs := s.outs ++ outs } := by
  unfold jobAsk
  split
  · dsimp only
    split
    · exact hostAsk_eq _ _ _ _
    · exact ⟨_, _, [], by rw [List.append_nil]⟩
  · exact ⟨_, _, [], by rw [List.append_nil]⟩

/-! ## Reach: reads and jobs that end (07 R158 to R162, Corners) -/

/-- A register that shows no flash job. -/
def NoJobStatus (k : Nat) : Prop := ∀ f, fKey f 0x30110 ≠ k

/-- From s to t reads and jobs of the flash controllers may have ended: what leaves is appended, no read begins, and of the registers
at most FLS_JOB_STATUS changed. -/
structure JobReach (s t : State) : Prop where
  outs : ∃ outs, t.outs = s.outs ++ outs
  reads : ∀ id, look s.flash.reads id = none → look t.flash.reads id = none
  regs : ∀ k, NoJobStatus k → regGet t k = regGet s k

theorem JobReach.refl (s : State) : JobReach s s := ⟨⟨[], (List.append_nil _).symm⟩, fun _ h => h, fun _ _ => rfl⟩

theorem JobReach.trans {s t u : State} (h : JobReach s t) (k : JobReach t u) : JobReach s u := by
  obtain ⟨o, ho⟩ := h.outs
  obtain ⟨p, hp⟩ := k.outs
  exact ⟨⟨o ++ p, by rw [hp, ho, List.append_assoc]⟩, fun id hid => k.reads id (h.reads id hid),
    fun i hi => (k.regs i hi).trans (h.regs i hi)⟩

theorem JobReach.ite {s t u : State} {p : Prop} [Decidable p] (ht : JobReach s t) (hu : JobReach s u) :
    JobReach s (if p then t else u) := by
  split <;> assumption

theorem JobReach.foldl {α : Type} {f : State → α → State} (hf : ∀ s a, JobReach s (f s a)) (l : List α) (s : State) :
    JobReach s (l.foldl f s) := foldl_inv (fun t => JobReach s t) f (fun t a h => h.trans (hf t a)) l s (.refl s)

/-- A change of the flash tables that begins no read. -/
theorem JobReach.flash {s : State} {flash : Flash} (h : ∀ id, look s.flash.reads id = none → look flash.reads id = none) :
    JobReach s { s with flash } := ⟨⟨[], (List.append_nil _).symm⟩, h, fun _ _ => rfl⟩

/-- Traffic with the host. -/
theorem JobReach.host (s : State) (ports : KMap Port) (atc : KMap (List Cached)) (outs : List Out) :
    JobReach s { s with ports, atc, outs := s.outs ++ outs } := ⟨⟨outs, rfl⟩, fun _ h => h, fun _ _ => rfl⟩

theorem JobReach.regSet {s : State} {k : Nat} (w : Word) (hk : ∃ f, fKey f 0x30110 = k) : JobReach s (regSet s k w) := by
  obtain ⟨f, hf⟩ := hk
  exact ⟨⟨[], (List.append_nil _).symm⟩, fun _ h => h, fun i hi => regGet_regSet_ne s k i w fun hki => hi f (hf.trans hki)⟩

theorem jobStatus_reach (s : State) (f st reason entry : Nat) : JobReach s (jobStatus s f st reason entry) := .regSet _ ⟨f, rfl⟩

theorem setJob_reach (s : State) (f : Nat) (j : FlashJob) : JobReach s (setJob s f j) := .flash fun _ h => h

theorem dropUpdates_reach (s : State) (f : Nat) : JobReach s (dropUpdates s f) := .flash fun _ h => h

theorem orphanJob_reach (s : State) (f : Nat) : JobReach s (orphanJob s f) :=
  .flash fun id h => (look_map_values (fun p => by split <;> rfl) s.flash.reads id).trans (by rw [h]; rfl)

/-- A facet's job is no more, and its reads have lost their reader. -/
def dropJob (s : State) (f : Nat) : State := orphanJob { s with flash := { s.flash with jobs := remove s.flash.jobs f } } f

theorem dropJob_reach (s : State) (f : Nat) : JobReach s (dropJob s f) :=
  .trans (t := { s with flash := { s.flash with jobs := remove s.flash.jobs f } }) (.flash fun _ h => h) (orphanJob_reach _ f)

theorem jobStopped_eq (s : State) (f : Nat) (j : FlashJob) :
    ∃ st reason entry, jobStopped s f j = jobStatus (dropJob s f) f st reason entry := by
  unfold jobStopped dropJob
  by_cases h : (if j.cut then j.entry else j.entry + 1) < j.count
  · exact ⟨3, j.after, _, if_pos h⟩
  · exact ⟨2, 0, _, if_neg h⟩

theorem jobStopped_reach (s : State) (f : Nat) (j : FlashJob) : JobReach s (jobStopped s f j) := by
  obtain ⟨st, reason, entry, h⟩ := jobStopped_eq s f j
  rw [h]
  exact (dropJob_reach s f).trans (jobStatus_reach _ _ _ _ _)

theorem jobAsk_reach (s : State) (f : Nat) : JobReach s (jobAsk s f) := by
  obtain ⟨ports, atc, outs, h⟩ := jobAsk_eq s f
  rw [h]
  exact .host s ports atc outs

/-- The state with a facet's job at its next entry, shown as RUNNING. -/
def nextEntry (s : State) (f : Nat) (j : FlashJob) : State :=
  jobStatus (setJob s f { j with entry := j.entry + 1, work := .fetch }) f 1 0 (j.entry + 1)

section EntryDone
variable {s : State} {f : Nat} {j : FlashJob} (hjob : look s.flash.jobs f = some j)
include hjob

theorem entryDone_stops (hafter : j.after ≠ 0) : entryDone s f = jobStopped s f j := by
  simp only [entryDone, hjob, if_pos hafter]

theorem entryDone_next (hafter : j.after = 0) (hmore : j.entry + 1 < j.count) : entryDone s f = jobAsk (nextEntry s f j) f := by
  simp only [entryDone, hjob, if_neg (not_not.mpr hafter), if_pos hmore, nextEntry]

theorem entryDone_last (hafter : j.after = 0) (hlast : ¬ j.entry + 1 < j.count) :
    entryDone s f = jobStatus (dropJob s f) f 2 0 (j.entry + 1) := by
  simp only [entryDone, hjob, if_neg (not_not.mpr hafter), if_neg hlast, dropJob]

end EntryDone

theorem entryDone_reach (s : State) (f : Nat) : JobReach s (entryDone s f) := by
  cases hjob : look s.flash.jobs f with
  | none =>
    rw [entryDone, hjob]
    exact .refl s
  | some j =>
    by_cases hafter : j.after = 0
    · by_cases hmore : j.entry + 1 < j.count
      · rw [entryDone_next hjob hafter hmore]
        exact .trans ((setJob_reach _ _ _).trans (jobStatus_reach _ _ _ _ _)) (jobAsk_reach _ _)
      · rw [entryDone_last hjob hafter hmore]
        exact (dropJob_reach s f).trans (jobStatus_reach _ _ _ _ _)
    · rw [entryDone_stops hjob hafter]
      exact jobStopped_reach s f j

theorem hostSend_reach (s : State) (fn : FnId) (a : Nat) (d : List Byte) : JobReach s (hostSend s fn a d) := by
  obtain ⟨atc, outs, h, -⟩ := hostSend_eq s fn a d
  rw [h]
  exact .host s s.ports atc outs

theorem jobFlush_reach (s : State) (f : Nat) : JobReach s (jobFlush s f) := by
  unfold jobFlush
  split
  · split
    · exact .ite ((hostSend_reach _ _ _ _).trans (entryDone_reach _ f)) (.refl s)
    · exact .refl s
  · exact .refl s

theorem stopJob_reach (s : State) (f reason : Nat) : JobReach s (stopJob s f reason) := by
  unfold stopJob
  split
  · exact .refl s
  · exact .ite ((dropUpdates_reach s f).trans (setJob_reach _ _ _)) ((dropUpdates_reach s f).trans (jobStopped_reach _ _ _))

theorem jobReadEnds_reach (s : State) (f : Nat) (r : ExtentRead) (st : Option Status) : JobReach s (jobReadEnds s f r st) := by
  unfold jobReadEnds
  split
  · exact .refl s
  · split
    · split
      · exact (setJob_reach _ _ _).trans (jobFlush_reach _ f)
      · exact stopJob_reach s f 8
      · exact .trans (t := (draw s).2) ⟨⟨[], (List.append_nil _).symm⟩, fun _ h => h, fun _ _ => rfl⟩ (stopJob_reach _ _ _)
    · exact .refl s

theorem look_remove_none {α : Type} {m : KMap α} {k : Nat} (j : Nat) (h : look m k = none) : look (remove m j) k = none :=
  look_filter_none _ h

theorem endRead_reach (s : State) (id : Nat) (r : ExtentRead) (st : Option Status) : JobReach s (endRead s id r st) :=
  have hremove : ∀ finished, JobReach s { s with flash := { s.flash with reads := remove s.flash.reads id, finished } } :=
    fun _ => .flash fun _ h => look_remove_none id h
  .ite ((hremove _).trans (jobReadEnds_reach _ _ _ _)) (hremove _)

/-- A read that has ended is gone. -/
theorem look_endRead (s : State) (id : Nat) (r : ExtentRead) (st : Option Status) : look (endRead s id r st).flash.reads id = none := by
  unfold endRead
  dsimp only
  split
  · exact (jobReadEnds_reach _ _ r st).reads id (look_remove_same _ _)
  · exact look_remove_same _ _

theorem dropDead_reach (s : State) : JobReach s (dropDead s) :=
  (JobReach.foldl (fun t _ => .ite (.refl t) (endRead_reach t _ _ _)) s.flash.reads s).trans (.flash fun _ h => h)

theorem flashLost_reach (s : State) (f : Nat) : JobReach s (flashLost s f) := by
  unfold flashLost
  dsimp only
  split
  · split
    · exact (dropDead_reach s).trans ((setJob_reach _ _ _).trans (stopJob_reach _ _ _))
    · exact dropDead_reach s
  · exact dropDead_reach s

section Flush
variable {s : State} {f : Nat} {j : FlashJob} {a : Nat} {d : List Byte} (hjob : look s.flash.jobs f = some j)
  (hwork : j.work = .write a d) (hopen : dmaOpen s ⟨j.port, 0⟩ = true)
include hjob hwork hopen

/-- While its port carries traffic a job's bytes leave, and its entry ends. -/
theorem jobFlush_open : jobFlush s f = entryDone (hostSend s ⟨j.port, 0⟩ a d) f := by
  simp [jobFlush, hjob, hwork, hopen]

theorem jobFlush_sends {x : Nat × Nat} (hx : x ∈ hostParts (maxPayload s j.port) a d.length) :
    .hostWrite ⟨j.port, 0⟩ (pasidOf s ⟨j.port, 0⟩) x.1 (slice d (x.1 - a) x.2) ∈ (jobFlush s f).outs := by
  obtain ⟨_, outs, hsend, hmem⟩ := hostSend_eq s ⟨j.port, 0⟩ a d
  obtain ⟨more, hdone⟩ := (entryDone_reach (hostSend s ⟨j.port, 0⟩ a d) f).outs
  rw [jobFlush_open hjob hwork hopen, hdone, hsend]
  exact List.mem_append_left _ (List.mem_append_right _ (hmem x hx))

end Flush

end Sys2Proof.Machine
end

section
/-! SUPPORT. Flash commands: extent reads, NAND issue, status polls and timeouts, case by case (07 R139 to R161). -/
namespace Sys2Proof.Machine

/-! ## Extent reads (07 R147 to R149; 12 R263) -/

section Extent
variable {s : State} {id tag : Nat} {eng : FlashEngine} {e : List Byte} {r : Request} (halive : alive s = true)
  (hr : look s.requests tag = some r) (hfree : look s.flash.reads id = none)
include halive hr hfree

theorem exec_extentRead_good (heng : eng ≠ .prefetch) (hserves : engineServes eng r.opcode = true)
    (hgood : extentFault s r.tenant e = none) :
    exec (.extentRead id tag eng e) s = .next (ensureRead s id (extentJob s tag (engineClass eng) r.tenant e)) := by
  have hexec : exec (.extentRead id tag eng e) s = execExtentRead id tag eng e s := rfl
  simp [hexec, execExtentRead, extentRead, halive, hr, hfree, heng, hserves, hgood]

theorem exec_extentRead_bad {st : Status} (heng : eng ≠ .prefetch) (hserves : engineServes eng r.opcode = true)
    (hbad : extentFault s r.tenant e = some st) :
    exec (.extentRead id tag eng e) s = .next (endRead s id (extentJob s tag (engineClass eng) r.tenant e) (some st)) := by
  have hexec : exec (.extentRead id tag eng e) s = execExtentRead id tag eng e s := rfl
  simp [hexec, execExtentRead, extentRead, halive, hr, hfree, heng, hserves, hbad]

theorem exec_extentRead_prefetch {p : Pipeline} (hpipe : r.pipe = some p) :
    exec (.extentRead id tag .prefetch e) s = .next (prefetchRead s id tag r p e) := by
  have hexec : exec (.extentRead id tag .prefetch e) s = execExtentRead id tag .prefetch e s := rfl
  simp [hexec, execExtentRead, halive, hr, hfree, hpipe]

end Extent

/-- The prefetcher asks for an extent of a candidate that has a slot, once (12 R263). -/
theorem prefetchRead_slot {s u : State} {id tag : Nat} {r : Request} {p q : Pipeline} {e : List Byte} {c : CandRead} {x : CandSlot}
    (hstage : p.next = 3) (hcand : candFor s tag (stageRequest r p 3) p e = some c)
    (hslot : slotFor s tag c.lead c.facet c.id c.left p = some (u, q, x)) (hnew : x.reads.contains e = false) :
    prefetchRead s id tag r p e = extentRead (setRequest u tag
      { r with pipe := some { q with slots := q.slots ++ [{ x with reads := x.reads ++ [e] }] } }) id tag .prefetch e := by
  simp only [prefetchRead, hstage, hcand, hslot, hnew]
  simp

/-! ## Issue (07 R139, R154 to R157) -/

/-- The commands issued together: the one whose turn it is, then its mates on other planes. -/
theorem issueParts_eq (s : State) (lun : Nat) (q : List NandCmd) (i : Nat) (also : List Nat) :
    ∃ mates, issueParts s lun q i also = i :: mates ∧ ∀ k ∈ mates, planeMates s lun q k i = true := by
  refine foldl_inv (fun is => ∃ mates, is = i :: mates ∧ ∀ k ∈ mates, planeMates s lun q k i = true) _ ?_ also [i] ⟨[], rfl, by simp⟩
  rintro _ k ⟨mates, rfl, hmates⟩
  split
  · next hjoins =>
    refine ⟨mates ++ [k], rfl, fun m hm => ?_⟩
    rcases List.mem_append.mp hm with hm | hm
    · exact hmates m hm
    · obtain ⟨-, hk⟩ := Bool.and_eq_true_iff.mp hjoins
      rw [List.mem_singleton.mp hm]
      exact List.all_eq_true.mp hk i (List.mem_cons_self)
  · exact ⟨mates, rfl, hmates⟩

/-- Mates are of one kind. -/
theorem sameKind_of_planeMates {s : State} {lun i k : Nat} {q : List NandCmd} {c d : NandCmd} (hmates : planeMates s lun q k i = true)
    (hk : q[k]? = some d) (hi : q[i]? = some c) : d.op.sameKind c.op = true := by
  simp only [planeMates, hk, hi, Bool.and_eq_true] at hmates
  exact hmates.1

/-- What stays in a queue of which some commands are issued. -/
def leftBy (q : List NandCmd) (is : List Nat) : List NandCmd :=
  ((upto q.length).filter (fun k => !is.contains k)).filterMap (fun k => q[k]?)

/-- A free LUN takes the command whose turn it is, and its mates. -/
theorem nandIssue_takes {s : State} {lun i : Nat} {turn : NandTurn} {c : NandCmd} (hfree : look s.flash.inFlight lun = none)
    (hlive : lunLive s lun = true) (hroom : inFlightOn s (lun / 32) < 64) (hnext : nextIssue (lunQueue s lun) turn = some i)
    (hc : (lunQueue s lun)[i]? = some c) :
    let is := issueParts s lun (lunQueue s lun) i turn.planes
    let parts := is.filterMap (fun k => (lunQueue s lun)[k]?)
    nandIssue s lun turn = emit (setFlight (setQueue (setLevel s lun c.op.levelCode) lun (leftBy (lunQueue s lun) is)) lun
      (some ⟨parts, false, false⟩)) (.nand lun (parts.map (·.op))) := by
  have hgate : ¬ ((look s.flash.inFlight lun).isSome = true ∨ (!lunLive s lun) = true ∨ 64 ≤ inFlightOn s (lun / 32)) := by
    simp [hfree, hlive, hroom]
  simp only [nandIssue, if_neg hgate, hnext, hc, leftBy]

/-- The commands issued are what the LUN's operation in flight holds, and they leave the queue. -/
theorem nandIssue_spec {s : State} {lun i : Nat} {turn : NandTurn} {c : NandCmd} (hfree : look s.flash.inFlight lun = none)
    (hlive : lunLive s lun = true) (hroom : inFlightOn s (lun / 32) < 64) (hnext : nextIssue (lunQueue s lun) turn = some i)
    (hc : (lunQueue s lun)[i]? = some c) :
    ∃ ds, look (nandIssue s lun turn).flash.inFlight lun = some ⟨c :: ds, false, false⟩ ∧
      (∀ d ∈ ds, d ∈ lunQueue s lun ∧ d.op.sameKind c.op = true) ∧
      (turn.planes = [] → ds = [] ∧ lunQueue (nandIssue s lun turn) lun = (lunQueue s lun).eraseIdx i) ∧
      (nandIssue s lun turn).outs = (setLevel s lun c.op.levelCode).outs ++ [.nand lun (c.op :: ds.map (·.op))] ∧
      ({ nandIssue s lun turn with flash := s.flash, outs := s.outs } : State) = s := by
  obtain ⟨mates, hparts, hmates⟩ := issueParts_eq s lun (lunQueue s lun) i turn.planes
  have hcons : (i :: mates).filterMap (fun k => (lunQueue s lun)[k]?) = c :: mates.filterMap (fun k => (lunQueue s lun)[k]?) := by
    simp [hc]
  have hissue := nandIssue_takes hfree hlive hroom hnext hc
  simp only [hparts, hcons] at hissue
  rw [hissue, emit_flash, emit_outs, lunQueue_emit, look_setFlight_same, setFlight_outs, setQueue_outs, lunQueue_setFlight,
    lunQueue_setQueue, if_pos rfl]
  refine ⟨mates.filterMap (fun k => (lunQueue s lun)[k]?), rfl, fun d hd => ?_, fun hplanes => ?_, rfl, ?_⟩
  · obtain ⟨k, hk, hkd⟩ := List.mem_filterMap.mp hd
    exact ⟨List.mem_of_getElem? hkd, sameKind_of_planeMates (hmates k hk) hkd hc⟩
  · rw [hplanes] at hparts
    rw [← (List.cons.inj hparts).2]
    exact ⟨rfl, filterMap_upto_ne _ i⟩
  · exact ((setLevel_reach s lun _).trans ((setQueue_reach _ lun _).trans ((setFlight_reach _ lun _).trans (emit_reach _ _)))).frame

/-! ## Status polls (07 R139, R141, R159 to R161) -/

/-- The state once a LUN's status has been asked for. -/
def polled (s : State) (lun : Nat) : State := emit s (.nandStatus lun (decide (fld (chCfg s (lun / 32)) 10 2 ≠ 0)))

theorem polled_reach (s : State) (lun : Nat) : FlashReach s (polled s lun) := emit_reach s _

section Poll
variable {s : State} {lun : Nat} {f : NandFlight} (hflight : look s.flash.inFlight lun = some f) (hdone : f.done = false)
include hflight hdone

theorem statusPoll_read (hread : f.isUpdate = false) : statusPoll s lun .ready = readReady (polled s lun) lun f := by
  simp [statusPoll, hflight, hdone, hread, polled]

theorem statusPoll_update (hupdate : f.isUpdate = true) :
    statusPoll s lun .ready = updateEnded (f.parts.foldl nandEffect (setFlight (polled s lun) lun none)) lun := by
  simp [statusPoll, hflight, hdone, hupdate, polled]

theorem statusPoll_failed (hupdate : f.isUpdate = true) (which : List Nat) :
    statusPoll s lun (.failed which) = updateParts (polled s lun) lun f which := by
  simp [statusPoll, hflight, hdone, hupdate, polled]

end Poll

/-- The state with a page read on a LUN that may transfer, and more outputs. -/
def transferring (s : State) (lun : Nat) (f : NandFlight) (outs : List Out) : State :=
  { setFlight s lun (some { f with done := true }) with outs }

theorem transferring_reach (s : State) (lun : Nat) (f : NandFlight) (outs : List Out) : FlashReach s (transferring s lun f outs) := ⟨rfl⟩

/-- What a scan sends to the host: of each block whether it is on the bad-block list, or shows the mark (07 R159). -/
def scanBytes (s : State) (marks : List Bool) (b : Nat) : List Byte :=
  (upto marks.length).map (fun i => if s.nor.badBlocks.contains (b + i) then 2#8 else if marks.getD i false then 1#8 else 0#8)

theorem length_scanBytes (s : State) (marks : List Bool) (b : Nat) : (scanBytes s marks b).length = marks.length := by
  rw [scanBytes, List.length_map, upto_eq_range, List.length_range]

theorem getD_scanBytes (s : State) {marks : List Bool} (b : Nat) {i : Nat} (hi : i < marks.length) : (scanBytes s marks b).getD i 9#8 =
    if s.nor.badBlocks.contains (b + i) then 2#8 else if marks.getD i false then 1#8 else 0#8 := by
  rw [scanBytes, upto_eq_range, List.getD_eq_getElem?_getD, List.getElem?_map, List.getElem?_range hi]
  rfl

/-- The job of a facet ticks off the pages of a page read that its scan waits for; with the last of them the scan's bytes go to the host
(07 R159). -/
def scanTick (s : State) (fct : Nat) (f : NandFlight) : State :=
  match look s.flash.jobs fct with
  | some j => match j.work with
    | .scan left marks a b =>
      let left := left.filter (fun p => !f.parts.any (fun c => c.op == .read p 0 0))
      if left.isEmpty then jobFlush (setJob s fct { j with work := .write a (scanBytes s marks b) }) fct
      else setJob s fct { j with work := .scan left marks a b }
    | _ => s
  | none => s

/-- A page read that is ready may transfer, its codewords are selected, and a scan goes on. -/
theorem readReady_eq (s : State) (lun : Nat) (f : NandFlight) :
    ∃ outs, readReady s lun f = releaseLun (scanTick (transferring s lun f outs) (lun / 128) f) lun := by
  unfold readReady
  extract_lets u wants v fct w
  obtain ⟨outs, hselect⟩ := selectCw_foldl wants.eraseDups u lun
  have hv : v = transferring s lun f outs := hselect
  refine ⟨outs, congrArg (releaseLun · lun) ?_⟩
  rw [← hv]
  rfl

theorem scanTick_plain {s : State} {fct : Nat} (f : NandFlight)
    (hscan : ∀ j, look s.flash.jobs fct = some j → ∀ ps ms a b, j.work ≠ .scan ps ms a b) : scanTick s fct f = s := by
  unfold scanTick
  split
  · next j hjob =>
    split
    · next ps ms a b hwork => exact absurd hwork (hscan j hjob ps ms a b)
    · rfl
  · rfl

theorem scanTick_last {s : State} {fct : Nat} {f : NandFlight} {j : FlashJob} {left : List Nat} {marks : List Bool} {a b : Nat}
    (hjob : look s.flash.jobs fct = some j) (hwork : j.work = .scan left marks a b)
    (hleft : ∀ p ∈ left, f.parts.any (fun c => c.op == .read p 0 0) = true) :
    scanTick s fct f = jobFlush (setJob s fct { j with work := .write a (scanBytes s marks b) }) fct := by
  have hempty : left.filter (fun p => !f.parts.any (fun c => c.op == .read p 0 0)) = [] :=
    List.filter_eq_nil_iff.mpr fun p hp => by simp [hleft p hp]
  simp only [scanTick, hjob, hwork, hempty]
  rfl

/-- A page read that a read waits for, and no scan, may transfer, and keeps its LUN. -/
theorem statusPoll_transfers {s : State} {lun : Nat} {f : NandFlight} (hflight : look s.flash.inFlight lun = some f)
    (hdone : f.done = false) (hread : f.isUpdate = false)
    (hwanted : s.flash.reads.any (fun p => f.parts.any (fun c => c.num == p.2.waits)) = true)
    (hscan : ∀ j, look s.flash.jobs (lun / 128) = some j → ∀ ps ms a b, j.work ≠ .scan ps ms a b) :
    look (statusPoll s lun .ready).flash.inFlight lun = some { f with done := true } ∧
    (statusPoll s lun .ready).flash.reads = s.flash.reads ∧
    ({ statusPoll s lun .ready with flash := s.flash, outs := s.outs } : State) = s := by
  obtain ⟨outs, hready⟩ := readReady_eq (polled s lun) lun f
  have hflying : look (transferring (polled s lun) lun f outs).flash.inFlight lun = some { f with done := true } := look_place_same _ _ _
  rw [statusPoll_read hflight hdone hread, hready, scanTick_plain (s := transferring (polled s lun) lun f outs) f hscan,
    releaseLun_wanted hflying hwanted]
  exact ⟨hflying, rfl, ((polled_reach s lun).trans (transferring_reach _ lun f outs)).frame⟩

/-! ## A scan's last page (07 R159) -/

theorem regGet_jobStatus (s : State) (f st reason entry : Nat) : regGet (jobStatus s f st reason entry) (fKey f 0x30110) =
    BitVec.ofNat 32 (st * 2 ^ 28 + reason * 2 ^ 24 + entry % 2 ^ 16) := regGet_regSet_same _ _ _

theorem jobAsk_flash (s : State) (f : Nat) : (jobAsk s f).flash = s.flash := by
  obtain ⟨_, _, _, h⟩ := jobAsk_eq s f
  rw [h]

theorem hostSend_flash (s : State) (fn : FnId) (a : Nat) (d : List Byte) : (hostSend s fn a d).flash = s.flash := by
  obtain ⟨_, _, h, -⟩ := hostSend_eq s fn a d
  rw [h]

/-- A job that nothing stops goes to its next entry, or is done and shows so. -/
theorem entryDone_goesOn {s : State} {f : Nat} {j : FlashJob} (hjob : look s.flash.jobs f = some j) (hafter : j.after = 0) :
    if j.entry + 1 < j.count then look (entryDone s f).flash.jobs f = some { j with entry := j.entry + 1, work := .fetch }
    else look (entryDone s f).flash.jobs f = none ∧
      regGet (entryDone s f) (fKey f 0x30110) = BitVec.ofNat 32 (2 * 2 ^ 28 + (j.entry + 1) % 2 ^ 16) := by
  split
  · next hmore =>
    rw [entryDone_next hjob hafter hmore, jobAsk_flash]
    exact look_place_same _ _ _
  · next hlast =>
    rw [entryDone_last hjob hafter hlast, regGet_jobStatus]
    exact ⟨look_remove_same _ _, by rw [Nat.zero_mul, Nat.add_zero]⟩

/-- The bytes of a job leave for the host as its entry ends. -/
theorem jobFlush_setJob {s : State} {f : Nat} {j : FlashJob} {a : Nat} {d : List Byte} (hafter : j.after = 0)
    (hopen : dmaOpen s ⟨j.port, 0⟩ = true) :
    (∀ x ∈ hostParts (maxPayload s j.port) a d.length, .hostWrite ⟨j.port, 0⟩ (pasidOf s ⟨j.port, 0⟩) x.1 (slice d (x.1 - a) x.2) ∈
      (jobFlush (setJob s f { j with work := .write a d }) f).outs) ∧
    (if j.entry + 1 < j.count then
      look (jobFlush (setJob s f { j with work := .write a d }) f).flash.jobs f = some { j with entry := j.entry + 1, work := .fetch }
    else look (jobFlush (setJob s f { j with work := .write a d }) f).flash.jobs f = none ∧
      regGet (jobFlush (setJob s f { j with work := .write a d }) f) (fKey f 0x30110) =
        BitVec.ofNat 32 (2 * 2 ^ 28 + (j.entry + 1) % 2 ^ 16)) := by
  have hjob : look (setJob s f { j with work := .write a d }).flash.jobs f = some { j with work := .write a d } := look_place_same _ _ _
  refine ⟨fun x hx => jobFlush_sends hjob rfl hopen hx, ?_⟩
  rw [jobFlush_open hjob rfl hopen]
  exact entryDone_goesOn (j := { j with work := .write a d }) (by rw [hostSend_flash]; exact hjob) hafter

/-- The last page of a scan: its bytes leave for the host, and its entry has ended. -/
theorem statusPoll_scanLast {s : State} {lun : Nat} {f : NandFlight} {j : FlashJob} {left : List Nat} {marks : List Bool} {a b : Nat}
    (hflight : look s.flash.inFlight lun = some f) (hdone : f.done = false) (hread : f.isUpdate = false)
    (hjob : look s.flash.jobs (lun / 128) = some j) (hwork : j.work = .scan left marks a b) (hafter : j.after = 0)
    (hleft : ∀ p ∈ left, f.parts.any (fun c => c.op == .read p 0 0) = true) (hopen : dmaOpen s ⟨j.port, 0⟩ = true) :
    (∀ x ∈ hostParts (maxPayload s j.port) a (scanBytes s marks b).length,
      .hostWrite ⟨j.port, 0⟩ (pasidOf s ⟨j.port, 0⟩) x.1 (slice (scanBytes s marks b) (x.1 - a) x.2) ∈ (statusPoll s lun .ready).outs) ∧
    (if j.entry + 1 < j.count then
      look (statusPoll s lun .ready).flash.jobs (lun / 128) = some { j with entry := j.entry + 1, work := .fetch }
    else look (statusPoll s lun .ready).flash.jobs (lun / 128) = none ∧
      regGet (statusPoll s lun .ready) (fKey (lun / 128) 0x30110) = BitVec.ofNat 32 (2 * 2 ^ 28 + (j.entry + 1) % 2 ^ 16)) := by
  obtain ⟨outs, hready⟩ := readReady_eq (polled s lun) lun f
  rw [scanTick_last (s := transferring (polled s lun) lun f outs) hjob hwork hleft] at hready
  have hflush := jobFlush_setJob (s := transferring (polled s lun) lun f outs) (f := lun / 128) (a := a) (d := scanBytes s marks b)
    hafter hopen
  obtain ⟨inFlight, hrelease⟩ := releaseLun_eq (jobFlush (setJob (transferring (polled s lun) lun f outs) (lun / 128)
    { j with work := .write a (scanBytes s marks b) }) (lun / 128)) lun
  rw [statusPoll_read hflight hdone hread, hready]
  exact hrelease ▸ hflush

/-! ## Updates that end (07 R142, R160, R161) -/

theorem updateEnded_noJob {s : State} {lun : Nat} (hjob : look s.flash.jobs (lun / 128) = none) : updateEnded s lun = s := by
  rw [updateEnded, hjob]

theorem isUpdate_single {f : NandFlight} {c : NandCmd} (hparts : f.parts = [c]) : f.isUpdate = c.op.isUpdate := by
  rw [NandFlight.isUpdate, hparts, List.any_cons, List.any_nil, Bool.or_false]

theorem look_erasePages (m : KMap PageData) (b p : Nat) : look (erasePages m b) p = if p / 2 ^ 12 = b then none else look m p := by
  rw [erasePages, look_filter_keys m (fun q => q / 2 ^ 12 != b) p]
  simp

theorem look_nandBroken_erase (m : KMap PageData) (b p : Nat) :
    look (nandBroken m (.erase b)) p = if p / 4096 = b then (look m p).map (fun _ => .undef) else look m p := by
  rw [nandBroken, look_map_values (fun q => by split <;> rfl)]
  by_cases h : p / 4096 = b <;> simp [h]

section Update
variable {s : State} {lun : Nat} {f : NandFlight} {c : NandCmd} (hflight : look s.flash.inFlight lun = some f) (hdone : f.done = false)
  (hparts : f.parts = [c]) (hjob : look s.flash.jobs (lun / 128) = none)
include hflight hdone hparts hjob

/-- One update that is ready has its effect, on a facet without a job. -/
theorem statusPoll_updated (hupdate : c.op.isUpdate = true)
    (heffect : (nandEffect (setFlight (polled s lun) lun none) c).flash.jobs = s.flash.jobs) :
    statusPoll s lun .ready = nandEffect (setFlight (polled s lun) lun none) c := by
  rw [statusPoll_update hflight hdone ((isUpdate_single hparts).trans hupdate), hparts]
  exact updateEnded_noJob (by rw [List.foldl_cons, List.foldl_nil, heffect]; exact hjob)

theorem statusPoll_erased {b : Nat} (hop : c.op = .erase b) :
    look (statusPoll s lun .ready).flash.inFlight lun = none ∧ b ∈ (statusPoll s lun .ready).flash.erased ∧
    (∀ p, p / 2 ^ 12 = b → look (statusPoll s lun .ready).flash.pages p = none) ∧
    (∀ p, p / 2 ^ 12 ≠ b → look (statusPoll s lun .ready).flash.pages p = look s.flash.pages p) ∧
    ({ statusPoll s lun .ready with flash := s.flash, outs := s.outs } : State) = s := by
  have heffect : nandEffect (setFlight (polled s lun) lun none) c = { setFlight (polled s lun) lun none with
      flash := { (setFlight (polled s lun) lun none).flash with
        pages := erasePages s.flash.pages b
        erased := if s.flash.erased.contains b then s.flash.erased else s.flash.erased ++ [b] } } := by
    rw [nandEffect, hop]
    rfl
  rw [statusPoll_updated hflight hdone hparts hjob (by rw [hop]; rfl) (by rw [heffect]; rfl), heffect]
  refine ⟨look_remove_same _ _, ?_, fun p hp => (look_erasePages _ b p).trans (if_pos hp),
    fun p hp => (look_erasePages _ b p).trans (if_neg hp), rfl⟩
  dsimp only
  split
  · next hlisted => exact List.contains_iff_mem.mp hlisted
  · exact List.mem_append_right _ (List.mem_singleton_self b)

theorem statusPoll_programmed {p : Nat} (hop : c.op = .program p) (hbreaks : programBreaks s p = false) :
    look (statusPoll s lun .ready).flash.inFlight lun = none ∧
    look (statusPoll s lun .ready).flash.pages p = some (.data c.data) ∧
    (∀ q, q ≠ p → look (statusPoll s lun .ready).flash.pages q = look s.flash.pages q) ∧
    ({ statusPoll s lun .ready with flash := s.flash, outs := s.outs } : State) = s := by
  have hsound : programBreaks (setFlight (polled s lun) lun none) p = false := hbreaks
  have heffect : nandEffect (setFlight (polled s lun) lun none) c = { setFlight (polled s lun) lun none with
      flash := { (setFlight (polled s lun) lun none).flash with pages := place s.flash.pages p (.data c.data) } } := by
    rw [nandEffect, hop]
    simp only [hsound]
    rfl
  rw [statusPoll_updated hflight hdone hparts hjob (by rw [hop]; rfl) (by rw [heffect]; rfl), heffect]
  exact ⟨look_remove_same _ _, look_place_same _ _ _, fun q hq => look_place_ne _ _ _ _ (Ne.symm hq), rfl⟩

end Update

/-- The state with the pages of a failed erase undefined and its block on the grown bad-block list. -/
def blockFailed (s : State) (b : Nat) : State :=
  norKeep { s with flash := { s.flash with pages := nandBroken s.flash.pages (.erase b) } }
    { s.nor with badBlocks := s.nor.badBlocks ++ [b] }

/-- An erase that fails puts its block on the grown bad-block list while there is room, and tells the owner (07 R161). -/
theorem updateFailed_erase {s : State} {lun b : Nat} (hroom : s.nor.badBlocks.length < 4096) (hnew : s.nor.badBlocks.contains b = false)
    (hjob : look s.flash.jobs (lun / 128) = none) : updateFailed s lun (.erase b) =
      raise (blockFailed s b) 0 .flashBlockBad 3 (lun / 128) 0xFF (b * 2 ^ 22 + 1 * 2 ^ 56) := by
  unfold updateFailed
  extract_lets block fct full _ broken _ _ listed
  have hfull : full = false := by simp [full, hroom]
  have hlisted : listed = blockFailed s b :=
    (if_neg (by rw [show broken.nor.badBlocks.contains block = false from hnew]; exact Bool.false_ne_true)).trans
      (if_neg (by rw [hfull]; exact Bool.false_ne_true))
  have hjobs : ∀ d, (raise (blockFailed s b) 0 .flashBlockBad 3 fct 0xFF d).flash.jobs = s.flash.jobs := fun d => by
    rw [raise_flash]
    rfl
  dsimp only
  rw [hlisted, hjobs, hjob]
  rfl

/-- The parts of an operation of one part end as that part does. -/
theorem updateParts_single {f : NandFlight} {c : NandCmd} (hparts : f.parts = [c]) (s : State) (lun : Nat) (which : List Nat) :
    updateParts s lun f which = updateEnded (updateFailed (setFlight s lun none) lun c.op) lun := by
  simp [updateParts, hparts, upto, rangeFrom]

section FailedErase
variable {s : State} {lun b : Nat} {f : NandFlight} {c : NandCmd} (hflight : look s.flash.inFlight lun = some f) (hdone : f.done = false)
  (hparts : f.parts = [c]) (hop : c.op = .erase b) (hjob : look s.flash.jobs (lun / 128) = none)
  (hroom : s.nor.badBlocks.length < 4096) (hnew : s.nor.badBlocks.contains b = false)
include hflight hdone hparts hop hjob hroom hnew

theorem statusPoll_eraseFailed (which : List Nat) : statusPoll s lun (.failed which) =
    raise (blockFailed (setFlight (polled s lun) lun none) b) 0 .flashBlockBad 3 (lun / 128) 0xFF (b * 2 ^ 22 + 1 * 2 ^ 56) := by
  rw [statusPoll_failed hflight hdone ((isUpdate_single hparts).trans (by rw [hop]; rfl)), updateParts_single hparts, hop,
    updateFailed_erase (s := setFlight (polled s lun) lun none) hroom hnew hjob]
  exact updateEnded_noJob (by rw [raise_flash]; exact hjob)

theorem statusPoll_eraseFailed_spec (which : List Nat) :
    look (statusPoll s lun (.failed which)).flash.inFlight lun = none ∧
    (statusPoll s lun (.failed which)).nor.badBlocks = s.nor.badBlocks ++ [b] ∧
    (∀ p, p / 4096 ≠ b → look (statusPoll s lun (.failed which)).flash.pages p = look s.flash.pages p) ∧
    (∀ p, p / 4096 = b →
      look (statusPoll s lun (.failed which)).flash.pages p = (look s.flash.pages p).map (fun _ => .undef)) ∧
    (statusPoll s lun (.failed which)).regs = s.regs ∧ (statusPoll s lun (.failed which)).mem = s.mem := by
  rw [statusPoll_eraseFailed hflight hdone hparts hop hjob hroom hnew which, raise_flash, raise_nor, raise_regs, raise_mem]
  exact ⟨look_remove_same _ _, rfl, fun p hp => (look_nandBroken_erase _ b p).trans (if_neg hp),
    fun p hp => (look_nandBroken_erase _ b p).trans (if_pos hp), rfl, rfl⟩

end FailedErase

/-! ## Timeouts (07 R142) -/

/-- The first timeout of an operation resets its target and repeats the operation. -/
theorem nandTimeout_first {s : State} {lun : Nat} {f : NandFlight} (hflight : look s.flash.inFlight lun = some f) (hdone : f.done = false)
    (hfirst : f.retried = false) : nandTimeout s lun =
      emit (emit (setFlight s lun (some { f with retried := true })) (.nandReset lun)) (.nand lun (f.parts.map (·.op))) := by
  simp [nandTimeout, hflight, hdone, hfirst]

theorem nandTimeout_repeats {s : State} {lun : Nat} {f : NandFlight} (hflight : look s.flash.inFlight lun = some f)
    (hdone : f.done = false) (hfirst : f.retried = false) :
    look (nandTimeout s lun).flash.inFlight lun = some { f with retried := true } ∧
    (nandTimeout s lun).outs = s.outs ++ [.nandReset lun, .nand lun (f.parts.map (·.op))] ∧
    ({ nandTimeout s lun with flash := s.flash, outs := s.outs } : State) = s := by
  rw [nandTimeout_first hflight hdone hfirst]
  rw [emit_flash, emit_flash, look_setFlight_same, emit_outs, emit_outs, setFlight_outs, List.append_assoc]
  exact ⟨rfl, rfl, ((setFlight_reach s lun _).trans ((emit_reach _ _).trans (emit_reach _ _))).frame⟩

theorem nandTimeout_second {s : State} {lun : Nat} {f : NandFlight} (hflight : look s.flash.inFlight lun = some f) (hdone : f.done = false)
    (hsecond : f.retried = true) : nandTimeout s lun = targetLost s lun := by
  simp [nandTimeout, hflight, hdone, hsecond]

/-! ## A target taken offline (07 R142; 06 R131) -/

theorem fenceEvents_regs (s : State) (kind n cause : Nat) : (fenceEvents s kind n cause).regs = s.regs :=
  (foldl_keeps State.regs _ (fun _ _ => raise_regs _ _ _ _ _ _ _) _ _).trans (raise_regs _ _ _ _ _ _ _)

theorem isFenced_target (s : State) (tgt : Nat) : isFenced s 7 tgt = targetOff s tgt := by
  simp [isFenced, unitBits, targetOff]

/-- A target that is not offline yet: its bit is set, what ran on it ends, and the fence is told. -/
theorem markFenced_target {s : State} {tgt : Nat} (hon : targetOff s tgt = false) (cause : Nat) :
    markFenced s 7 tgt cause = fenceEvents (flashLost (regSet s (fKey (tgt / 32) 0x30020)
      (setBit (regGet s (fKey (tgt / 32) 0x30020)) (tgt % 32) true)) (tgt / 32)) 7 tgt cause := by
  have hfenced : ¬ isFenced s 7 tgt = true := by
    rw [isFenced_target, hon]
    exact Bool.false_ne_true
  rw [markFenced, if_neg hfenced]
  exact if_pos ⟨by decide, by decide⟩

/-- No register of the flash controllers but FLS_JOB_STATUS and the target's own changes. -/
theorem regGet_markFenced_target {s : State} {tgt : Nat} (hon : targetOff s tgt = false) (cause : Nat) {k : Nat}
    (hk : NoJobStatus k) : regGet (markFenced s 7 tgt cause) k =
      if fKey (tgt / 32) 0x30020 = k then setBit (regGet s (fKey (tgt / 32) 0x30020)) (tgt % 32) true else regGet s k := by
  rw [markFenced_target hon, regGet, fenceEvents_regs]
  exact ((flashLost_reach _ _).regs k hk).trans (regGet_regSet s _ k _)

theorem bitOf_setBit_ne {k : Nat} (w : BitVec k) {i j : Nat} (b : Bool) (hj : j < k) (h : j ≠ i) : bitOf (setBit w i b) j = bitOf w j := by
  rw [bitOf, setBit_getLsbD w i j b hj, if_neg h, bitOf]

/-- A target is offline once it is lost, and no other is that was not. -/
theorem targetOff_markFenced (s : State) (tgt cause x : Nat) :
    targetOff (markFenced s 7 tgt cause) x = (decide (x = tgt) || targetOff s x) := by
  cases hon : targetOff s tgt with
  | true =>
    rw [markFenced, if_pos ((isFenced_target s tgt).trans hon)]
    by_cases hx : x = tgt <;> simp [hx, hon]
  | false =>
    have hreg := regGet_markFenced_target hon cause (k := fKey (x / 32) 0x30020) fun f => by unfold fKey facetBase; omega
    rw [targetOff, hreg]
    by_cases hsame : fKey (tgt / 32) 0x30020 = fKey (x / 32) 0x30020
    · have hword : x / 32 = tgt / 32 := by unfold fKey facetBase at hsame; omega
      rw [if_pos hsame]
      by_cases hx : x = tgt
      · simp [hx, Nat.mod_lt]
      · rw [bitOf_setBit_ne _ _ (Nat.mod_lt _ (by omega)) (by omega), decide_eq_false hx, Bool.false_or, targetOff, hword]
    · have hx : x ≠ tgt := fun h => hsame (by rw [h])
      rw [if_neg hsame, decide_eq_false hx, Bool.false_or, targetOff]

theorem chCfg_markFenced (s : State) (tgt cause c : Nat) : chCfg (markFenced s 7 tgt cause) c = chCfg s c := by
  cases hon : targetOff s tgt with
  | true => rw [markFenced, if_pos ((isFenced_target s tgt).trans hon)]
  | false =>
    refine (regGet_markFenced_target hon cause fun f => ?_).trans (if_neg ?_)
    all_goals
      unfold fKey facetBase
      omega

theorem mem_grantClasses {p : Nat × Nat} : ∀ {n : Nat} {ws : List (Nat × Word)} {cls avail : Nat}, p ∈ grantClasses ws n cls avail →
    ∃ w ∈ ws, w.1 = p.1
  | 0, _, _, _, h => absurd h List.not_mem_nil
  | n + 1, ws, cls, avail, h => by
    have hmine : ∀ (v : Nat × Word → Nat) m, p ∈ ((ws.filter (fun q => fld q.2 16 2 == cls)).map (fun q => (q.1, v q)) ++
        grantClasses ws n (cls + 1) m) → ∃ w ∈ ws, w.1 = p.1 := by
      intro v m hp
      rcases List.mem_append.mp hp with hp | hp
      · obtain ⟨w, hw, rfl⟩ := List.mem_map.mp hp
        exact ⟨w, (List.mem_filter.mp hw).1, rfl⟩
      · exact mem_grantClasses hp
    rw [grantClasses] at h
    split at h
    · exact hmine _ _ h
    · exact hmine _ _ h

/-- A grant is one of the owner's or of a tenant's. -/
theorem resvList_lt {s : State} {f : Nat} {tier : Tier} {w : Nat × Word} (hw : w ∈ resvList s f tier) : w.1 < 65 := by
  obtain ⟨t, ht, rfl⟩ := List.mem_map.mp (List.mem_filter.mp hw).1
  exact (mem_upto 65 t).mp ht

/-- A register that is neither a capacity nor a grant. -/
def NoGrant (k : Nat) : Prop := (∀ f tier, fKey f (0x20030 + 4 * tierCode tier) ≠ k) ∧ ∀ i, i < 2080 → grantKey i ≠ k

theorem regGet_evalTier {k : Nat} (hk : NoGrant k) (periodic : Bool) (s : State) {f : Nat} (hf : f < 8) (tier : Tier) :
    regGet (evalTier periodic s f tier) k = regGet s k := by
  unfold evalTier
  refine List.foldlRecOn (motive := fun u => regGet u k = regGet s k) _ _ (regGet_regSet_ne _ _ _ _ (hk.1 f tier)) fun u hu p hp => ?_
  obtain ⟨w, hw, ht⟩ := mem_grantClasses hp
  have hlt := resvList_lt hw
  have htier : tierCode tier < 4 := by cases tier <;> decide
  rw [grantValue_view (fun s => regGet s k) fun s t c b f n d => by simp only [regGet, raise_regs], withGrant, ← hu]
  exact regGet_regSet_ne _ _ _ _ (hk.2 _ (by unfold resvIndex; omega))

theorem regGet_evalNow {k : Nat} (hk : NoGrant k) (s : State) : regGet (evalNow s) k = regGet s k := by
  unfold evalNow
  refine List.foldlRecOn (motive := fun u => regGet u k = regGet s k) _ _ rfl fun u hu f hf => ?_
  exact (foldl_keeps (fun u => regGet u k) _ (fun v tier => regGet_evalTier hk false v ((mem_upto 8 f).mp hf) tier) tiers u).trans hu

theorem noGrant_targetOff {tgt : Nat} : NoGrant (fKey (tgt / 32) 0x30020) := by
  refine ⟨fun f tier => ?_, fun i hi => ?_⟩
  · have htier : tierCode tier < 4 := by cases tier <;> decide
    unfold fKey facetBase
    omega
  · unfold grantKey fKey facetBase
    omega

theorem targetOff_evalNow (s : State) (tgt : Nat) : targetOff (evalNow s) tgt = targetOff s tgt := by
  rw [targetOff, regGet_evalNow noGrant_targetOff, targetOff]

/-- A lost target of a channel that keeps another, present and not offline, goes alone. -/
theorem targetLost_alone {s : State} {lun e : Nat} (he : e < 8) (hpresent : bitOf (chCfg s (lun / 32)) (24 + e) = true)
    (hother : 8 * (lun / 32) + e ≠ lun / 4) (hon : targetOff s (8 * (lun / 32) + e) = false) :
    targetLost s lun = evalNow (markFenced s 7 (lun / 4) 7) := by
  unfold targetLost
  refine if_neg fun hall => ?_
  have hgone := List.all_eq_true.mp hall e ((mem_upto 8 e).mpr he)
  rw [chCfg_markFenced, targetOff_markFenced, hpresent, hon, decide_eq_false hother] at hgone
  exact Bool.false_ne_true hgone

theorem nandTimeout_targetLost {s : State} {lun e : Nat} {f : NandFlight} (hflight : look s.flash.inFlight lun = some f)
    (hdone : f.done = false) (hsecond : f.retried = true) (he : e < 8) (hpresent : bitOf (chCfg s (lun / 32)) (24 + e) = true)
    (hother : 8 * (lun / 32) + e ≠ lun / 4) (hon : targetOff s (8 * (lun / 32) + e) = false) :
    targetOff (nandTimeout s lun) (lun / 4) = true ∧ lunLive (nandTimeout s lun) lun = false ∧
      targetOff (nandTimeout s lun) (8 * (lun / 32) + e) = false := by
  have hoff : ∀ x, targetOff (nandTimeout s lun) x = (decide (x = lun / 4) || targetOff s x) := fun x => by
    rw [nandTimeout_second hflight hdone hsecond, targetLost_alone he hpresent hother hon, targetOff_evalNow, targetOff_markFenced]
  have hself : targetOff (nandTimeout s lun) (lun / 4) = true := by rw [hoff, decide_eq_true rfl, Bool.true_or]
  exact ⟨hself, by rw [lunLive, hself, Bool.not_true, Bool.and_false], by rw [hoff, hon, decide_eq_false hother, Bool.or_false]⟩

end Sys2Proof.Machine
end

section
/-! Proof of the flash read commands' statement (O40), after its decoding (07 R147, R150 to R153). -/
namespace Sys2Proof.Machine

/-! ## Decoding -/

/-- A read once the last bytes asked of it have come, from a codeword without a poisoned byte. -/
def delivered (r : ExtentRead) (cw : List Byte) : ExtentRead :=
  { r with cw := r.cw + 1, off := 0, left := 0, level := 0, soft := 0, data := r.data ++ slice cw r.off r.left }

theorem length_slice {α : Type} (l : List α) {off n : Nat} (h : off + n ≤ l.length) : (slice l off n).length = n := by
  rw [slice, List.length_take, List.length_drop]
  omega

theorem flashPoison_clean (s : State) (t fca : Nat) (last : Option Nat) : flashPoison s t fca [] last = (s, last) := rfl

theorem fabricMeets_sound (s : State) (f : Nat) (isFca : Bool) (addr : Nat → Nat) (tn : Option Nat) :
    fabricMeets s f ⟨[], 0, []⟩ [] isFca addr tn = s := rfl

/-- The last codeword of a read, clean and carried whole, ends it. -/
theorem deliverCw_last {s : State} {id g : Nat} {r : ExtentRead} {cw : List Byte} {bad : Nat → Nat → List (Nat × Nat)}
    (hclean : ∀ off n, bad off n = []) (hlevel : r.level = 0) (hsoft : r.soft = 0) (hfits : r.off + r.left ≤ 4096)
    (hlong : 4096 ≤ cw.length) :
    deliverCw s id r (g, ⟨[], 0, []⟩) cw bad = releaseLun (endRead s id (delivered r cw) none) (r.op s).lun := by
  have hall : min r.left (4096 - r.off) = r.left := by omega
  have hlen : (slice cw r.off r.left).length = r.left := length_slice cw (by omega)
  have hcode : (r.op s).levelCode = 0 := by simp [ExtentRead.op, NandOp.levelCode, hlevel, hsoft]
  simp only [deliverCw, hall, hlen, hclean, hcode, List.map_nil, List.filterMap_nil, List.flatMap_nil, List.filter_nil, flashPoison_clean,
    fabricMeets_sound, Nat.sub_self, List.replicate_zero, List.append_nil, if_true, delivered]

/-- The counts of a codeword that decoded at the default level without a poisoned sector. -/
def countedCw (s : State) (fct : Nat) : State := bump (bump s (fKey fct 0x30030) 0 32 1) (fKey fct 0x3003C) 0 16 0

section Decode
variable {s : State} {id g : Nat} {cw : List Byte} {r : ExtentRead} (hread : look s.flash.reads id = some r)
  (htransfers : transfers s (r.op s).lun r.waits = true) (hsource : cwSource s (r.fca s) = .shown) (hlen : cw.length = 4648)
  (hzeros : 64 ≤ zeroBits cw) (hlevel : r.level = 0) (hsoft : r.soft = 0) (haddr : rdLe cw 4128 6 = r.fca s)
  (hfits : r.off + r.left ≤ 4096) (hgood : badSectors cw r.off r.left = [])

section
include hread htransfers hsource hzeros hsoft

theorem codewordDecode_shown (fab : Nat × FabricSeen) : codewordDecode s id true fab cw = decoded s id r fab cw := by
  have hwritten : ¬ zeroBits cw < 64 := by omega
  simp [codewordDecode, hread, htransfers, hsource, hwritten, hsoft]

end

/-- The counts of decoded codewords are no part of a channel's configuration. -/
theorem fca_bump (s : State) {o : Nat} (ho : o = 0x30030 ∨ o = 0x3003C) (fct lo n d : Nat) (r : ExtentRead) :
    r.fca (bump s (fKey fct o) lo n d) = r.fca s := by
  have hcfg : ∀ c, chCfg (bump s (fKey fct o) lo n d) c = chCfg s c := fun c =>
    regGet_bump_ne _ _ _ _ _ _ (by unfold fKey facetBase; omega)
  rw [ExtentRead.fca, ExtentRead.fca, cwPer, cwPer, hcfg]

include hlen hlevel hsoft haddr hfits hgood

/-- A clean codeword of its own address is counted and delivered; as the read's last one it ends it. -/
theorem decoded_last : decoded s id r (g, ⟨[], 0, []⟩) cw =
    releaseLun (endRead (countedCw s (fcaFacet (r.fca s))) id (delivered r cw) none)
      (r.op (countedCw s (fcaFacet (r.fca s)))).lun := by
  have hall : min r.left (4096 - r.off) = r.left := by omega
  have hfca := fca_bump s (.inl rfl) (fcaFacet (r.fca s)) 0 32 1 r
  have hdefault : ¬ 1 ≤ 0 := by omega
  simp only [decoded, hsoft, hlevel, hfca, haddr, hall, hgood, ne_eq, not_true_eq_false, decide_false, Bool.false_eq_true, if_false,
    if_true, hdefault, false_and, or_self, List.length_nil, List.map_nil]
  exact deliverCw_last (fun _ _ => rfl) hlevel hsoft hfits (by omega)

end Decode

theorem bump_eq (s : State) (k lo n d : Nat) : ∃ regs, bump s k lo n d = { s with regs } := ⟨_, rfl⟩

/-- Counting a codeword changes registers alone. -/
theorem countedCw_eq (s : State) (fct : Nat) : ∃ regs, countedCw s fct = { s with regs } := by
  obtain ⟨regs, h⟩ := bump_eq s (fKey fct 0x30030) 0 32 1
  rw [countedCw, h]
  exact bump_eq _ _ _ _ _

theorem countedCw_flash (s : State) (fct : Nat) : (countedCw s fct).flash = s.flash := by
  obtain ⟨_, h⟩ := countedCw_eq s fct
  rw [h]

theorem portOf_countedCw (s : State) (fct p : Nat) : portOf (countedCw s fct) p = portOf s p := by
  obtain ⟨_, h⟩ := countedCw_eq s fct
  rw [h]
  rfl

theorem funcOf_countedCw (s : State) (fct : Nat) (fn : FnId) : funcOf (countedCw s fct) fn = funcOf s fn := by
  obtain ⟨_, h⟩ := countedCw_eq s fct
  rw [h]
  rfl

theorem regFld_countedCw (s : State) (fct : Nat) :
    regFld (countedCw s fct) (fKey fct 0x30030) 0 32 = min (regFld s (fKey fct 0x30030) 0 32 + 1) (2 ^ 32 - 1) := by
  rw [countedCw, regFld, regGet_bump_ne _ _ _ _ _ _ (by unfold fKey facetBase; omega)]
  exact regFld_bump_same s _ 0 32 1 (by omega)

/-- The counts of a codeword are none of a port's registers. -/
theorem regGet_countedCw (s : State) (fct : Nat) {k : Nat} (hdecoded : fKey fct 0x30030 ≠ k) (hbad : fKey fct 0x3003C ≠ k) :
    regGet (countedCw s fct) k = regGet s k :=
  (regGet_bump_ne _ _ _ _ _ _ hbad).trans (regGet_bump_ne _ _ _ _ _ _ hdecoded)

theorem pasidOf_countedCw (s : State) (fct p : Nat) : pasidOf (countedCw s fct) ⟨p, 0⟩ = pasidOf s ⟨p, 0⟩ := by
  have hreg := regGet_countedCw s fct (k := fKey (portFacet p) (0xC0100 + 4 * 0)) (by unfold fKey facetBase; omega)
    (by unfold fKey facetBase; omega)
  rw [pasidOf, pasidOf, regFld, regFld, hreg, portOf_countedCw]

theorem dmaOpen_countedCw (s : State) (fct p : Nat) : dmaOpen (countedCw s fct) ⟨p, 0⟩ = dmaOpen s ⟨p, 0⟩ := by
  have hreg := regGet_countedCw s fct (k := fKey (portFacet p) 0xF0104) (by unfold fKey facetBase; omega)
    (by unfold fKey facetBase; omega)
  rw [dmaOpen, dmaOpen, linkOpen, linkOpen, hostLive, hostLive, fenceB, fenceB, hreg, portOf_countedCw, funcOf_countedCw]

/-- A job's read that ends well: its bytes leave for the host while the job's port carries traffic (07 R159). -/
theorem endRead_job_sends {s : State} {id f a : Nat} {j : FlashJob} {r : ExtentRead} (hreader : r.reader = jobReader f)
    (hjob : look s.flash.jobs f = some j) (hwork : j.work = .reading a) (hopen : dmaOpen s ⟨j.port, 0⟩ = true) {x : Nat × Nat}
    (hx : x ∈ hostParts (maxPayload s j.port) a (jobBytes r.data r.bad).length) :
    .hostWrite ⟨j.port, 0⟩ (pasidOf s ⟨j.port, 0⟩) x.1 (slice (jobBytes r.data r.bad) (x.1 - a) x.2) ∈ (endRead s id r none).outs := by
  rw [endRead_job hreader]
  let u : State := { s with flash := { s.flash with reads := remove s.flash.reads id } }
  let w := setJob u f { j with work := .write a (jobBytes r.data r.bad) }
  have hends : jobReadEnds u f r none = jobFlush w f := by
    have hu : look u.flash.jobs f = some j := hjob
    simp only [jobReadEnds, hu, hwork]
    rfl
  rw [hends]
  have hwjob : look w.flash.jobs f = some { j with work := .write a (jobBytes r.data r.bad) } := look_place_same _ _ _
  have hwopen : dmaOpen w ⟨j.port, 0⟩ = true := hopen
  exact jobFlush_sends hwjob rfl hwopen hx

section DecodeLast
variable {s : State} {id g : Nat} {cw : List Byte} {r : ExtentRead} (hread : look s.flash.reads id = some r)
  (htransfers : transfers s (r.op s).lun r.waits = true) (hsource : cwSource s (r.fca s) = .shown) (hlen : cw.length = 4648)
  (hzeros : 64 ≤ zeroBits cw) (hlevel : r.level = 0) (hsoft : r.soft = 0) (haddr : rdLe cw 4128 6 = r.fca s)
  (hfits : r.off + r.left ≤ 4096) (hgood : badSectors cw r.off r.left = [])
include hread htransfers hsource hlen hzeros hlevel hsoft haddr hfits hgood

/-- The last codeword of a read ends it, and its LUN may be free. -/
theorem codewordDecode_last : ∃ inFlight,
    let u := endRead (countedCw s (fcaFacet (r.fca s))) id (delivered r cw) none
    codewordDecode s id true (g, ⟨[], 0, []⟩) cw = { u with flash := { u.flash with inFlight } } := by
  rw [codewordDecode_shown hread htransfers hsource hzeros hsoft, decoded_last hlen hlevel hsoft haddr hfits hgood]
  exact releaseLun_eq _ _

theorem look_codewordDecode_last : look (codewordDecode s id true (g, ⟨[], 0, []⟩) cw).flash.reads id = none := by
  obtain ⟨inFlight, h⟩ := codewordDecode_last (g := g) hread htransfers hsource hlen hzeros hlevel hsoft haddr hfits hgood
  rw [h]
  exact look_endRead _ _ _ _

/-- A request finds the bytes it asked for. -/
theorem codewordDecode_request (hreader : r.reader < 65536) :
    (codewordDecode s id true (g, ⟨[], 0, []⟩) cw).flash.finished =
      s.flash.finished ++ [⟨r.reader, r.extent, r.data ++ slice cw r.off r.left, r.bad, none⟩] ∧
    regFld (codewordDecode s id true (g, ⟨[], 0, []⟩) cw) (fKey (fcaFacet (r.fca s)) 0x30030) 0 32 =
      min (regFld s (fKey (fcaFacet (r.fca s)) 0x30030) 0 32 + 1) (2 ^ 32 - 1) ∧
    ({ codewordDecode s id true (g, ⟨[], 0, []⟩) cw with flash := s.flash, regs := s.regs } : State) = s := by
  obtain ⟨inFlight, h⟩ := codewordDecode_last (g := g) hread htransfers hsource hlen hzeros hlevel hsoft haddr hfits hgood
  have hcount := regFld_countedCw s (fcaFacet (r.fca s))
  obtain ⟨regs, hregs⟩ := countedCw_eq s (fcaFacet (r.fca s))
  rw [hregs] at h hcount
  rw [h]
  dsimp only
  rw [endRead_request (r := delivered r cw) hreader]
  exact ⟨rfl, hcount, rfl⟩

/-- A flash job's bytes leave for the host. -/
theorem codewordDecode_job {f a : Nat} {j : FlashJob} (hreader : r.reader = jobReader f) (hjob : look s.flash.jobs f = some j)
    (hwork : j.work = .reading a) (hopen : dmaOpen s ⟨j.port, 0⟩ = true) {x : Nat × Nat}
    (hx : x ∈ hostParts (maxPayload s j.port) a (jobBytes (r.data ++ slice cw r.off r.left) r.bad).length) :
    .hostWrite ⟨j.port, 0⟩ (pasidOf s ⟨j.port, 0⟩) x.1 (slice (jobBytes (r.data ++ slice cw r.off r.left) r.bad) (x.1 - a) x.2) ∈
      (codewordDecode s id true (g, ⟨[], 0, []⟩) cw).outs := by
  obtain ⟨inFlight, h⟩ := codewordDecode_last (g := g) hread htransfers hsource hlen hzeros hlevel hsoft haddr hfits hgood
  rw [h, ← pasidOf_countedCw s (fcaFacet (r.fca s))]
  refine endRead_job_sends (s := countedCw s (fcaFacet (r.fca s))) (r := delivered r cw) (a := a) hreader ?_ hwork ?_ ?_
  · rw [countedCw_flash]
    exact hjob
  · rw [dmaOpen_countedCw]
    exact hopen
  · rw [maxPayload, portOf_countedCw]
    exact hx

end DecodeLast

/-! ## The statement -/

theorem exec_readStatusPoll {s : State} (halive : alive s = true) (lun : Nat) (st : NandStatus) :
    exec (.readStatusPoll lun st) s = .next (statusPoll s lun st) := congrArg Host.Outcome.next (if_pos halive)

theorem exec_nandTimeout {s : State} (halive : alive s = true) (lun : Nat) :
    exec (.nandTimeout lun) s = .next (nandTimeout s lun) := congrArg Host.Outcome.next (if_pos halive)

theorem exec_nandCommandIssue {s : State} (halive : alive s = true) (lun : Nat) (turn : NandTurn) :
    exec (.nandCommandIssue lun turn) s = .next (nandIssue s lun turn) := congrArg Host.Outcome.next (if_pos halive)

theorem exec_codewordDecode {s : State} (halive : alive s = true) (id : Nat) (ok : Bool) (fab : Nat × FabricSeen) (cw : List Byte) :
    exec (.codewordDecode id ok fab cw) s = .next (codewordDecode s id ok fab cw) := congrArg Host.Outcome.next (if_pos halive)

/-- Settles O40: each command's effect by the lemma that says it of its operation. -/
theorem flashReadCommandsComplete : Obligations.FlashReadCommandsComplete := by
  unfold Obligations.FlashReadCommandsComplete
  refine ⟨?extent, ?issue, ?poll, ?decode, ?zq⟩
  case extent =>
    intro s id tag eng e r halive hr hfree
    refine ⟨fun heng hserves hgood => ?_, fun st heng hserves hbad htag => ?_, fun p c u q x hpipe hstage hcand hslot hnew => ?_⟩
    · obtain ⟨w, hlook, hqueued, hfinished⟩ := ensureRead_waits s id (r := extentJob s tag (engineClass eng) r.tenant e) rfl rfl
      exact ⟨_, w, exec_extentRead_good halive hr hfree heng hserves hgood, hlook, hqueued, hfinished, (ensureRead_reach s id _).frame⟩
    · have hexec := exec_extentRead_bad halive hr hfree heng hserves hbad
      rw [endRead_request (r := extentJob s tag (engineClass eng) r.tenant e) htag s id (some st)] at hexec
      exact ⟨_, hexec, look_remove_same _ _, rfl, rfl⟩
    · exact (exec_extentRead_prefetch halive hr hfree hpipe).trans (congrArg Host.Outcome.next (prefetchRead_slot hstage hcand hslot hnew))
  case issue =>
    intro s lun i turn c halive hfree hlive hroom hnext hc
    obtain ⟨ds, hflight, hmates, hplanes, houts, hreach⟩ := nandIssue_spec hfree hlive hroom hnext hc
    exact ⟨_, ds, exec_nandCommandIssue halive lun turn, hflight, hmates, hplanes, houts, hreach⟩
  case poll =>
    intro s lun f halive hflight hdone
    refine ⟨fun hread hwanted hscan => ?_, fun j left marks a b hread hjob hwork hafter hleft hopen => ?_, fun c b hparts hop hjob => ?_,
      fun c p hparts hop hjob hbreaks => ?_, fun hfirst => ?_, fun e hsecond _ he hpresent hother hon => ?_⟩
    · exact ⟨_, exec_readStatusPoll halive lun _, statusPoll_transfers hflight hdone hread hwanted hscan⟩
    · obtain ⟨hsends, hends⟩ := statusPoll_scanLast hflight hdone hread hjob hwork hafter hleft hopen
      exact ⟨_, scanBytes s marks b, exec_readStatusPoll halive lun _, length_scanBytes s marks b,
        fun i hi => getD_scanBytes s b hi, hsends, hends⟩
    · exact ⟨⟨_, exec_readStatusPoll halive lun _, statusPoll_erased hflight hdone hparts hjob hop⟩,
        fun which hroom hnew => ⟨_, exec_readStatusPoll halive lun _,
          statusPoll_eraseFailed_spec hflight hdone hparts hop hjob hroom hnew which⟩⟩
    · exact ⟨_, exec_readStatusPoll halive lun _, statusPoll_programmed hflight hdone hparts hjob hop hbreaks⟩
    · exact ⟨_, exec_nandTimeout halive lun, nandTimeout_repeats hflight hdone hfirst⟩
    · exact ⟨_, exec_nandTimeout halive lun, nandTimeout_targetLost hflight hdone hsecond he hpresent hother hon⟩
  case decode =>
    intro s id g cw r halive hread htransfers hsource hlen hzeros hlevel hsoft haddr hfits hgood
    exact ⟨_, exec_codewordDecode halive id true _ cw,
      look_codewordDecode_last hread htransfers hsource hlen hzeros hlevel hsoft haddr hfits hgood,
      codewordDecode_request hread htransfers hsource hlen hzeros hlevel hsoft haddr hfits hgood,
      fun f j a hreader hjob hwork hopen _ hx =>
        codewordDecode_job hread htransfers hsource hlen hzeros hlevel hsoft haddr hfits hgood hreader hjob hwork hopen hx⟩
  case zq =>
    intro s lun halive hlive hpresent hnv
    refine congrArg Host.Outcome.next (if_pos ?_)
    simp only [halive, hlive, hpresent, hnv, decide_true, Bool.and_true]

end Sys2Proof.Machine
end

section
/-! Refutation of the flash jobs' statement (O41). -/
namespace Sys2Proof.Machine

/-- A live package, SEALED, whose facet 1 has a list of one entry and shows the end of an earlier job of one entry (DONE, ENTRY 1), and whose
port 0 holds a read of a function that no part has: the place of its PASID register, 0x1C0100 + 4 × 0x1C004, is the place of
facet 1's FLS_JOB_STATUS, 0x230110. -/
def strayJobRead : State :=
  { strayRead with
    hmk := { State.reset.hmk with state := .sealed }
    regs := [(fKey 1 0x30108, 1#32), (fKey 1 0x30110, 0x20000001#32)]
    ports := [(0, { portReset with
      up := true, config := { portReset.config with pasid := true }, held := [⟨0x1C004, ownReads, 0, 64⟩] })] }

/-- The start lets the held read go with the PASID 0, which is the ENTRY of the RUNNING that it has just shown. -/
theorem flsJobStart_strayJobRead_outs {t : State} (ht : exec (.flsJobStart 1 0) strayJobRead = .next t) :
    t.outs = [.hostRead ⟨0, 0x1C004⟩ (some 0) 0 64, .hostRead ⟨0, 0⟩ (some 0) 0 32] := by
  cases ht
  decide +kernel

/-- From the registers as they were, it goes with the PASID 1, the ENTRY of the earlier job. -/
theorem hostAsk_strayJobRead_outs :
    (hostAsk strayJobRead ⟨0, 0⟩ (pair (regGet strayJobRead) (fKey 1 0x30100)) 32).outs =
      [.hostRead ⟨0, 0x1C004⟩ (some 1) 0 64, .hostRead ⟨0, 0⟩ (some 0) 0 32] := by
  decide +kernel

/-- Refutes O41: its first clause says that a start sends what a read of the first entry sends from the state before it, and says so of
every state, even one whose port holds a read of a function number past 64. A function's PASID register is found by its number
alone, and this one's is facet 1's FLS_JOB_STATUS: the read that the start on facet 1 lets go leaves with the ENTRY just
shown (0) as its PASID, not with the one of the earlier job (1). -/
theorem not_flashJobsComplete : ¬ Obligations.FlashJobsComplete := by
  unfold Obligations.FlashJobsComplete
  rintro ⟨hstart, -⟩
  obtain ⟨hlist, -⟩ := hstart strayJobRead 1 0 (by decide +kernel) (by decide) (by decide +kernel) (by decide) (by decide +kernel)
  obtain ⟨t, ht, -, -, houts, -⟩ := hlist (by decide +kernel) (by decide +kernel)
  have hopen : dmaOpen strayJobRead ⟨0, 0⟩ = true := by decide +kernel
  rw [if_pos hopen] at houts
  have hpasid := (flsJobStart_strayJobRead_outs ht).symm.trans (houts.trans hostAsk_strayJobRead_outs)
  exact absurd hpasid (by decide)

end Sys2Proof.Machine
end

section
/-! Proof of the statement about host data on its way to a request (O34): reads that end at a port, and poisonings of origin HOST. -/
namespace Sys2Proof.Machine

/-! ## What ends and leaves at a port changes the ports, the translations kept and the outputs alone (16 R343, R354) -/

theorem joinReads_eq (s : State) (p : Nat) (new : List HostAsk) : ∃ ports atc outs, joinReads s p new = { s with ports, atc, outs } :=
  let ⟨ports, atc, _, h⟩ := pumpReads_eq _ _ _
  ⟨ports, atc, _, h⟩

/-- A loop that answers Invalidate Requests sends its answers and does nothing else. -/
theorem answers_eq (p : Nat) (due : List Inval) (s : State) :
    ∃ outs, due.foldl (fun s v => emit s (.atsAnswer ⟨p, v.tenant⟩ v.id)) s = { s with outs } :=
  foldl_inv (fun t => ∃ outs, t = { s with outs }) _ (fun _ _ ⟨outs, h⟩ => ⟨outs ++ _, by rw [h]; rfl⟩) due s ⟨_, rfl⟩

theorem answerInvals_eq (s : State) (p : Nat) : ∃ ports outs, answerInvals s p = { s with ports, outs } := by
  unfold answerInvals
  dsimp only
  split
  · exact ⟨_, answers_eq p _ _⟩
  · exact ⟨_, _, rfl⟩

theorem freeReads_eq (s : State) (p : Nat) (gone : HostAsk → Bool) :
    ∃ ports atc outs, freeReads s p gone = { s with ports, atc, outs } := by
  unfold freeReads
  dsimp only
  split
  · obtain ⟨_, _, hanswers⟩ := answerInvals_eq (setPort s p { portOf s p with
      reads := (portOf s p).reads.filter (fun x => !gone x), held := (portOf s p).held.filter (fun x => !gone x) }) p
    rw [hanswers]
    exact joinReads_eq _ _ _
  · exact ⟨_, _, _, rfl⟩

/-- A tag's reads end at port 0, then at port 1. -/
theorem tagReads_ports (s : State) (tag : Nat) (gone : HostAsk → Bool) : tagReads s tag gone =
    freeReads (freeReads s 0 (fun x => decide (x.tag = tag) && gone x)) 1 (fun x => decide (x.tag = tag) && gone x) := rfl

theorem tagReads_eq (s : State) (tag : Nat) (gone : HostAsk → Bool) :
    ∃ ports atc outs, tagReads s tag gone = { s with ports, atc, outs } := by
  obtain ⟨_, _, _, hfirst⟩ := freeReads_eq s 0 (fun x => decide (x.tag = tag) && gone x)
  rw [tagReads_ports, hfirst]
  exact freeReads_eq _ _ _

theorem tagReads_requests (s : State) (tag : Nat) (gone : HostAsk → Bool) : (tagReads s tag gone).requests = s.requests := by
  obtain ⟨_, _, _, h⟩ := tagReads_eq s tag gone
  rw [h]

theorem regFld_tagReads (s : State) (tag : Nat) (gone : HostAsk → Bool) (key lo n : Nat) :
    regFld (tagReads s tag gone) key lo n = regFld s key lo n := by
  obtain ⟨_, _, _, h⟩ := tagReads_eq s tag gone
  rw [h]
  rfl

/-! ## Reads that have ended are not at their port any more (16 R343) -/

/-- The reads of a port: outstanding, then waiting. -/
def readsAt (s : State) (p : Nat) : List HostAsk := (portOf s p).reads ++ (portOf s p).held

/-- Reads that leave were waiting: none is new at the port. -/
theorem readsAt_pumpReads (n p : Nat) (s : State) : readsAt (pumpReads n s p) p ⊆ readsAt s p := by
  induction n generalizing s with
  | zero => exact List.Subset.refl _
  | succ n ih =>
    unfold pumpReads
    dsimp only
    split
    · exact List.Subset.refl _
    · next x hfirst =>
      have hheld : x ∈ (portOf s p).held := List.mem_of_find?_eq_some hfirst
      split
      · exact List.Subset.refl _
      · refine List.Subset.trans (ih _) ?_
        simp only [readsAt, portOf_emit, portOf_translate, portOf_setPort, List.append_assoc]
        exact List.append_subset.mpr ⟨List.subset_append_left _ _, List.cons_subset.mpr
          ⟨List.mem_append_right _ hheld, List.subset_append_of_subset_right _ List.erase_subset⟩⟩

/-- With no read to join, none is new at the port. -/
theorem readsAt_joinReads (s : State) (p : Nat) : readsAt (joinReads s p []) p ⊆ readsAt s p := by
  refine List.Subset.trans (readsAt_pumpReads _ p _) ?_
  simp only [readsAt, portOf_setPort, List.append_nil]
  exact List.append_subset.mpr ⟨List.subset_append_left _ _, List.subset_append_of_subset_right _ List.filter_sublist.subset⟩

theorem portOf_answers (p q : Nat) (due : List Inval) (s : State) :
    portOf (due.foldl (fun s v => emit s (.atsAnswer ⟨p, v.tenant⟩ v.id)) s) q = portOf s q := by
  obtain ⟨_, h⟩ := answers_eq p due s
  rw [h]
  rfl

theorem readsAt_answerInvals (s : State) (p : Nat) : readsAt (answerInvals s p) p = readsAt s p := by
  unfold answerInvals
  dsimp only
  split
  · rw [readsAt, portOf_answers, portOf_setPort]
    rfl
  · rfl

theorem portOf_answerInvals_ne (s : State) {p q : Nat} (h : p ≠ q) : portOf (answerInvals s p) q = portOf s q := by
  unfold answerInvals
  dsimp only
  split
  · rw [portOf_answers, portOf_setPort_ne _ _ _ _ h]
  · rfl

theorem portOf_joinReads_ne (s : State) {p q : Nat} (new : List HostAsk) (h : p ≠ q) : portOf (joinReads s p new) q = portOf s q :=
  (pumpReads_other _ p q h _).trans (portOf_setPort_ne _ _ _ _ h)

theorem freeReads_gone {s : State} {p : Nat} {gone : HostAsk → Bool} {x : HostAsk} (hx : x ∈ readsAt (freeReads s p gone) p) :
    gone x = false := by
  unfold freeReads at hx
  dsimp only at hx
  split at hx
  · have hkept := readsAt_joinReads _ _ hx
    rw [readsAt_answerInvals, readsAt, portOf_setPort, ← List.filter_append, List.mem_filter, Bool.not_eq_true'] at hkept
    exact hkept.2
  · next hnone =>
    exact Bool.eq_false_iff.mpr fun hgone => hnone (List.any_eq_true.mpr ⟨x, hx, hgone⟩)

theorem portOf_freeReads_ne (s : State) {p q : Nat} (gone : HostAsk → Bool) (h : p ≠ q) :
    portOf (freeReads s p gone) q = portOf s q := by
  unfold freeReads
  dsimp only
  split
  · rw [portOf_joinReads_ne _ _ h, portOf_answerInvals_ne _ h, portOf_setPort_ne _ _ _ _ h]
  · rfl

/-- No read of the tag that has ended is outstanding, or waits, at either port. -/
theorem tagReads_gone {s : State} {tag p : Nat} {gone : HostAsk → Bool} {x : HostAsk} (hp : p < 2)
    (hx : x ∈ readsAt (tagReads s tag gone) p) (htag : x.tag = tag) : gone x = false := by
  have hended : (decide (x.tag = tag) && gone x) = false := by
    rw [tagReads_ports] at hx
    obtain rfl | rfl : p = 0 ∨ p = 1 := by omega
    · rw [readsAt, portOf_freeReads_ne _ _ (by decide)] at hx
      exact freeReads_gone (gone := fun x => decide (x.tag = tag) && gone x) hx
    · exact freeReads_gone (gone := fun x => decide (x.tag = tag) && gone x) hx
  simpa only [htag, decide_true, Bool.true_and] using hended

/-! ## Poisonings of origin HOST (08 R166, R174) -/

theorem poisoning_requests (s : State) (f : Nat) (o : Origin) (isFca : Bool) (a : Nat) (tn : Option Nat) :
    (poisoning s f o isFca a tn).requests = s.requests := congrArg (·.2.2.1) (poisoning_flitFrame s f o isFca a tn)

theorem regGet_raise (s : State) (t : Nat) (c : EventCode) (b f n d key : Nat) : regGet (raise s t c b f n d) key = regGet s key := by
  rw [regGet, raise_regs]
  rfl

theorem regGet_poisonSet (s : State) (m : Memory) (b f n d key : Nat) :
    regGet (raise { s with mem := m } 0 .poisonSet b f n d) key = regGet s key := regGet_raise _ _ _ _ _ _ _ _

theorem ite_regGet {p : Prop} [Decidable p] {a b s : State} {key : Nat} (ha : regGet a key = regGet s key)
    (hb : regGet b key = regGet s key) : regGet (if p then a else b) key = regGet s key := by
  split <;> assumption

/-- A poisoning changes two registers of its facet: the count of its origin, and at most that of the events suppressed. -/
theorem regGet_poisoning {f key : Nat} (hdrop : fKey f 0x4C ≠ key) (s : State) (o : Origin) (isFca : Bool) (a : Nat) (tn : Option Nat) :
    regGet (poisoning s f o isFca a tn) key = regGet (bump s (fKey f 0x44) (poisonFld o) 8 1) key := by
  unfold poisoning
  refine ite_regGet (regGet_bump_ne _ _ _ _ _ _ hdrop) ?_
  cases tn with
  | none => exact regGet_poisonSet _ _ _ _ _ _ _
  | some t => exact ite_regGet (regGet_poisonSet _ _ _ _ _ _ _) ((regGet_raise _ _ _ _ _ _ _ _).trans (regGet_poisonSet _ _ _ _ _ _ _))

/-- A poisoning, sent or suppressed, raises the count of its origin by 1. -/
theorem regFld_poisoning (s : State) (f : Nat) (o : Origin) (isFca : Bool) (a : Nat) (tn : Option Nat) :
    regFld (poisoning s f o isFca a tn) (fKey f 0x44) (poisonFld o) 8 = min (regFld s (fKey f 0x44) (poisonFld o) 8 + 1) 255 := by
  rw [regFld, regGet_poisoning (by unfold fKey; omega)]
  exact regFld_bump_same s _ _ 8 1 (by cases o <;> decide)

theorem hostPoison_requests (s : State) (fn : FnId) (n : Nat) : (hostPoison s fn n).requests = s.requests :=
  foldl_keeps State.requests _ (fun u _ => poisoning_requests (draw u).2 _ _ _ _ _) _ s

/-- A poisoned read counts one poisoning for each flit that carries its bytes. -/
theorem regFld_hostPoison (s : State) (fn : FnId) (n : Nat) : regFld (hostPoison s fn n) (fKey (portFacet fn.port) 0x44) 8 8 =
    min (regFld s (fKey (portFacet fn.port) 0x44) 8 8 + (flitOf (n - 1) + 1)) 255 := by
  refine foldl_upto (fun i u => regFld u (fKey (portFacet fn.port) 0x44) 8 8 =
    min (regFld s (fKey (portFacet fn.port) 0x44) 8 8 + i) 255) _ ?_ ?_
  · have hbyte : regFld s (fKey (portFacet fn.port) 0x44) 8 8 < 2 ^ 8 := fld_lt _ _ _
    omega
  · intro i u _ hcount
    refine (regFld_poisoning (draw u).2 (portFacet fn.port) .host _ _ _).trans ?_
    change min (regFld u (fKey (portFacet fn.port) 0x44) 8 8 + 1) 255 = _
    rw [hcount]
    omega

/-! ## A piece of host data at its request (08 R166; 16 R344) -/

/-- The request once a piece has reached it. -/
def Request.withPiece (r : Request) (addr : Nat) (data : List Byte) (st : ReadStatus) : Request :=
  { r with hostIn := r.hostIn ++ [⟨addr, data, st⟩] }

theorem hostPiece_good {s : State} {tag : Nat} {r : Request} (hr : look s.requests tag = some r) (addr : Nat) (data : List Byte) :
    hostPiece s tag addr data .good =
      tagReads (setRequest s tag (r.withPiece addr data .good)) tag (askHere (r.withPiece addr data .good)) := by
  rw [hostPiece, hr]
  rfl

theorem hostPiece_poisoned {s : State} {tag : Nat} {r : Request} (hr : look s.requests tag = some r) (addr : Nat) (data : List Byte) :
    hostPiece s tag addr data .poisoned =
      tagReads (hostPoison (setRequest s tag (r.withPiece addr data .poisoned)) (requestFn r) data.length) tag
        (askHere (r.withPiece addr data .poisoned)) := by
  rw [hostPiece, hr]
  rfl

theorem exec_hostReadCompletion {s : State} (halive : alive s = true) (tag addr : Nat) (data : List Byte) (st : ReadStatus) :
    exec (.hostReadCompletion tag addr data st) s = .next (hostPiece s tag addr data st) := congrArg Host.Outcome.next (if_pos halive)

theorem exec_completionTimeout {s : State} (halive : alive s = true) (tag addr len : Nat) :
    exec (.completionTimeout tag addr len) s = .next (hostPiece s tag addr (List.replicate len 0#8) .poisoned) :=
  congrArg Host.Outcome.next (if_pos halive)

/-- A good piece changes its request, and beside it the ports, the translations kept and the outputs alone. -/
theorem hostPiece_good_frame {s : State} {tag : Nat} {r : Request} (hr : look s.requests tag = some r) (addr : Nat) (data : List Byte) :
    { hostPiece s tag addr data .good with requests := s.requests, ports := s.ports, atc := s.atc, outs := s.outs } = s := by
  obtain ⟨_, _, _, h⟩ := tagReads_eq (setRequest s tag (r.withPiece addr data .good)) tag (askHere (r.withPiece addr data .good))
  rw [hostPiece_good hr, h]
  rfl

/-- Settles O34: a piece goes to its request, then the tag's reads whose bytes have all come end at both ports; the poisonings of a
timeout change no request, and each raises the count by 1. How many poisonings a piece makes, one for each flit of it (08 R174), is
the model's choice: a host read is cut into flits as 04 R71 cuts a long read (log 51). -/
theorem hostReadsReachTheirRequest : Obligations.HostReadsReachTheirRequest := by
  unfold Obligations.HostReadsReachTheirRequest
  intro s tag addr r halive hr
  refine ⟨fun data => ⟨_, exec_hostReadCompletion halive tag addr data .good, ?_, ?_, hostPiece_good_frame hr addr data⟩,
    fun len => ⟨_, exec_completionTimeout halive tag addr len, ?_, ?_⟩⟩
  case refine_1 =>
    rw [hostPiece_good hr, tagReads_requests]
    exact look_place_same _ _ _
  case refine_2 =>
    intro p x hp hx htag
    rw [hostPiece_good hr] at hx
    exact tagReads_gone hp hx htag
  case refine_3 =>
    rw [hostPiece_poisoned hr, tagReads_requests, hostPoison_requests]
    exact look_place_same _ _ _
  case refine_4 =>
    rw [hostPiece_poisoned hr, regFld_tagReads, regFld_hostPoison, List.length_replicate]
    rfl

end Sys2Proof.Machine
end

section
/-! SUPPORT. TOKENIZE and DETOKENIZE (09 R184 to R193): tokens cover their input, what a detokenizer holds back is short, and a request whose
checks pass ends with its words. -/
namespace Sys2Proof.Machine

/-! ## Tokens cover their input (09 R184) -/

/-- Some length above 0 and at most `n`, if a token was found. -/
def FoundWithin (n : Nat) (best : Option (Nat × Nat)) : Prop := ∀ t m, best = some (t, m) → 0 < m ∧ m ≤ n

/-- A walk from depth `d` finds no token past the bytes that it is given. -/
theorem trieWalk_foundWithin (b : List Byte) {n : Nat} (l : List Byte) (node d : Nat) {best : Option (Nat × Nat)} (hfits : d + l.length ≤ n)
    (hbest : FoundWithin n best) : FoundWithin n (trieWalk b l node d best).1 := by
  induction l generalizing node d best with
  | nil =>
    unfold trieWalk
    dsimp only
    split
    · rintro t m ⟨⟩
      simp only [List.length_nil] at hfits
      omega
    · exact hbest
  | cons x rest ih =>
    have hhere : FoundWithin n (if nodeToken b node ≠ noToken ∧ 0 < d then some (nodeToken b node, d) else best) := by
      split
      · rintro t m ⟨⟩
        omega
      · exact hbest
    rw [List.length_cons] at hfits
    unfold trieWalk
    dsimp only
    split
    · exact hhere
    · exact ih _ _ (by omega) hhere

/-- With fuel for each byte, the lengths of an input's tokens add up to its length. -/
theorem sum_len_tokenizeAll (b : List Byte) {k : Nat} {l : List Byte} (hfuel : l.length ≤ k) (p : Nat) :
    ((tokenizeAll b k l p).1.map (·.len)).sum = l.length := by
  induction k generalizing l p with
  | zero => rw [List.length_eq_zero_iff.mp (Nat.le_zero.mp hfuel)]; rfl
  | succ k ih =>
    cases l with
    | nil => rfl
    | cons x rest =>
      rw [List.length_cons] at hfuel
      unfold tokenizeAll
      extract_lets v
      split
      next _ best seen hwalk =>
      split
      · next _ t n =>
        obtain ⟨hpos, hle⟩ : 0 < n ∧ n ≤ (x :: rest).length := by
          split at hwalk
          · cases hwalk
          · have hfound := trieWalk_foundWithin b ((x :: rest).take v) (rootOff b) 0 (n := (x :: rest).length)
              (by rw [Nat.zero_add]; exact List.length_take_le' ..) (best := none) (fun _ _ h => nomatch h)
            rw [hwalk] at hfound
            exact hfound t n rfl
        have hrest : ((x :: rest).drop n).length ≤ k := by rw [List.length_drop, List.length_cons]; omega
        simp only [List.map_cons, List.sum_cons, ih hrest, List.length_drop]
        omega
      · simp only [List.map_cons, List.sum_cons, ih (Nat.le_of_succ_le_succ hfuel), List.length_cons]
        omega

/-- A part that is read from the slices is read by the walk, and does not lie inside the preloaded bytes (09 R186). -/
theorem mem_coldParts {v : VocSlot} {parts : List (Nat × Nat)} {p : Nat × Nat} :
    p ∈ coldParts v parts ↔ p ∈ parts ∧ (p.1 < v.hotAt ∨ v.hotAt + v.hot.length < p.1 + p.2) := by
  rw [coldParts, List.mem_filter, Bool.not_eq_true', Bool.and_eq_false_iff, decide_eq_false_iff_not, decide_eq_false_iff_not,
    Nat.not_le, Nat.not_le]

/-! ## What a detokenizer emits and holds (09 R190, R191) -/

theorem foldl_max_le {n : Nat} {l : List Nat} (hl : ∀ i ∈ l, i ≤ n) {m : Nat} (hm : m ≤ n) : l.foldl max m ≤ n := by
  induction l generalizing m with
  | nil => exact hm
  | cons i l ih =>
    obtain ⟨hi, hrest⟩ := List.forall_mem_cons.mp hl
    exact ih hrest (max_le hm hi)

theorem heldSuffix_le (stops : List (List Byte)) (l : List Byte) : heldSuffix stops l ≤ 63 := by
  refine foldl_max_le (fun i hi => ?_) (Nat.zero_le _)
  have := (mem_upto _ _).mp (List.mem_filter.mp hi).1
  omega

/-- At most 63 bytes are held, and without a stop nothing is lost. -/
theorem detokCore_spec (stops : List (List Byte)) (held : List Byte) (bs : List (Byte × Nat)) (final off : Bool) :
    (detokCore stops held bs final off).held.length ≤ 63 ∧
    ((detokCore stops held bs final off).stop = none →
      (detokCore stops held bs final off).emit ++ (detokCore stops held bs final off).held = held ++ bs.map (·.1)) := by
  unfold detokCore
  extract_lets all
  split
  · exact ⟨Nat.zero_le _, fun h => nomatch h⟩
  · split
    · exact ⟨Nat.zero_le _, fun _ => List.append_nil _⟩
    · have hheld := heldSuffix_le stops all
      refine ⟨?_, fun _ => List.take_append_drop _ _⟩
      simp only [List.length_drop]
      omega

theorem firstStop_noStops (held : List Byte) (bs : List (Byte × Nat)) (k : Nat) : firstStop [] held bs k = none := by
  induction k with
  | zero => rfl
  | succ k ih => exact ih

/-- Without stop strings the last of a text is emitted whole. -/
theorem detokCore_noStops (held : List Byte) (bs : List (Byte × Nat)) (off : Bool) :
    detokCore [] held bs true off = ⟨held ++ bs.map (·.1), [], none⟩ := by
  rw [detokCore, firstStop_noStops]
  rfl

/-! ## Requests whose checks pass (09 R187, R188, R193) -/

/-- Work that ends well, on a package with service, ends its request. -/
theorem runOp_ok {s u : State} {tag opcode : Nat} {r : Request} {run : State → Request → Ended} {words : List Nat} {st : Status}
    (hr : running s tag opcode = some r) (hservice : noService s = false) (hrun : run s r = (u, .ok (words, st))) :
    runOp s tag opcode run = finish u tag st words := by
  simp only [runOp, hr, conclude, hrun, hservice, Bool.false_eq_true, if_false]

theorem andThen_ok {α β : Type} {x : Reading α} {s : State} {v : α} (h : x = (s, .ok v)) (f : State → α → Reading β) :
    Got.andThen x f = f s v := by
  rw [h]
  rfl

theorem extOf_none {r : Request} (h : r.ext = none) : extOf r = List.replicate 64 0#8 := by
  rw [extOf, h]
  rfl

/-- An expert field that the extension leaves at its default takes it. -/
theorem extField_same (r : Request) (group v : Nat) : extField r group v v = v := ite_self v

section Tokenize
variable {s s1 s2 : State} {tag f : Nat} {r : Request} {v : VocSlot} {inp : List Byte}

/-- The way a TOKENIZE without extension works. -/
def plainParams (r : Request) : TokParams := ⟨nbit (bodyB r 28) 1, nbit (bodyB r 29) 0, nbit (bodyB r 29) 1, false, nbit (bodyB r 44) 0⟩

/-- The state with the free values of a TOKENIZE's output drawn. -/
def drawn (s : State) (n : Nat) : State := { s with freeCount := s.freeCount + n }

theorem tokenizeRun_ok {o : TokOut} (hbad : tokenizeBad r = false) (hext : r.ext = none) (hvoc : vocOf s r (bodyB r 28 / 16) = some v)
    (hunit : engineFor s 3 f = some none)
    (hread : readAt s r (nbit (bodyB r 28) 3) (bodyLe r 16 8) (bodyLe r 24 4) = (s1, .ok inp))
    (hcore : tokenizeCore s1 r.tenant v (plainParams r) (bodyLe r 40 4 / (if nbit (bodyB r 28) 1 then 8 else 4)) inp = (s2, .ok o))
    (hout : outCheck (drawn s2 o.entries.length) r (nbit (bodyB r 28) 2) (bodyLe r 32 8)
      (tokenBytes (nbit (bodyB r 28) 1) s2.freeCount o.entries).length = none) :
    tokenizeRun f s r = (countFallback (writeOut (drawn s2 o.entries.length) r (nbit (bodyB r 28) 2) (bodyLe r 32 8)
        (tokenBytes (nbit (bodyB r 28) 1) s2.freeCount o.entries)) f o.fallback,
      .ok ([o.entries.length, o.bytesIn, o.fallback], if o.cut then .truncated else .ok)) := by
  have hstrict : (extField r 1 (rdB (extOf r) 0 % 2) 0 == 1) = false := by
    rw [extOf_none hext, show rdB (List.replicate 64 0#8) 0 % 2 = 0 from rfl, extField_same]
    rfl
  simp only [drawn] at hout
  unfold tokenizeRun
  simp only [hbad, Bool.false_eq_true, if_false, hvoc, hunit, andThen_ok hread, hstrict]
  refine (andThen_ok hcore _).trans ?_
  simp only [hout, drawn]

/-- The parts of a vocabulary's blob that hold the entries and the strings of some tokens. -/
def stringParts (b : List Byte) (size : Nat) (ts : List Nat) : List (Nat × Nat) :=
  ts.flatMap (fun t => [(strEntry b t, 8), (strOff b + 8 * size + rdLe b (strEntry b t) 4, rdB b (strEntry b t + 4))])

/-- The state after the strings of some tokens are read for a tenant. -/
def stringsRead (s : State) (t : Nat) (v : VocSlot) (b : List Byte) (ts : List Nat) : State := blobRead s t v.dest (stringParts b v.size ts)

/-- A DETOKENIZE without stop list and state record, whose tokens are of the vocabulary, emits their strings. -/
theorem detokenizeRun_ok {b : List Byte} {ts : List Nat} {out : List Byte} (hbad : detokenizeBad r = false) (hext : r.ext = none)
    (hstops : bodyLe r 48 8 = 0) (hrecord : bodyLe r 56 8 = 0) (hvoc : vocOf s r (bodyB r 28 / 16) = some v)
    (hunit : engineFor s 3 f = some none)
    (hread : readAt s r (nbit (bodyB r 28) 3) (bodyLe r 16 8) (4 * bodyLe r 24 4) = (s1, .ok inp)) (hblob : memRead s1 v.dest v.len = b)
    (hts : (upto (bodyLe r 24 4)).map (fun i => rdLe inp (4 * i) 4) = ts) (hrange : ∀ t ∈ ts, t < v.size)
    (hclean : blobPoison (stringsRead s1 r.tenant v b ts) v.dest (stringParts b v.size ts) = none)
    (hemit : (appended b false ts).map (·.1) = out) (hroom : out.length ≤ bodyLe r 40 4)
    (hout : outCheck (stringsRead s1 r.tenant v b ts) r (nbit (bodyB r 28) 2) (bodyLe r 32 8) out.length = none) :
    detokenizeRun f s r = (writeOut (stringsRead s1 r.tenant v b ts) r (nbit (bodyB r 28) 2) (bodyLe r 32 8) out,
      .ok ([out.length, 0xFF000000, 0xFFFFFFFF], .ok)) := by
  have hin : ts.any (fun t => decide (v.size ≤ t)) = false := by
    simpa only [List.any_eq_false, decide_eq_true_eq, Nat.not_le] using hrange
  have hexpert : extField r 1 (rdB (extOf r) 0) 0 = 0 := by
    rw [extOf_none hext]
    exact extField_same r 1 0
  have hcore (off : Bool) : detokCore [] (slice freshRecord 64 (rdB freshRecord 0)) (appended b false ts) true off = ⟨out, [], none⟩ := by
    rw [detokCore_noStops, hemit]
    rfl
  have hplain (i : Nat) : nbit 0 i = false := Nat.zero_testBit i
  have hfresh : nbit (rdB freshRecord 1) 0 = false ∧ nbit (rdB freshRecord 1) 1 = false := by decide
  have hnoStops (dev : Bool) : readStops s1 r dev 0 = (s1, .ok []) := rfl
  have hnoRecord (reset : Bool) : readRecord s1 r 0 reset = (s1, .ok freshRecord) := rfl
  simp only [stringsRead, stringParts] at hclean hout
  unfold detokenizeRun
  simp only [hbad, Bool.false_eq_true, if_false, hvoc, hunit, andThen_ok hread, hstops, hrecord, andThen_ok (hnoStops _),
    andThen_ok (hnoRecord _), hblob, hts, hin, hclean, hfresh, hexpert, hplain, Bool.false_and, decide_true, Bool.or_true, hcore,
    Nat.not_lt.mpr hroom, hout, if_true]
  rfl

end Tokenize

end Sys2Proof.Machine
end

section
/-! Proof of the token block's statement (O42): its slots are loaded, copied, checked, placed and emptied (09 R178 to R181), and its commands
complete (09 R184 to R193). -/
namespace Sys2Proof.Machine

/-! ## The loader's registers (09 R180) -/

/-- A field of a masked word, where the mask keeps its bits. -/
theorem fld_and_keeps {w m : Word} {lo n : Nat} (hmask : ∀ i, i < n → m.getLsbD (lo + i) = true) : fld (w &&& m) lo n = fld w lo n := by
  apply Nat.eq_of_testBit_eq
  intro i
  rw [fld_testBit, fld_testBit, BitVec.getLsbD_and]
  by_cases hi : i < n
  · rw [hmask i hi, Bool.and_true]
  · rw [decide_eq_false hi, Bool.false_and, Bool.false_and]

/-- From s to t registers alone may have changed. -/
def RegsOnly (s t : State) : Prop := ∃ regs, t = { s with regs }

theorem RegsOnly.refl (s : State) : RegsOnly s s := ⟨_, rfl⟩

theorem RegsOnly.regSet {s t : State} (h : RegsOnly s t) (k : Nat) (w : Word) : RegsOnly s (Machine.regSet t k w) := by
  obtain ⟨_, rfl⟩ := h
  exact ⟨_, rfl⟩

theorem RegsOnly.ldEnd {s t : State} (h : RegsOnly s t) (k reason loc : Nat) : RegsOnly s (Machine.ldEnd t k reason loc) :=
  (h.regSet _ _).regSet _ _

theorem RegsOnly.frame {s t : State} (h : RegsOnly s t) : { t with regs := s.regs } = s := by
  obtain ⟨_, rfl⟩ := h
  rfl

/-- The state after a word is written to TOK_LD_CTRL. -/
def tokCtrl (s : State) (w : Word) : State := ctrlStore s (aKey 0x80014) 0xF3F30 w

theorem tokCtrl_regsOnly (s : State) (w : Word) : RegsOnly s (tokCtrl s w) := (RegsOnly.refl s).regSet _ _

/-- KIND, SLOT and the grammar binding read back as written. -/
theorem fld_tokCtrl (s : State) (w : Word) : fld (regGet (tokCtrl s w) (aKey 0x80014)) 4 2 = fld w 4 2 ∧
    fld (regGet (tokCtrl s w) (aKey 0x80014)) 8 6 = fld w 8 6 ∧ fld (regGet (tokCtrl s w) (aKey 0x80014)) 16 4 = fld w 16 4 := by
  rw [tokCtrl, ctrlStore, regGet_regSet_same]
  exact ⟨fld_and_keeps (by decide), fld_and_keeps (by decide), fld_and_keeps (by decide)⟩

theorem regGet_tokCtrl_ne (s : State) (w : Word) {k : Nat} (h : aKey 0x80014 ≠ k) : regGet (tokCtrl s w) k = regGet s k :=
  regGet_regSet_ne _ _ _ _ h

theorem regGet_ldEnd_status (s : State) (k reason loc : Nat) :
    regGet (ldEnd s k reason loc) k = ldWord (if reason = 0 then 2 else 3) reason := by
  rw [ldEnd, regGet_regSet_ne _ _ _ _ (by omega), regGet_regSet_same]

theorem regGet_ldEnd_where (s : State) (k reason loc : Nat) : regGet (ldEnd s k reason loc) (k + 4) = BitVec.ofNat 32 loc :=
  regGet_regSet_same _ _ _

/-- A destination's check does not look at the registers. -/
theorem destOk_regSet (s : State) (k : Nat) (w : Word) (a n : Nat) : destOk (regSet s k w) a n = destOk s a n := by
  have hregion : inRegion (regSet s k w) 0 a (max n 1) = inRegion s 0 a (max n 1) := rfl
  rw [destOk, destOk, hregion]
  cases hloc : locOf a with
  | slice k off =>
    simp only [populated, hloc]
    cases locOf (a + max n 1 - 1) <;> rfl
  | _ => simp only [Bool.and_false]

/-- A read for the owner changes the ports, the translations kept and the outputs alone. -/
theorem askOwner_eq (s : State) (a n : Nat) : ∃ ports atc outs, askOwner s a n = { s with ports, atc, outs } := by
  unfold askOwner
  dsimp only
  split
  · obtain ⟨ports, atc, _, h⟩ := hostAsk_eq s (ownerFn s) a n
    exact ⟨ports, atc, _, h⟩
  · exact ⟨_, _, _, rfl⟩

theorem backOwner_eq (s : State) (a n : Nat) : ∃ ports atc outs, backOwner s a n = { s with ports, atc, outs } := freeReads_eq _ _ _

/-! ## LOAD (09 R180) -/

theorem tokNoSlot_named {kind slot : Nat} (hkind : kind < 2) (hslot : kind = 0 → slot < 16) : tokNoSlot kind slot = false := by
  simpa [tokNoSlot, hkind] using hslot

/-- What a LOAD of a word asks for, by the registers as they stand. -/
def jobOf (s : State) (w : Word) : LoadJob :=
  ⟨fld w 4 2, fld w 8 6, fld w 16 4, pair (regGet s) (aKey 0x8000C), pair (regGet s) (aKey 0x80000), (regGet s (aKey 0x80008)).toNat⟩

section Load
variable {s : State} {w : Word} (hidle : s.tokLd = none)
include hidle

theorem tokLoad_noSlot (hkind : 2 ≤ fld w 4 2) : tokLoad (tokCtrl s w) = ldEnd (tokCtrl s w) tokSt 1 0 := by
  obtain ⟨hk, hs, -⟩ := fld_tokCtrl s w
  have hld : (tokCtrl s w).tokLd = none := hidle
  simp [tokLoad, hk, hs, hld, tokNoSlot, hkind]

variable (hkind : fld w 4 2 < 2) (hslot : fld w 4 2 = 0 → fld w 8 6 < 16)
  (hvoc : fld w 4 2 = 0 → look s.voc (fld w 8 6) = none) (hgrm : fld w 4 2 = 1 → look s.grm (fld w 8 6) = none)
  (hdest : destOk s (jobOf s w).dest (jobOf s w).len = true) (hstate : loadState s = true) (halign : (jobOf s w).host % 64 = 0)
include hkind hslot hvoc hgrm hdest hstate halign

/-- A LOAD into an empty slot whose registers pass their checks is under way. -/
theorem tokLoad_starts :
    tokLoad (tokCtrl s w) =
      askOwner (regSet { tokCtrl s w with tokLd := some (jobOf s w) } tokSt (ldWord 1 0)) (jobOf s w).host (jobOf s w).len := by
  obtain ⟨hk, hs, hb⟩ := fld_tokCtrl s w
  have hld : (tokCtrl s w).tokLd = none := hidle
  have hasks : pair (regGet (tokCtrl s w)) (aKey 0x8000C) = (jobOf s w).dest ∧
      pair (regGet (tokCtrl s w)) (aKey 0x80000) = (jobOf s w).host ∧ (regGet (tokCtrl s w) (aKey 0x80008)).toNat = (jobOf s w).len := by
    simp only [jobOf, pair, regGet_tokCtrl_ne s w (k := aKey 0x8000C) (by decide), regGet_tokCtrl_ne s w (k := aKey 0x8000C + 4) (by decide),
      regGet_tokCtrl_ne s w (k := aKey 0x80000) (by decide), regGet_tokCtrl_ne s w (k := aKey 0x80000 + 4) (by decide),
      regGet_tokCtrl_ne s w (k := aKey 0x80008) (by decide), and_self]
  have hempty : (if fld w 4 2 = 0 then (look (tokCtrl s w).voc (fld w 8 6)).isSome else (look (tokCtrl s w).grm (fld w 8 6)).isSome) = false := by
    split
    · next h => exact Option.isSome_eq_false_iff.mpr (Option.isNone_iff_eq_none.mpr (hvoc h))
    · exact Option.isSome_eq_false_iff.mpr (Option.isNone_iff_eq_none.mpr (hgrm (by omega)))
  have hdest' : destOk (tokCtrl s w) (jobOf s w).dest (jobOf s w).len = true := (destOk_regSet s _ _ _ _).trans hdest
  have hstate' : loadState (tokCtrl s w) = true := hstate
  unfold tokLoad
  simp only [hk, hs, hb, hasks, hld, tokNoSlot_named hkind hslot, hempty, hdest', hstate', halign, Option.isSome_none, Bool.false_eq_true,
    Bool.not_true, if_false, ne_eq, not_true_eq_false]
  rfl

/-- It changes the load in progress and STATUS, and asks the host for the blob. -/
theorem tokLoad_underWay :
    ∃ regs ports atc outs, tokLoad (tokCtrl s w) = { s with tokLd := some (jobOf s w), regs, ports, atc, outs } ∧
      mapGet resetWord regs tokSt = ldWord 1 0 := by
  rw [tokLoad_starts hidle hkind hslot hvoc hgrm hdest hstate halign]
  obtain ⟨regs, hctrl⟩ := tokCtrl_regsOnly s w
  rw [hctrl]
  obtain ⟨ports, atc, outs, hask⟩ := askOwner_eq (regSet { s with tokLd := some (jobOf s w), regs } tokSt (ldWord 1 0)) (jobOf s w).host (jobOf s w).len
  exact ⟨_, ports, atc, outs, hask, regGet_regSet_same { s with tokLd := some (jobOf s w), regs } tokSt (ldWord 1 0)⟩

end Load

/-! ## What a write counts leaves the bytes, their poison and the tables alone (06 R122, R124; 08 R174) -/

/-- The state without what counting the errors of a read may touch: the registers, events, and memory's counts. -/
def State.sansNotes (s : State) : State :=
  { s.sansEvents with regs := [], mem := { s.mem with rowHits := [], copying := [], lastPoisonEvent := [] } }

theorem raise_sansNotes (s : State) (t : Nat) (c : EventCode) (b f n d : Nat) : (raise s t c b f n d).sansNotes = s.sansNotes :=
  congrArg (fun u : State => { u with regs := [], mem := { u.mem with rowHits := [], copying := [], lastPoisonEvent := [] } })
    (raise_sansEvents s t c b f n d)

theorem bump_sansNotes (s : State) (k lo n d : Nat) : (bump s k lo n d).sansNotes = s.sansNotes := rfl

theorem eventTime_sansNotes (s : State) (lastPoisonEvent : KMap Nat) :
    State.sansNotes { s with mem := { s.mem with lastPoisonEvent } } = s.sansNotes := rfl

theorem rowHits_sansNotes (s : State) (rowHits : KMap Nat) (copying : List RowId) :
    State.sansNotes { s with mem := { s.mem with rowHits, copying } } = s.sansNotes := rfl

theorem ite_sansNotes {p : Prop} [Decidable p] {a b s : State} (ha : a.sansNotes = s.sansNotes) (hb : b.sansNotes = s.sansNotes) :
    (if p then a else b).sansNotes = s.sansNotes := by
  split <;> assumption

theorem poisoning_sansNotes (s : State) (f : Nat) (o : Origin) (isFca : Bool) (a : Nat) (tn : Option Nat) :
    (poisoning s f o isFca a tn).sansNotes = s.sansNotes := by
  have hcount := bump_sansNotes s (fKey f 0x44) (poisonFld o) 8 1
  unfold poisoning
  generalize bump s (fKey f 0x44) (poisonFld o) 8 1 = u at hcount ⊢
  have howner (times : KMap Nat) (b n d : Nat) :
      (raise { u with mem := { u.mem with lastPoisonEvent := times } } 0 .poisonSet b f n d).sansNotes = s.sansNotes :=
    (raise_sansNotes _ _ _ _ _ _ _).trans ((eventTime_sansNotes u times).trans hcount)
  refine ite_sansNotes ((bump_sansNotes _ _ _ _ _).trans hcount) ?_
  cases tn with
  | none => exact howner _ _ _ _
  | some t => exact ite_sansNotes (howner _ _ _ _) ((raise_sansNotes _ _ _ _ _ _ _).trans (howner _ _ _ _))

theorem noteWeak_sansNotes (s : State) (g : Nat) : (noteWeak s g).sansNotes = s.sansNotes := by
  unfold noteWeak
  split
  · rfl
  · dsimp only
    split
    · next r _ =>
      obtain ⟨rowHits, copying, h⟩ := rowCorrected_eq (bump s (eccKey g) 16 16 1) r
      rw [h, rowHits_sansNotes, bump_sansNotes]
    · exact bump_sansNotes _ _ _ _ _

theorem noteRead_sansNotes (s : State) (t a n : Nat) : (noteRead s t a n).sansNotes = s.sansNotes := by
  unfold noteRead
  refine ite_sansNotes rfl ?_
  dsimp only
  rw [foldl_keeps State.sansNotes _ (fun _ _ => poisoning_sansNotes _ _ _ _ _ _), foldl_keeps State.sansNotes _ (fun _ _ => bump_sansNotes _ _ _ _ _),
    foldl_keeps State.sansNotes _ noteWeak_sansNotes]

theorem noteParts_sansNotes (s : State) (t a n : Nat) : (noteParts s t a n).sansNotes = s.sansNotes := by
  unfold noteParts
  exact ite_sansNotes rfl (foldl_keeps State.sansNotes _ (fun _ _ => noteRead_sansNotes _ _ _ _) _ _)

/-- Whatever does not look at registers, events and memory's counts is as it was before. -/
theorem noteParts_view {α : Type} (view : State → α) (hview : ∀ s : State, view s.sansNotes = view s) (s : State) (t a n : Nat) :
    view (noteParts s t a n) = view s := by
  rw [← hview, noteParts_sansNotes, hview]

/-! ## A write where no cache holds a line (05 R108) -/

theorem lineIn_mono {a n m l : Nat} (hnm : n ≤ m) (h : lineIn a n l = true) : lineIn a m l = true := by
  simp only [lineIn, Bool.and_eq_true, decide_eq_true_eq] at h ⊢
  omega

theorem cohBusy_mono {s : State} {a n m : Nat} (hnm : n ≤ m) (h : cohBusy s a n = true) : cohBusy s a m = true := by
  have hline {l : Nat} := lineIn_mono (a := a) (l := l) hnm
  simp only [cohBusy, Bool.or_eq_true, List.any_eq_true] at h ⊢
  refine h.imp (.imp (.imp ?_ ?_) ?_) ?_
  · exact fun ⟨x, hx, hin⟩ => ⟨x, hx, hline hin⟩
  · exact fun ⟨x, hx, hin⟩ => ⟨x, hx, hline hin⟩
  · exact fun ⟨x, hx, hin⟩ => ⟨x, hx, hline hin⟩
  · rintro ⟨x, hx, hin⟩
    refine ⟨x, hx, ?_⟩
    split at hin
    · exact hline hin
    · exact hline hin
    · cases hin

/-- A write inside bytes that no cache holds goes to memory at once. -/
theorem engWrite_quiet {s : State} {a n : Nat} {d : List Byte} (hquiet : homeQuiet s a n = true) (hlen : d.length ≤ n) (t : Nat) :
    engWrite s t a d = memWrite (noteParts s t a d.length) a d := by
  simp only [homeQuiet, Bool.and_eq_true, Bool.not_eq_true', List.all_eq_true] at hquiet
  obtain ⟨hfree, hnone⟩ := hquiet
  have hbusy : cohBusy s a d.length = false := by
    by_contra h
    rw [cohBusy_mono hlen (by simpa using h)] at hfree
    cases hfree
  have hheld : (keysOf s.coh.dir).filter (lineIn a d.length) = [] := by
    rw [List.filter_eq_nil_iff]
    intro l hl hin
    have hout := hnone l hl
    rw [lineIn_mono hlen hin] at hout
    cases hout
  rw [engWrite, hbusy, if_neg Bool.false_ne_true, collect, hheld]
  rfl

theorem memPoison_eq_none {s : State} {a n : Nat} : memPoison s a n = none ↔
    n = 0 ∨ ∀ g ∈ granulesOf a n, look s.mem.poison g = none ∧ g ∉ s.mem.broken := by
  unfold memPoison
  split
  · next h => simp [h]
  · next h =>
    rw [List.findSome?_eq_none_iff]
    simp only [h, false_or]
    refine forall₂_congr fun g _ => ?_
    cases look s.mem.poison g <;> simp

theorem cleanWrite_broken_subset (m : Memory) (a n : Nat) : (cleanWrite m a n).broken ⊆ m.broken :=
  fun g hg => (cleanWrite_noNewErrors m a n g).1 hg |>.1

/-- A clean write poisons no granule but one whose cells are in error. -/
theorem look_cleanWrite_sound {m : Memory} {g : Nat} (hpoison : look m.poison g = none) (hsound : g ∉ m.broken) (a n : Nat) :
    look (cleanWrite m a n).poison g = none := by
  unfold cleanWrite
  split
  · exact hpoison
  · have hout : g ∉ (granulesOf a n).filter (fun g => m.broken.contains g && !covers a n g) := by simp [hsound]
    dsimp only
    rw [look_foldl_place _ hout]
    exact foldl_inv (look · g = none) _ (fun _ x h => look_remove_none x h) _ _ hpoison

/-- Bytes without poison hold none after a clean write of any bytes. -/
theorem memPoison_memWrite {s : State} {a n : Nat} (h : memPoison s a n = none) (b : Nat) (d : List Byte) :
    memPoison (memWrite s b d) a n = none := by
  rw [memPoison_eq_none] at h ⊢
  refine h.imp_right fun hsound g hg => ?_
  obtain ⟨hpoison, hcells⟩ := hsound g hg
  exact ⟨look_cleanWrite_sound hpoison hcells _ _, fun hg => hcells (cleanWrite_broken_subset _ _ _ hg)⟩

/-! ## The checks of a blob (09 R178, R195) -/

theorem trieCheck_reason {b : List Byte} {len : Nat} {x : Nat × Nat} (h : trieCheck b len = some x) : x.1 ≠ 0 := by
  unfold trieCheck at h
  repeat' split at h
  all_goals cases h
  all_goals exact Nat.succ_ne_zero _

theorem grmCheck_reason {b : List Byte} {len : Nat} {voc : Option VocSlot} {x : Nat × Nat} (h : grmCheck b len voc = some x) : x.1 ≠ 0 := by
  unfold grmCheck at h
  split at h
  · cases h; exact Nat.one_ne_zero
  · split at h
    · cases h; exact Nat.succ_ne_zero 1
    · split at h
      · cases h; exact Nat.succ_ne_zero 6
      · split at h
        · cases h; exact Nat.succ_ne_zero 6
        · split at h
          · cases h; exact Nat.one_ne_zero
          · obtain ⟨_, _, rfl⟩ := Option.map_eq_some_iff.mp h
            exact Nat.one_ne_zero

/-- A check that fails gives a reason. -/
theorem tokCheck_reason {s : State} {j : LoadJob} {b : List Byte} {x : Nat × Nat} (h : tokCheck s j b = some x) : x.1 ≠ 0 := by
  unfold tokCheck at h
  split at h
  · exact trieCheck_reason h
  · exact grmCheck_reason h

/-! ## TOK_LOAD_DONE (09 R178, R195) -/

/-- The blob of a load copied to its destination. -/
def blobCopied (s : State) (j : LoadJob) (b : List Byte) : State := engWrite (backOwner { s with tokLd := none } j.host j.len) 0 j.dest b

/-- A load's destination, where the copy meets no cache and no poison. -/
structure MayCopy (s : State) (j : LoadJob) : Prop where
  load : s.tokLd = some j
  dest : destOk s j.dest j.len = true
  live : rangeLive s j.dest (max j.len 1) = true
  quiet : homeQuiet s j.dest j.len = true
  clean : memPoison s j.dest j.len = none

/-- From s to u a load's blob was copied, and of the rest the tables of the token block and the requests stand. -/
structure BlobCopied (s u : State) (j : LoadJob) (b : List Byte) : Prop where
  load : u.tokLd = none
  voc : u.voc = s.voc
  grm : u.grm = s.grm
  unloads : u.tokUnld = s.tokUnld
  requests : u.requests = s.requests
  byte : ∀ a, memByte u a = if j.dest ≤ a ∧ a < j.dest + b.length then b.getD (a - j.dest) 0#8 else memByte s a
  clean : memPoison u j.dest j.len = none

section Copy
variable {s : State} {j : LoadJob}

theorem MayCopy.copied (h : MayCopy s j) {b : List Byte} (hlen : b.length ≤ j.len) : BlobCopied s (blobCopied s j b) j b := by
  obtain ⟨ports, atc, outs, hback⟩ := backOwner_eq { s with tokLd := none } j.host j.len
  rw [blobCopied, hback]
  generalize hv : ({ s with tokLd := none, ports, atc, outs } : State) = v
  have hquiet : homeQuiet v j.dest j.len = true := by rw [← hv]; exact h.quiet
  have hclean : memPoison v j.dest j.len = none := by rw [← hv]; exact h.clean
  rw [engWrite_quiet hquiet hlen]
  have hnotes {α : Type} (view : State → α) (hview : ∀ s : State, view s.sansNotes = view s) := noteParts_view view hview v 0 j.dest b.length
  exact {
    load := (hnotes State.tokLd fun _ => rfl).trans (by rw [← hv])
    voc := (hnotes State.voc fun _ => rfl).trans (by rw [← hv])
    grm := (hnotes State.grm fun _ => rfl).trans (by rw [← hv])
    unloads := (hnotes State.tokUnld fun _ => rfl).trans (by rw [← hv])
    requests := (hnotes State.requests fun _ => rfl).trans (by rw [← hv])
    byte := fun a => by
      rw [memByte_memWrite, hnotes (memByte · a) fun _ => rfl, ← hv]
      rfl
    clean := memPoison_memWrite ((hnotes (memPoison · j.dest j.len) fun _ => rfl).trans hclean) _ _ }

theorem tokCheck_congr {u : State} (h : u.voc = s.voc) (b : List Byte) : tokCheck u j b = tokCheck s j b := by
  rw [tokCheck, tokCheck, h]

/-- A copy passes the checks before the blob's own. -/
theorem MayCopy.passes (h : MayCopy s j) {b : List Byte} (hlen : b.length ≤ j.len) :
    destOk (backOwner { s with tokLd := none } j.host j.len) j.dest j.len = true ∧
    rangeLive (backOwner { s with tokLd := none } j.host j.len) j.dest (max j.len 1) = true ∧
    memPoison (blobCopied s j b) j.dest j.len = none ∧ tokCheck (blobCopied s j b) j b = tokCheck s j b := by
  have hcopied := h.copied hlen
  obtain ⟨ports, atc, outs, hback⟩ := backOwner_eq { s with tokLd := none } j.host j.len
  refine ⟨?_, ?_, hcopied.clean, tokCheck_congr hcopied.voc b⟩ <;> rw [hback]
  · exact h.dest
  · exact h.live

theorem MayCopy.tokDone_refused (h : MayCopy s j) {blob : List Byte} {x : Nat × Nat} (hcheck : tokCheck s j (blob.take j.len) = some x) :
    ∃ u, BlobCopied s u j (blob.take j.len) ∧ tokDone s blob .good = ldEnd u tokSt x.1 x.2 := by
  have hlen := List.length_take_le j.len blob
  refine ⟨_, h.copied hlen, ?_⟩
  obtain ⟨hdest, hlive, hclean, hsame⟩ := h.passes hlen
  rw [hcheck, blobCopied] at hsame
  rw [blobCopied] at hclean ⊢
  simp only [tokDone, h.load, heard, hdest, hlive, hclean, hsame, Bool.not_true, Bool.false_eq_true, or_self, if_false, Option.isSome_none]

theorem MayCopy.tokDone_placed (h : MayCopy s j) {blob : List Byte} (hcheck : tokCheck s j (blob.take j.len) = none)
    (hunloads : s.tokUnld = []) :
    ∃ u, BlobCopied s u j (blob.take j.len) ∧ tokDone s blob .good = ldEnd (tokPlace u j (blob.take j.len)) tokSt 0 0 := by
  have hlen := List.length_take_le j.len blob
  refine ⟨_, h.copied hlen, ?_⟩
  obtain ⟨hdest, hlive, hclean, hsame⟩ := h.passes hlen
  have hnone : (blobCopied s j (blob.take j.len)).tokUnld = [] := (h.copied hlen).unloads.trans hunloads
  rw [hcheck, blobCopied] at hsame
  rw [blobCopied] at hclean hnone ⊢
  simp only [tokDone, h.load, heard, hdest, hlive, hclean, hsame, hnone, ldDone, List.isEmpty_nil, Bool.not_true, Bool.false_eq_true, or_self,
    if_false, Option.isSome_none]

end Copy

/-- The state with the slot of a load that passed its checks in its table. -/
def slotLoaded (s : State) (j : LoadJob) (b : List Byte) : State :=
  { s with
    voc := if j.kind = 0 then
        place s.voc j.slot ⟨j.dest, j.len, vocSize b, rdLe b 16 8, false, rootOff b, slice b (rootOff b) (rdLe b 32 4)⟩
      else s.voc
    grm := if j.kind = 0 then s.grm else place s.grm j.slot ⟨j.dest, j.len, j.bind, rdLe b 8 4, false⟩ }

/-- Placing a slot changes its table and the registers that show it. -/
theorem tokPlace_regsOnly (s : State) (j : LoadJob) (b : List Byte) : RegsOnly (slotLoaded s j b) (tokPlace s j b) := by
  unfold tokPlace slotLoaded
  by_cases hk : j.kind = 0
  · simp only [if_pos hk]
    exact (((RegsOnly.refl _).regSet _ _).regSet _ _).regSet _ _
  · simp only [if_neg hk]
    exact (RegsOnly.refl _).regSet _ _

theorem memByte_congr {s t : State} (h : t.mem = s.mem) (a : Nat) : memByte t a = memByte s a := by
  rw [memByte, memByte, h]

theorem memRead_congr {s t : State} (h : t.mem = s.mem) (a n : Nat) : memRead t a n = memRead s a n :=
  List.map_congr_left fun b _ => memByte_congr h b

/-- Memory after the copy holds the blob at the destination. -/
theorem BlobCopied.holds {s u : State} {j : LoadJob} {b : List Byte} (h : BlobCopied s u j b) :
    memRead u j.dest b.length = b := by
  refine List.ext_getElem (length_memRead _ _ _) fun i hi hb => ?_
  rw [← List.getD_eq_getElem _ 0#8 hi, ← List.getD_eq_getElem _ 0#8 hb, getD_memRead u j.dest hb, h.byte,
    if_pos ⟨Nat.le_add_right _ _, Nat.add_lt_add_left hb _⟩, Nat.add_sub_cancel_left]

/-! ## UNLOAD and SLOT_UNLOAD_DONE (09 R181) -/

/-- Without requests no name is pinned. -/
theorem pinNames_idle {s : State} (h : s.requests = []) (hit : SlotName → Bool) : pinNames s hit = s := by
  have hnone (f : Nat × Request → Nat × Request) : s.requests.map f = s.requests := by rw [h]; rfl
  rw [pinNames, hnone]

theorem nameHeld_idle {s : State} (hrequests : s.requests = []) (hpools : s.pools = []) (kind slot : Nat) :
    nameHeld s (tokName kind slot) = false := by
  unfold nameHeld tokName
  rw [hrequests, hpools]
  by_cases h : kind = 0
  · rw [if_pos h]
    rfl
  · rw [if_neg h]
    rfl

theorem unldEnd_busy {s : State} {k : Nat} (h : fld (regGet s k) 28 4 = 1) : unldEnd s k false = ldEnd s k 0 0 := by
  simp [unldEnd, h]

/-- The state without the token slot `slot` of a kind, and with no UNLOAD waiting. -/
def slotEmptied (s : State) (k slot : Nat) : State :=
  { s with
    tokUnld := []
    voc := if k = 0 then remove s.voc slot else s.voc
    grm := if k = 0 then s.grm else remove s.grm slot }

/-- The registers that show a slot of a kind read 0 for one that is empty; STATUS is not among them. -/
theorem tokEmptyOne_last {s : State} {k slot : Nat} (hone : s.tokUnld = [(k, slot)]) (hfree : nameHeld s (tokName k slot) = false) :
    ∃ u, RegsOnly (slotEmptied s k slot) u ∧ regGet u tokSt = regGet s tokSt ∧
      tokEmptyOne s (k, slot) = unldEnd u tokSt (u.tokLd.isSome || !u.tokUnld.isEmpty) := by
  have hlast : s.tokUnld.filter (fun y => y != (k, slot)) = [] := by simp [hone]
  have hne (base step : Nat) (hbase : 0x80018 < base) : aKey (base + step * slot) ≠ tokSt := by
    rw [tokSt, aKey, aKey]
    omega
  unfold tokEmptyOne slotEmptied
  rw [hfree, if_neg Bool.false_ne_true]
  dsimp only
  rw [hlast]
  by_cases hk : k = 0
  · simp only [if_pos hk]
    refine ⟨_, (((RegsOnly.refl _).regSet _ _).regSet _ _).regSet _ _, ?_, rfl⟩
    rw [regGet_regSet_ne _ _ _ _ (hne 0x80204 8 (by decide)), regGet_regSet_ne _ _ _ _ (hne 0x80200 8 (by decide)),
      regGet_regSet_ne _ _ _ _ (hne 0x80100 4 (by decide))]
    rfl
  · simp only [if_neg hk]
    refine ⟨_, (RegsOnly.refl _).regSet _ _, ?_, rfl⟩
    rw [regGet_regSet_ne _ _ _ _ (hne 0x80400 4 (by decide))]
    rfl

/-- The one slot that an UNLOAD waits for becomes empty, and the UNLOAD is done, once nothing uses it. -/
theorem tokEmpty_last {s : State} {k slot : Nat} (hone : s.tokUnld = [(k, slot)]) (hfree : nameHeld s (tokName k slot) = false)
    (hidle : s.tokLd = none) (hbusy : fld (regGet s tokSt) 28 4 = 1) :
    RegsOnly (slotEmptied s k slot) (tokEmpty s) ∧ regGet (tokEmpty s) tokSt = ldWord 2 0 := by
  obtain ⟨u, hregs, hstatus, hempty⟩ := tokEmptyOne_last hone hfree
  have hdone : tokEmpty s = ldEnd u tokSt 0 0 := by
    have hrest : (u.tokLd.isSome || !u.tokUnld.isEmpty) = false := by
      obtain ⟨_, rfl⟩ := hregs
      exact congrArg (Option.isSome · || false) hidle
    rw [tokEmpty, hone, List.foldl_cons, List.foldl_nil, hempty, hrest, unldEnd_busy (by rw [hstatus, hbusy])]
  rw [hdone]
  exact ⟨hregs.ldEnd _ _ _, regGet_ldEnd_status _ _ _ _⟩

/-- The state with a slot marked as being unloaded, if it is loaded. -/
def unloadMarked (s : State) (kind slot : Nat) : State :=
  if kind = 0 then
    match look s.voc slot with | some v => { s with voc := place s.voc slot { v with unloading := true } } | none => s
  else match look s.grm slot with | some g => { s with grm := place s.grm slot { g with unloading := true } } | none => s

/-- A mark changes the slot's own entry alone, and so nothing once the slot is empty. -/
theorem unloadMarked_eq (s : State) (kind slot : Nat) : ∃ voc grm, unloadMarked s kind slot = { s with voc, grm } ∧
    (kind = 0 → grm = s.grm ∧ ∀ n, n ≠ slot → look voc n = look s.voc n) ∧
    (kind ≠ 0 → voc = s.voc ∧ ∀ n, n ≠ slot → look grm n = look s.grm n) := by
  unfold unloadMarked
  split
  · next hk =>
    split
    · exact ⟨_, _, rfl, fun _ => ⟨rfl, fun n hn => look_place_ne _ _ _ _ hn.symm⟩, fun h => absurd hk h⟩
    · exact ⟨_, _, rfl, fun _ => ⟨rfl, fun _ _ => rfl⟩, fun h => absurd hk h⟩
  · next hk =>
    split
    · exact ⟨_, _, rfl, fun h => absurd h hk, fun _ => ⟨rfl, fun n hn => look_place_ne _ _ _ _ hn.symm⟩⟩
    · exact ⟨_, _, rfl, fun h => absurd h hk, fun _ => ⟨rfl, fun _ _ => rfl⟩⟩

/-- The state with a slot last among those that an UNLOAD waits for. -/
def unloadWaits (s : State) (x : Nat × Nat) : State := { s with tokUnld := s.tokUnld.filter (fun y => y != x) ++ [x] }

/-- The cases of an UNLOAD, while no load is in progress, by the KIND and SLOT that TOK_LD_CTRL holds. -/
theorem tokUnload_eq {s : State} {kind slot : Nat} (hidle : s.tokLd = none) (hkind : fld (regGet s (aKey 0x80014)) 4 2 = kind)
    (hslot : fld (regGet s (aKey 0x80014)) 8 6 = slot) : tokUnload s =
      if tokNoSlot kind slot then ldEnd s tokSt 1 0
      else if kind = 0 ∧ s.grm.any (fun g => g.2.bind == slot) ∧ (look s.voc slot).isSome then ldEnd s tokSt 6 0
      else tokEmpty (regSet (unloadWaits (unloadMarked (pinNames s (fun x => x == tokName kind slot)) kind slot) (kind, slot))
        tokSt (ldWord 1 0)) := by
  subst hkind hslot
  have hnone : ¬ s.tokLd.isSome = true := by simp [hidle]
  exact if_neg hnone

section Unload
variable {s : State} {w : Word} (hidle : s.tokLd = none)
include hidle

theorem tokUnload_noSlot (hkind : 2 ≤ fld w 4 2) : tokUnload (tokCtrl s w) = ldEnd (tokCtrl s w) tokSt 1 0 := by
  obtain ⟨hk, hs, -⟩ := fld_tokCtrl s w
  have hld : (tokCtrl s w).tokLd = none := hidle
  have hnoSlot : tokNoSlot (fld w 4 2) (fld w 8 6) = true := by simp [tokNoSlot, hkind]
  rw [tokUnload_eq hld hk hs, if_pos hnoSlot]

variable (hkind : fld w 4 2 < 2) (hslot : fld w 4 2 = 0 → fld w 8 6 < 16)
include hkind hslot

/-- An UNLOAD of a vocabulary to which a grammar is bound is refused. -/
theorem tokUnload_bound (hvocab : fld w 4 2 = 0) (hbound : s.grm.any (fun g => g.2.bind == fld w 8 6) = true)
    (hloaded : (look s.voc (fld w 8 6)).isSome = true) : tokUnload (tokCtrl s w) = ldEnd (tokCtrl s w) tokSt 6 0 := by
  obtain ⟨hk, hs, -⟩ := fld_tokCtrl s w
  have hld : (tokCtrl s w).tokLd = none := hidle
  rw [tokUnload_eq hld hk hs, tokNoSlot_named hkind hslot, if_neg Bool.false_ne_true]
  exact if_pos ⟨hvocab, hbound, hloaded⟩

/-- An UNLOAD of a slot that nothing needs is accepted. -/
theorem tokUnload_accepted (hunbound : fld w 4 2 = 0 → s.grm.any (fun g => g.2.bind == fld w 8 6) = false) (hunloads : s.tokUnld = [])
    (hrequests : s.requests = []) : ∃ voc grm,
      tokUnload (tokCtrl s w) = tokEmpty (regSet { tokCtrl s w with tokUnld := [(fld w 4 2, fld w 8 6)], voc, grm } tokSt (ldWord 1 0)) ∧
      (fld w 4 2 = 0 → grm = s.grm ∧ ∀ n, n ≠ fld w 8 6 → look voc n = look s.voc n) ∧
      (fld w 4 2 ≠ 0 → voc = s.voc ∧ ∀ n, n ≠ fld w 8 6 → look grm n = look s.grm n) := by
  obtain ⟨hk, hs, -⟩ := fld_tokCtrl s w
  have hld : (tokCtrl s w).tokLd = none := hidle
  have hnone : (tokCtrl s w).tokUnld = [] := hunloads
  have hpin (hit : SlotName → Bool) : pinNames (tokCtrl s w) hit = tokCtrl s w := pinNames_idle (s := tokCtrl s w) hrequests hit
  obtain ⟨voc, grm, hmarked, hvocab, hgrammar⟩ := unloadMarked_eq (tokCtrl s w) (fld w 4 2) (fld w 8 6)
  refine ⟨voc, grm, ?_, hvocab, hgrammar⟩
  rw [tokUnload_eq hld hk hs, tokNoSlot_named hkind hslot, if_neg Bool.false_ne_true, if_neg, hpin, hmarked, unloadWaits]
  · dsimp only
    rw [hnone]
    rfl
  · rintro ⟨hzero, hbound, -⟩
    exact Bool.false_ne_true ((hunbound hzero).symm.trans hbound)

/-- An UNLOAD of a slot that nothing needs or uses empties it at once. -/
theorem tokUnload_empties (hunbound : fld w 4 2 = 0 → s.grm.any (fun g => g.2.bind == fld w 8 6) = false) (hunloads : s.tokUnld = [])
    (hrequests : s.requests = []) (hpools : s.pools = []) : ∃ voc grm regs,
      tokUnload (tokCtrl s w) = { s with voc, grm, regs } ∧ regGet (tokUnload (tokCtrl s w)) tokSt = ldWord 2 0 ∧
      (fld w 4 2 = 0 → look voc (fld w 8 6) = none ∧ grm = s.grm ∧ ∀ n, n ≠ fld w 8 6 → look voc n = look s.voc n) ∧
      (fld w 4 2 ≠ 0 → look grm (fld w 8 6) = none ∧ voc = s.voc ∧ ∀ n, n ≠ fld w 8 6 → look grm n = look s.grm n) := by
  obtain ⟨voc, grm, htaken, hvocab, hgrammar⟩ := tokUnload_accepted hidle hkind hslot hunbound hunloads hrequests
  obtain ⟨⟨regs, hempty⟩, hdone⟩ := tokEmpty_last
    (s := regSet { tokCtrl s w with tokUnld := [(fld w 4 2, fld w 8 6)], voc, grm } tokSt (ldWord 1 0)) rfl
    (nameHeld_idle hrequests hpools _ _) hidle (by rw [regGet_regSet_same]; decide)
  refine ⟨if fld w 4 2 = 0 then remove voc (fld w 8 6) else voc, if fld w 4 2 = 0 then grm else remove grm (fld w 8 6), regs,
    (htaken.trans hempty).trans ?_, by rw [htaken, hdone], fun hzero => ?_, fun hone => ?_⟩
  · rw [slotEmptied, ← hunloads]
    rfl
  · obtain ⟨hgrm, hother⟩ := hvocab hzero
    simp only [hzero, if_true]
    exact ⟨look_remove_same _ _, hgrm, fun n hn => (look_remove_ne _ _ _ hn.symm).trans (hother n hn)⟩
  · obtain ⟨hvoc, hother⟩ := hgrammar hone
    simp only [hone, if_false]
    exact ⟨look_remove_same _ _, hvoc, fun n hn => (look_remove_ne _ _ _ hn.symm).trans (hother n hn)⟩

end Unload

/-- With no troy slot, none is settled. -/
theorem troySettle_none {s : State} (h : s.troy = []) (n : Nat) : troySettle s n = s := by
  have hempty : troyOf s n = troyEmpty := by rw [troyOf, h]; rfl
  obtain ⟨hunload, holds, hswap⟩ : (troyOf s n).unload = none ∧ (troyOf s n).olds = [] ∧ (troyOf s n).swapWait = none := by
    rw [hempty]
    exact ⟨rfl, rfl, rfl⟩
  unfold troySettle
  simp only [hunload, holds, List.all_nil, if_true, hswap]

theorem slotUnloadDone_alone {s : State} (halive : alive s = true) (hsrch : (tokEmpty s).srchUnld = []) (htpl : (tokEmpty s).tplUnld = [])
    (htroy : (tokEmpty s).troy = []) : exec .slotUnloadDone s = .next (tokEmpty s) := by
  have hsettled : (upto 64).foldl troySettle (tokEmpty s) = tokEmpty s := List.foldl_fixed' (troySettle_none htroy) _
  have hrest : clpEmpty (srchEmpty (tokEmpty s)) = tokEmpty s := by
    rw [srchEmpty, hsrch, List.foldl_nil, clpEmpty, htpl, List.foldl_nil]
  refine congrArg Host.Outcome.next ((if_pos halive).trans ?_)
  rw [hrest, hsettled]

/-! ## The statement -/

theorem exec_tokLdLoad {s : State} (halive : alive s = true) (w : Word) : exec (.tokLdLoad w) s = .next (tokLoad (tokCtrl s w)) :=
  congrArg Host.Outcome.next (if_pos halive)

theorem exec_tokLdUnload {s : State} (halive : alive s = true) (w : Word) : exec (.tokLdUnload w) s = .next (tokUnload (tokCtrl s w)) :=
  congrArg Host.Outcome.next (if_pos halive)

theorem exec_tokLoadDone {s : State} (halive : alive s = true) (blob : List Byte) (st : ReadStatus) :
    exec (.tokLoadDone blob st) s = .next (tokDone s blob st) :=
  congrArg Host.Outcome.next (if_pos halive)

/-- Settles O42: a TOKENIZE or DETOKENIZE whose checks pass by what its work gives, the tokens by their lengths, and the loader's
commands by the lemma that says each case of them. That LOAD and UNLOAD of KIND 2 or 3 are refused with reason 1 is the model's choice
(log 157). -/
theorem tokenCommandsComplete : Obligations.TokenCommandsComplete := by
  unfold Obligations.TokenCommandsComplete
  refine ⟨?tokenize, fun v b nodes p hp => mem_coldParts.mp hp, fun b l => sum_len_tokenizeAll b le_rfl 0, ?detokenize, detokCore_spec,
    ?noSlot, ?load, ?loaded, ?unload, ?emptied⟩
  case tokenize =>
    intro s s1 s2 tag f r v inp o hr hservice hbad hext hvoc hunit hread offs hcore d hout
    exact congrArg Host.Outcome.next (runOp_ok hr hservice (tokenizeRun_ok hbad hext hvoc hunit hread hcore hout))
  case detokenize =>
    intro s s1 tag f r v inp hr hservice hbad hext hstops hrecord hvoc hunit hread b ts out hrange parts s2 hclean hroom hout
    exact congrArg Host.Outcome.next (runOp_ok hr hservice
      (detokenizeRun_ok hbad hext hstops hrecord hvoc hunit hread rfl rfl hrange hclean rfl hroom hout))
  case noSlot =>
    intro s w halive hidle hkind
    exact ⟨_, _, exec_tokLdLoad halive w |>.trans (congrArg _ (tokLoad_noSlot hidle hkind)),
      exec_tokLdUnload halive w |>.trans (congrArg _ (tokUnload_noSlot hidle hkind)),
      regGet_ldEnd_status _ _ _ _, regGet_ldEnd_status _ _ _ _, ((tokCtrl_regsOnly s w).ldEnd _ _ _).frame,
      ((tokCtrl_regsOnly s w).ldEnd _ _ _).frame⟩
  case load =>
    intro s w halive hidle hkind hslot dest host len hvoc hgrm hdest hstate halign
    obtain ⟨regs, ports, atc, outs, hload, hstatus⟩ := tokLoad_underWay hidle hkind hslot hvoc hgrm hdest hstate halign
    exact ⟨_, (exec_tokLdLoad halive w).trans (congrArg _ hload), rfl, hstatus, rfl⟩
  case loaded =>
    intro s blob j halive hload hunloads hkind hdest hlive hquiet hclean
    have hmay : MayCopy s j := ⟨hload, hdest, hlive, hquiet, hclean⟩
    refine ⟨fun x hcheck => ?_, fun hcheck hlen => ?_⟩
    · obtain ⟨u, hcopied, hdone⟩ := hmay.tokDone_refused hcheck
      have hstatus := regGet_ldEnd_status u tokSt x.1 x.2
      have hwhere := regGet_ldEnd_where u tokSt x.1 x.2
      obtain ⟨regs, hend⟩ := (RegsOnly.refl u).ldEnd tokSt x.1 x.2
      rw [if_neg (tokCheck_reason hcheck), hend] at hstatus
      rw [hend] at hdone hwhere
      exact ⟨_, (exec_tokLoadDone halive blob .good).trans (congrArg _ hdone), hcopied.load, hcopied.voc, hcopied.grm, hstatus, hwhere⟩
    · obtain ⟨u, hcopied, hdone⟩ := hmay.tokDone_placed hcheck hunloads
      have hstatus := regGet_ldEnd_status (tokPlace u j (blob.take j.len)) tokSt 0 0
      obtain ⟨regs, hend⟩ := (tokPlace_regsOnly u j (blob.take j.len)).ldEnd tokSt 0 0
      rw [hend] at hdone hstatus
      have hwhole : (blob.take j.len).length = j.len := List.length_take_of_le hlen
      have hread := hcopied.holds
      rw [hwhole] at hread
      refine ⟨_, (exec_tokLoadDone halive blob .good).trans (congrArg _ hdone), hcopied.load, hstatus, fun hvocab => ?_,
        fun hgrammar => ?_, (memRead_congr rfl _ _).trans hread, fun a hout => ?_, hcopied.requests⟩
      · simp only [slotLoaded, hvocab, if_true]
        exact ⟨look_place_same _ _ _, hcopied.grm⟩
      · simp only [slotLoaded, show ¬ j.kind = 0 by omega, if_false]
        exact ⟨look_place_same _ _ _, hcopied.voc⟩
      · exact (memByte_congr rfl a).trans ((hcopied.byte a).trans (if_neg (by omega)))
  case unload =>
    intro s w halive hidle hkind hslot
    refine ⟨fun hvocab hbound hloaded => ?_, fun hunbound hunloads hrequests hpools => ?_⟩
    · exact ⟨_, (exec_tokLdUnload halive w).trans (congrArg _ (tokUnload_bound hidle hkind hslot hvocab hbound hloaded)),
        regGet_ldEnd_status _ _ _ _, ((tokCtrl_regsOnly s w).ldEnd _ _ _).frame⟩
    · obtain ⟨voc, grm, regs, hempties, hdone, hvocab, hgrammar⟩ :=
        tokUnload_empties hidle hkind hslot hunbound hunloads hrequests hpools
      refine ⟨_, (exec_tokLdUnload halive w).trans (congrArg _ hempties), hunloads, ?_, hvocab, fun hone => hgrammar (by omega), rfl⟩
      rw [← hempties, hdone]
  case emptied =>
    intro s k slot halive hone hfree hidle hbusy hsrch htpl htroy
    obtain ⟨⟨regs, hempty⟩, hdone⟩ := tokEmpty_last hone hfree hidle hbusy
    refine ⟨_, slotUnloadDone_alone halive (by rw [hempty]; exact hsrch) (by rw [hempty]; exact htpl) (by rw [hempty]; exact htroy),
      by rw [hempty]; rfl, hdone, ?_⟩
    rw [hempty]
    split
    · next hk => exact ⟨by simp [slotEmptied, hk], by simp [slotEmptied, hk]⟩
    · next hk => exact ⟨by simp [slotEmptied, hk], by simp [slotEmptied, hk]⟩

end Sys2Proof.Machine
end

section
/-! SUPPORT. GATHER: how its row reads issue, what its start does once its inputs are read, and what an arrival of a row does
(10 R205 to R209; 01 R26; 17 R385). -/
namespace Sys2Proof.Machine

/-! ## Reads that issue (10 R209) -/

theorem issueJob_eq (tag n : Nat) (s : State) : ∃ gathers, issueJob tag n s = { s with gathers } := by
  induction n generalizing s with
  | zero => exact ⟨_, rfl⟩
  | succ n ih =>
    unfold issueJob
    split
    · split
      · split
        · exact ih _
        · exact ⟨_, rfl⟩
      · exact ⟨_, rfl⟩
    · exact ⟨_, rfl⟩

/-- The loop of `issueReads` that raises GTH_READS_PEAK on each facet with reads outstanding. -/
def peaksShown (s : State) : State :=
  (upto 8).foldl (fun s f => if flyingOn s f = 0 then s else peak s (fKey f 0x70010) 0 11 (flyingOn s f)) s

/-- The loop of `issueReads` over the gathers. -/
def jobsIssued (s : State) : State := s.gathers.foldl (fun s g => issueJob g.1 g.2.queue.length s) s

theorem issueReads_def (s : State) : issueReads s = peaksShown (jobsIssued s) := rfl

theorem peaksShown_regsOnly (s : State) : RegsOnly s (peaksShown s) := by
  refine foldl_inv (RegsOnly s) _ (fun u f hu => ?_) _ _ (RegsOnly.refl s)
  split
  · exact hu
  · exact hu.regSet _ _

theorem gathers_peaksShown (s : State) : (peaksShown s).gathers = s.gathers := by
  obtain ⟨_, h⟩ := peaksShown_regsOnly s
  rw [h]

/-- Issuing reads changes the gathers and the peaks alone. -/
theorem issueReads_eq (s : State) : ∃ gathers regs, issueReads s = { s with gathers, regs } := by
  obtain ⟨gathers, hjobs⟩ : ∃ gathers, jobsIssued s = { s with gathers } := by
    refine foldl_inv (fun u : State => ∃ gathers, u = { s with gathers }) _ ?_ _ _ ⟨_, rfl⟩
    rintro _ g ⟨_, rfl⟩
    exact issueJob_eq _ _ _
  obtain ⟨regs, hpeaks⟩ := peaksShown_regsOnly (jobsIssued s)
  exact ⟨gathers, regs, by rw [issueReads_def, hpeaks, hjobs]⟩

/-- A gather with no read waiting stays as it is while another one's reads issue. -/
theorem look_issueJob_issued {s : State} {tag : Nat} {j : GatherJob} (hjob : look s.gathers tag = some j) (hissued : j.queue = [])
    (other n : Nat) : look (issueJob other n s).gathers tag = some j := by
  induction n generalizing s with
  | zero => exact hjob
  | succ n ih =>
    unfold issueJob
    split
    · next i hi =>
      split
      · next p ps hqueue =>
        have hne : other ≠ tag := by
          rintro rfl
          obtain rfl : i = j := Option.some.inj (hi.symm.trans hjob)
          exact List.cons_ne_nil p ps (hqueue.symm.trans hissued)
        split
        · exact ih ((look_place_ne _ _ _ _ hne).trans hjob)
        · exact hjob
      · exact hjob
    · exact hjob

theorem look_issueReads_issued {s : State} {tag : Nat} {j : GatherJob} (hjob : look s.gathers tag = some j) (hissued : j.queue = []) :
    look (issueReads s).gathers tag = some j := by
  rw [issueReads_def, gathers_peaksShown]
  exact foldl_inv (fun u : State => look u.gathers tag = some j) _ (fun _ g hu => look_issueJob_issued hu hissued g.1 _) _ _ hjob

/-- All the reads of a gather fit the bounds on the reads outstanding (01 R26; 10 R209; 17 R385). -/
structure FitsBounds (reads : List (Nat × Nat)) : Prop where
  engine : reads.length ≤ 1024
  stack : ∀ k, (reads.filter (fun p => stackOf p.1 == some k)).length ≤ 512

/-- The next waiting read of the only gather may issue, if its reads fit the bounds. -/
theorem mayIssue_alone {s : State} {tag : Nat} {j : GatherJob} {p : Nat × Nat} {ps : List (Nat × Nat)} (halone : s.gathers = [(tag, j)])
    (hfits : FitsBounds (j.flying ++ p :: ps)) : mayIssue s j.input.facet p.1 = true := by
  have hengine : flyingOn s j.input.facet < 1024 := by
    have hall := hfits.engine
    rw [List.length_append, List.length_cons] at hall
    simp only [flyingOn, halone, List.filter_cons, decide_true, if_true, List.filter_nil, List.map_cons,
      List.map_nil, List.sum_cons, List.sum_nil]
    omega
  rw [mayIssue, decide_eq_true hengine, Bool.true_and]
  split
  · next k hstack =>
    have hall := hfits.stack k
    rw [List.filter_append, List.filter_cons_of_pos (by rw [hstack, beq_self_eq_true]), List.length_append, List.length_cons] at hall
    refine decide_eq_true ?_
    simp only [stackReads, halone, List.map_cons, List.map_nil, List.sum_cons, List.sum_nil]
    omega
  · rfl

/-- The gather with every waiting read issued. -/
def GatherJob.issued (j : GatherJob) : GatherJob := { j with queue := [], flying := j.flying ++ j.queue }

theorem issueJob_alone {tag : Nat} {queue : List (Nat × Nat)} {s : State} {j : GatherJob} (halone : s.gathers = [(tag, j)])
    (hqueue : j.queue = queue) (hfits : FitsBounds (j.flying ++ queue)) :
    (issueJob tag queue.length s).gathers = [(tag, j.issued)] := by
  induction queue generalizing s j with
  | nil =>
    rw [List.length_nil, issueJob, halone, GatherJob.issued, hqueue, List.append_nil, ← hqueue]
  | cons p ps ih =>
    have hlook : look s.gathers tag = some j := by rw [halone, look, if_pos rfl]
    have hplace (i : GatherJob) : place s.gathers tag i = [(tag, i)] := by rw [halone, place, if_neg (lt_irrefl _), if_pos rfl]
    rw [List.length_cons, issueJob]
    simp only [hlook, hqueue, mayIssue_alone halone hfits, if_true, hplace]
    have hrest := ih (s := { s with gathers := [(tag, { j with queue := ps, flying := j.flying ++ [p] })] }) rfl rfl
      (by rwa [List.append_assoc])
    rw [hrest, GatherJob.issued, GatherJob.issued, hqueue, List.append_assoc]
    rfl

/-- The reads of the only gather issue all at once when they fit the bounds. -/
theorem look_issueReads_alone {s : State} {tag : Nat} {j : GatherJob} (halone : s.gathers = [(tag, j)])
    (hfits : FitsBounds (j.flying ++ j.queue)) : look (issueReads s).gathers tag = some j.issued := by
  have hjobs : (jobsIssued s).gathers = [(tag, j.issued)] := by
    rw [jobsIssued, halone, List.foldl_cons, List.foldl_nil]
    exact issueJob_alone halone rfl hfits
  rw [issueReads_def, gathers_peaksShown, hjobs, look, if_pos rfl]

/-! ## Work that ends well (10 R205, R207) -/

theorem conclude_ok {s : State} {tag : Nat} {e : Ended} {words : List Nat} {st : Status} (hservice : noService s = false)
    (he : e.2 = .ok (words, st)) : conclude s tag e = finish e.1 tag st words := by
  simp only [conclude, he, hservice, Bool.false_eq_true, if_false]

theorem length_upto (n : Nat) : (upto n).length = n := by rw [upto_eq_range, List.length_range]

theorem length_gatherOut (s : State) (r : Request) (g : GatherIn) (rep : Nat → Bool) (rd : Nat → Nat → List Byte) :
    (gatherOut s r g rep rd).length = gatherSlots r g := by
  unfold gatherOut gatherSlots
  split
  · exact List.length_map _
  · rw [List.length_map, length_upto]

/-- Indices that a gather drops. -/
def droppedOf (g : GatherIn) : List Nat := g.idx.filter (fun i => !g.table.valid i)

/-- The status of a gather that ends well, by whether it dropped any index (10 R204). -/
def gatherNote (g : GatherIn) : Status := if g.idx.all g.table.valid then .ok else .droppedIndices

theorem droppedOf_eq_nil {g : GatherIn} : droppedOf g = [] ↔ g.idx.all g.table.valid = true := by
  simp [droppedOf, List.filter_eq_nil_iff]

/-- The words of a gather that ends well: slots, dropped indices, rows read from replicas. -/
theorem gatherFinish_words (s : State) (r : Request) (g : GatherIn) (rep : Nat → Bool) (rd : Nat → Nat → List Byte) :
    (gatherFinish s r g rep rd).2 = .ok ([gatherSlots r g, (droppedOf g).length, hotReads g rep], gatherNote g) := by
  simp only [gatherFinish, length_gatherOut, gatherNote, ← droppedOf_eq_nil, ← List.length_eq_zero_iff]
  rfl

theorem conclude_gatherFinish {s : State} (hservice : noService s = false) (u : State) (tag : Nat) (r : Request) (g : GatherIn)
    (rep : Nat → Bool) (rd : Nat → Nat → List Byte) :
    conclude s tag (gatherFinish u r g rep rd) =
      finish (gatherFinish u r g rep rd).1 tag (gatherNote g) [gatherSlots r g, (droppedOf g).length, hotReads g rep] :=
  conclude_ok hservice (gatherFinish_words u r g rep rd)

/-! ## The start of a GATHER (10 R205, R215) -/

section Start
variable {s s1 : State} {tag : Nat} {r : Request} {g : GatherIn} (hidle : look s.gathers tag = none) (hservice : noService s = false)
  (hinputs : gatherInputs s r (readIdx r) = (s1, .ok g))
include hidle hservice hinputs

theorem gatherStart_noIdx (hidx : g.idx = []) : gatherStart s tag r = finish s1 tag .ok [0, 0, 0] := by
  simp [gatherStart, hidle, hinputs, hservice, hidx]

/-- A GATHER of some indices whose output fits and checks ends at once if no row is to be read, or else begins its reads. -/
theorem gatherStart_checked (hidx : g.idx ≠ []) (hfits : gatherLen r g ≤ bodyLe r 40 4)
    (hout : outCheck s1 r (nbit (bodyB r 28) 4) (bodyLe r 32 8) (gatherLen r g) = none) :
    gatherStart s tag r =
      if (allReads s1 r g).isEmpty then conclude s1 tag (gatherFinish s1 r g (fun _ => false) (fun _ _ => [])) else gatherOpen s1 tag r g := by
  simp [gatherStart, hidle, hinputs, hservice, hidx, Nat.not_lt.mpr hfits, hout]

end Start

/-- Without valid indices no row is read. -/
theorem allReads_noneValid {g : GatherIn} (hnone : g.idx.all (fun i => !g.table.valid i) = true) (s : State) (r : Request) :
    allReads s r g = [] := by
  have hvalid : g.idx.filter g.table.valid = [] := by simpa [List.filter_eq_nil_iff] using hnone
  rw [allReads, hvalid]
  rfl

theorem droppedOf_noneValid {g : GatherIn} (hnone : g.idx.all (fun i => !g.table.valid i) = true) : droppedOf g = g.idx :=
  List.filter_eq_self.mpr (List.all_eq_true.mp hnone)

theorem gatherNote_noneValid {g : GatherIn} (hidx : g.idx ≠ []) (hnone : g.idx.all (fun i => !g.table.valid i) = true) :
    gatherNote g = .droppedIndices := by
  rw [gatherNote, if_neg]
  rwa [← droppedOf_eq_nil, droppedOf_noneValid hnone]

theorem hotReads_noReplica (g : GatherIn) : hotReads g (fun _ => false) = 0 := by
  rw [hotReads, List.filter_false]
  rfl

/-- A gather about to read some rows, none of its reads issued. -/
def jobOpened (g : GatherIn) (reads : List (Nat × Nat)) : GatherJob := ⟨g, splitReads reads, [], reads.map (fun p => ⟨p.1, p.2, none⟩)⟩

theorem gatherOpen_def (s : State) (tag : Nat) (r : Request) (g : GatherIn) :
    gatherOpen s tag r g = issueReads { s with gathers := place s.gathers tag (jobOpened g (allReads s r g)) } := rfl

/-- A gather's start changes the gathers and the peaks alone. -/
theorem gatherOpen_eq (s : State) (tag : Nat) (r : Request) (g : GatherIn) :
    ∃ gathers regs, gatherOpen s tag r g = { s with gathers, regs } := by
  rw [gatherOpen_def]
  generalize place s.gathers tag (jobOpened g (allReads s r g)) = gathers
  exact issueReads_eq { s with gathers }

/-- A GATHER that finds no other under way issues all its reads at once when they fit the bounds. -/
theorem look_gatherOpen_alone {s : State} (hfirst : s.gathers = []) (tag : Nat) (r : Request) (g : GatherIn)
    (hfits : FitsBounds (splitReads (allReads s r g))) :
    look (gatherOpen s tag r g).gathers tag = some (jobOpened g (allReads s r g)).issued := by
  rw [gatherOpen_def, hfirst]
  exact look_issueReads_alone rfl hfits

/-! ## A row's bytes arrive (10 R209) -/

/-- The fabric spoils some flit of n bytes read. -/
def torn (fab : FabricSeen) (n : Nat) : Bool := fab.bad.any (fun k => decide (k ≤ flitOf (n - 1)))

/-- The state with the bytes of one read of a row at the engine, an owner's bytes first. -/
def rowReaches (s : State) (t : Nat) (j : GatherJob) (a n : Nat) (w : RowRead) (fab : FabricSeen) : State :=
  readArrives (collect s w.addr w.len true) t j.input.facet a n fab

/-- The rows of a gather, with those that the first data have come of as they stand. -/
def rowsTaken (s : State) (j : GatherJob) (a n : Nat) (fab : FabricSeen) : List RowRead :=
  (j.rows.map (captureRow s a)).map (fun x => if torn fab n then tornRow a x else x)

/-- The gather with a read come and the reads `rest` still outstanding. -/
def jobTakes (s : State) (j : GatherJob) (a n : Nat) (fab : FabricSeen) (rest : List (Nat × Nat)) : GatherJob :=
  { j with flying := rest, rows := rowsTaken s j a n fab }

/-- A map that is made under a condition maps under it. -/
theorem ite_map_eq {α : Type} (b : Bool) (f : α → α) (l : List α) :
    (if b then l.map f else l) = l.map (fun x => if b then f x else x) := by
  cases b with
  | true => rfl
  | false => exact (List.map_id' l).symm

/-- An arrival that passes its check frees its read, takes the bytes, and meets the check of the sums. -/
theorem rowArrival_eq {s u v : State} {tag a n : Nat} {r : Request} {j j' : GatherJob} {rest : List (Nat × Nat)} {w : RowRead}
    {fab : FabricSeen} (hjob : look s.gathers tag = some j) (hissued : j.queue = []) (hflying : j.flying = (a, n) :: rest)
    (haccess : checkAccess s r.tenant a n = none)
    (hrow : j.rows.find? (fun w => decide (w.addr ≤ a) && decide (a < w.addr + w.len)) = some w)
    (hquiet : cohBusy s w.addr w.len = false) (hu : rowReaches s r.tenant j a n w fab = u) (hj : jobTakes u j a n fab rest = j')
    (hv : { u with gathers := place u.gathers tag j' } = v) (check : Option Mismatch) :
    rowArrival s tag r true ⟨a, fab, check⟩ =
      if (meetCheck v (gatherChecked r j.input.facet) check).2 then
        gatherFails (meetCheck v (gatherChecked r j.input.facet) check).1 tag r j' .computeCheck
      else if rest.isEmpty then gatherLast (meetCheck v (gatherChecked r j.input.facet) check).1 tag r j'
      else issueReads (meetCheck v (gatherChecked r j.input.facet) check).1 := by
  have hfind : j.flying.find? (fun p => p.1 == a) = some (a, n) := by simp [hflying]
  have hfreed : j.flying.erase (a, n) = rest := by rw [hflying, List.erase_cons_head]
  subst hv hj hu
  simp only [rowArrival, hjob, hfind, hrow, haccess, hquiet, hfreed, hissued, ite_map_eq, Bool.false_eq_true, if_false, List.isEmpty_nil,
    Bool.and_true, Bool.true_and, jobTakes]
  rfl

end Sys2Proof.Machine
end

section
/-! Proof of the statement about GATHER, its row arrivals and SCATTER (O43). -/
namespace Sys2Proof.Machine

/-! ## GATHER and the last row of one (10 R205, R209) -/

theorem execGather_running {s : State} {tag : Nat} {r : Request} (hr : running s tag 0x12 = some r) :
    exec (.gather tag) s = .next (gatherStart s tag r) := by
  have h : exec (.gather tag) s = execGather tag s := rfl
  rw [h, execGather, hr]

theorem execGatherRowArrival_running {s : State} {tag : Nat} {r : Request} (hr : running s tag 0x12 = some r) (x : RowArrival) :
    exec (.gatherRowArrival tag x) s = .next (rowArrival s tag r true x) := by
  have h : exec (.gatherRowArrival tag x) s = execGatherRowArrival tag x s := rfl
  rw [h, execGatherRowArrival, hr]

/-- The last row's slots are written, and the gather ends well where none consumes poison. -/
theorem gatherLast_clean {s : State} {tag : Nat} {r : Request} {j : GatherJob} (hclean : poisonedSlot s r j = none)
    (hservice : noService s = false) :
    gatherLast s tag r j = issueReads (finish
      (gatherFinish { s with gathers := remove s.gathers tag } r j.input (replicaRead s j) (capturedBytes j.rows)).1 tag (gatherNote j.input)
      [gatherSlots r j.input, (droppedOf j.input).length, hotReads j.input (replicaRead s j)]) := by
  have hrest : noService { s with gathers := remove s.gathers tag } = false := hservice
  simp only [gatherLast, hclean]
  rw [conclude_gatherFinish hrest]

/-- A slot that consumes poison fails the gather, with the slots before it written. -/
theorem gatherLast_poisoned {s : State} {tag k : Nat} {r : Request} {j : GatherJob} {o : Origin} (hpoison : poisonedSlot s r j = some (k, o)) :
    gatherLast s tag r j =
      gatherFails (writeSlots s r j.input ((gatherOut s r j.input (replicaRead s j) (capturedBytes j.rows)).take k)) tag r j
        (poisonStatus o) := by
  simp only [gatherLast, hpoison]

/-- A check of the pooling sums that fails twice (08 R167). -/
theorem meetCheck_gather {r : Request} (hpooled : bodyB r 28 / 64 ≠ 0) (s : State) (f : Nat) :
    meetCheck s (gatherChecked r f) (some ⟨.gather f, true⟩) = (unitCheck s 10 (8 * f + 2) 2, true) := by
  simp [meetCheck, gatherChecked, hpooled, checkedNumber]

/-! ## SCATTER_REFRESH (10 R211) -/

/-- Work that ends well had what it began with. -/
theorem exists_of_andThen_ok {α β : Type} {x : Reading α} {f : State → α → Reading β} {s : State} {v : β}
    (h : Got.andThen x f = (s, .ok v)) : ∃ w, f x.1 w = (s, .ok v) := by
  unfold Got.andThen at h
  split at h
  · exact ⟨_, h⟩
  · cases h
  · cases h

/-- A REFRESH writes no home row and drops no index. -/
theorem refreshAll_counts (s : State) (r : Request) (t : Table) (hot : List Nat) :
    (refreshAll s r t hot).rows = 0 ∧ (refreshAll s r t hot).drops = 0 := by
  refine foldl_inv (fun x : Scattered => x.rows = 0 ∧ x.drops = 0) _ (fun x row hx => ?_) hot _ ⟨rfl, rfl⟩
  split
  · exact hx
  · dsimp only
    split <;> exact hx

theorem eq_of_scatterEnd {r : Request} {f : Nat} {x : Scattered} {s : State} {words : List Nat} {st : Status}
    (h : scatterEnd r f x = (s, .ok (words, st))) :
    words = [x.rows, x.drops, x.reps] ∧ st = if x.drops = 0 then .ok else .droppedIndices := by
  unfold scatterEnd at h
  dsimp only at h
  split at h
  · cases h
  · cases h
    exact ⟨rfl, rfl⟩

theorem scatterRun_refresh {s s1 : State} {r : Request} {words : List Nat} {st : Status} (h : scatterRun 2 s r = (s1, .ok (words, st))) :
    st = .ok ∧ words.take 2 = [0, 0] := by
  obtain ⟨f, u, t, hot, hend⟩ : ∃ f u t hot, scatterEnd r f (refreshAll u r t hot) = (s1, .ok (words, st)) := by
    unfold scatterRun at h
    dsimp only at h
    split at h
    · cases h
    split at h
    · cases h
    split at h
    · cases h
    obtain ⟨t, htable⟩ := exists_of_andThen_ok h
    split at htable
    · cases htable
    obtain ⟨hot, hhot⟩ := exists_of_andThen_ok htable
    split at hhot
    · cases hhot
    rw [if_pos rfl] at hhot
    split at hhot
    · cases hhot
    exact ⟨_, _, _, _, hhot⟩
  obtain ⟨hrows, hdrops⟩ := refreshAll_counts u r t hot
  obtain ⟨rfl, rfl⟩ := eq_of_scatterEnd hend
  rw [hrows, hdrops]
  exact ⟨rfl, rfl⟩

/-! ## One index of a WRITE (10 R211) -/

/-- A write inside bytes that no cache holds, over cells that need no correction, is a write of memory and nothing else. -/
theorem engWrite_quiet_clean {s : State} {a n : Nat} {d : List Byte} (hquiet : homeQuiet s a n = true) (hclean : writesClean s a n = true)
    (hlen : d.length = n) (t : Nat) : engWrite s t a d = memWrite s a d := by
  rw [engWrite_quiet hquiet hlen.le, hlen, noteParts_clean t hclean]

theorem memRead_memWrite_same (s : State) (a : Nat) (d : List Byte) : memRead (memWrite s a d) a d.length = d := by
  refine List.ext_getElem (length_memRead _ _ _) fun i hi hd => ?_
  rw [← List.getD_eq_getElem _ 0#8 hi, ← List.getD_eq_getElem _ 0#8 hd, getD_memRead _ a hd, memByte_memWrite,
    if_pos ⟨Nat.le_add_right _ _, Nat.add_lt_add_left hd _⟩, Nat.add_sub_cancel_left]

/-- A valid index of a WRITE to a table without hot rows puts its source row in the row's place. -/
theorem scatterOne_write {s : State} {t : Table} {r : Request} {i : Nat} {d : List Byte} (hvalid : t.valid i = true)
    (hlen : d.length = t.rowBytes) (haccess : checkAccess s r.tenant (t.base + t.mainRow i * t.stride) t.rowBytes = none)
    (hquiet : homeQuiet s (t.base + t.mainRow i * t.stride) t.rowBytes = true)
    (hclean : writesClean s (t.base + t.mainRow i * t.stride) t.rowBytes = true) (rows reps : Nat) :
    scatterOne t r [] false ⟨s, rows, reps, 0, none⟩ i (.ok d) =
      ⟨memWrite s (t.base + t.mainRow i * t.stride) d, rows + 1, reps, 0, none⟩ := by
  simp [scatterOne, hvalid, haccess, writeReplicas, engWrite_quiet_clean hquiet hclean hlen]

/-! ## INT8 ADD (10 R211) -/

/-- The low byte of a value of 8 bits reads back as the value. -/
theorem sInt_leBytes {v : Int} (hlo : -128 ≤ v) (hhi : v ≤ 127) : sInt 8 (rdB (leBytes 1 (v % 256).toNat) 0) = v := by
  have hbyte : rdB (leBytes 1 (v % 256).toNat) 0 = (v % 256).toNat % 256 := BitVec.toNat_ofNat _ _
  rw [hbyte]
  simp only [sInt, Nat.reducePow, Nat.reduceSub]
  split <;> omega

theorem sInt_addElem_int8 (a b : List Byte) (i : Nat) :
    sInt 8 (rdB (addElem 4 a b i) 0) = max (-128) (min 127 (sInt 8 (rdB a i) + sInt 8 (rdB b i))) :=
  sInt_leBytes (le_max_left _ _) (max_le (by decide) (min_le_left _ _))

/-! ## The statement -/

/-- Settles O43: a GATHER's start by its cases, an arrival by what it does before its check and by the cases of the last row, a SCATTER
by what its work gives, and one index of a WRITE by the write of memory that it is. -/
theorem gatherAndScatterComplete : Obligations.GatherAndScatterComplete := by
  unfold Obligations.GatherAndScatterComplete
  refine ⟨?start, ?arrival, ?scatter, ?write, sInt_addElem_int8⟩
  case start =>
    intro s s1 tag r g hr hidle hservice hinputs
    have hexec := execGather_running hr
    refine ⟨fun hidx => ?_, ?_, fun hidx hnone hfits hout hservice1 => ?_⟩
    · rw [hexec, gatherStart_noIdx hidle hservice hinputs hidx]
    · intro rs hidx hfits hout hfirst hreads hengine hstack
      have hsome : ¬ (allReads s1 r g).isEmpty = true := by
        rw [List.isEmpty_iff]
        exact fun h => hreads (congrArg splitReads h)
      refine ⟨gatherOpen s1 tag r g, ?_, look_gatherOpen_alone hfirst tag r g ⟨hengine, hstack⟩, ?_⟩
      · rw [hexec, gatherStart_checked hidle hservice hinputs hidx hfits hout, if_neg hsome]
      · obtain ⟨_, _, h⟩ := gatherOpen_eq s1 tag r g
        rw [h]
    · rw [hexec, gatherStart_checked hidle hservice hinputs hidx hfits hout, allReads_noneValid hnone, List.isEmpty_nil, if_pos rfl,
        conclude_gatherFinish hservice1, gatherNote_noneValid hidx hnone, droppedOf_noneValid hnone, hotReads_noReplica]
  case arrival =>
    intro s tag a n r j rest w fab hr hjob hissued hflying haccess hrow hquiet g s1 isTorn rows j' s2
    have harrival (check : Option Mismatch) := (execGatherRowArrival_running hr ⟨a, fab, check⟩).trans
      (congrArg Host.Outcome.next (rowArrival_eq (u := s1) (v := s2) (j' := j') hjob hissued hflying haccess hrow hquiet rfl rfl rfl check))
    have hmeets : meetCheck s2 (gatherChecked r j.input.facet) none = (s2, false) := rfl
    refine ⟨fun hmore => ?_, fun hlast hclean hservice => ?_, fun k o hlast hpoison => ?_, fun hpooled => ?_⟩
    · have hissues := harrival none
      rw [hmeets, if_neg Bool.false_ne_true, if_neg (mt List.isEmpty_iff.mp hmore)] at hissues
      obtain ⟨gathers, regs, h⟩ := issueReads_eq s2
      refine ⟨_, hissues, look_issueReads_issued (look_place_same _ _ _) hissued, ?_⟩
      rw [h]
      exact ⟨rfl, rfl, rfl⟩
    · rw [harrival, hmeets, if_neg Bool.false_ne_true, if_pos (List.isEmpty_iff.mpr hlast), gatherLast_clean hclean hservice]
      rfl
    · rw [harrival, hmeets, if_neg Bool.false_ne_true, if_pos (List.isEmpty_iff.mpr hlast), gatherLast_poisoned hpoison]
    · rw [harrival, meetCheck_gather hpooled, if_pos rfl]
  case scatter =>
    intro s s1 tag r res st hr hservice
    have hends {mode : Nat} (h : scatterRun mode s r = (s1, .ok (res, st))) :
        Host.Outcome.next (runOp s tag 0x13 (scatterRun mode)) = (.next (finish s1 tag st res) : Result) :=
      congrArg Host.Outcome.next (runOp_ok hr hservice h)
    exact ⟨hends, hends, fun h => ⟨hends h, scatterRun_refresh h⟩⟩
  case write =>
    intro s t r i n m d hvalid hlen a haccess hquiet hclean
    refine ⟨_, scatterOne_write hvalid hlen haccess hquiet hclean n m, ?_, fun b hout => ?_, rfl⟩
    · rw [← hlen]
      exact memRead_memWrite_same s a d
    · rw [memByte_memWrite, if_neg (by omega)]

end Sys2Proof.Machine
end
